-- ==== Sys2Proof/Word.lean ====
section
/-! DEFINITION. The words of the SX9064: bytes, 32-bit and 64-bit words, the 1,024-bit vector register, the sparse
sorted map in which the model holds what the spec gives many instances of, and the identity of a core. -/

namespace Sys2Proof

abbrev Byte := BitVec 8
abbrev Word := BitVec 32
abbrev DWord := BitVec 64

/-- One 1,024-bit vector or mask register (R109, R114). -/
abbrev VReg := BitVec 1024

/-- A sparse map from numbers to values: keys strictly rising, and no entry equal to what an unlisted key reads as. -/
abbrev SMap (α : Type) := List (Nat × α)

/-- A complex number whose parts are rationals: a value of the engines' formulas (R163, R189). -/
structure Cx where
  re : Rat
  im : Rat
  deriving DecidableEq, Repr

/-- A sample within a chain, and whether it is poisoned (R203). -/
structure Sample where
  v : Cx
  bad : Bool
  deriving DecidableEq, Repr

/-- A core that executes the scalar set: the Gelvipa core of a tile (R7), a Zelfa core (R400), or Plumb's pair of Zelfa cores,
which run in lockstep as one (R404). -/
inductive CoreUnit where
  | tile (t : Fin 192)
  | zelfa (z : Fin 8)
  | plumb
  deriving DecidableEq, Repr

/-- The core that issues an instruction. `words` holds the two words it fetched at the pc where they are not an encoding of
the command's instruction: one that encodes nothing takes ILLEGAL (R83). -/
structure CoreId where
  unit : CoreUnit
  words : Option (Word × Word)
  deriving DecidableEq, Repr

@[reducible] def CoreId.tile (t : Fin 192) : CoreId := ⟨.tile t, none⟩
@[reducible] def CoreId.zelfa (z : Fin 8) : CoreId := ⟨.zelfa z, none⟩

/-- An identity of Table 09-2: a kind and an index (R207). -/
structure Ident where
  kind : Nat
  index : Nat
  deriving DecidableEq, Repr

/-- Who sends a register access (R424, R428). -/
inductive Requester where
  | host
  | zelfa (z : Fin 8)
  | plumb
  | tile (t : Fin 192)
  | dap
  deriving DecidableEq, Repr

/-- One register write of a CLK_NOC cycle: the writer, the internal address, 4 or 8 bytes, the data, and for a host write
through BAR0 whether its byte enables cover the register (R422, R424). -/
structure RegWrite where
  who : Requester
  addr : BitVec 48
  eight : Bool
  full : Bool
  data : DWord
  deriving DecidableEq, Repr

/-- One write of a MEM_OWNER in a CLK_NOC cycle; `none` is the Compass dispatcher (R210). -/
structure OwnerWrite where
  who : Option Requester
  owner : Ident
  deriving DecidableEq, Repr

/-- The access that the bank's other port presents in the same bank cycle (R215). -/
structure PortAccess where
  write : Bool
  who : Ident
  addr : BitVec 48
  data : DWord
  bytes : BitVec 8
  deriving DecidableEq, Repr

/-- A flit that arrives at an input of an Orthogon router: as it was sent, with the bits that have changed on the way (R237,
R247). -/
structure FlitIn where
  port : Fin 15
  hdr : BitVec 56
  /-- lane i is bits [64i + 63:64i]; the packet header is lanes 0 to 3 of a HEAD or SINGLE flit (R238) -/
  lanes : BitVec 512
  /-- changed bits of the flit header, [55:0], and of its check bits -/
  hdrFlips : BitVec 64
  /-- changed bits of lane i, from bit 72i on, and of its check bits -/
  laneFlips : BitVec 576
  /-- at a local port, which of the requesters that share an identity sends it: 1 for a tile's coprocessor, a Zelfa core's
  number, a DMA channel (R244) -/
  sub : Fin 16
  deriving DecidableEq, Repr

/-- A flit of the Chord ring (R251). -/
structure ChordFlit where
  hdr : BitVec 56
  lanes : BitVec 256
  deriving DecidableEq, Repr

/-- Bits of a flit of a Chord packet that change on its way to the end of hop `hop` (R252). -/
structure ChordErr where
  hop : Fin 4
  flit : Fin 4
  hdrFlips : BitVec 64
  laneFlips : BitVec 288
  deriving DecidableEq, Repr

/-- A section of a received U-plane message, or the samples of a CPRI span (R281). `num` 0 stands for every PRB from `start`
on. -/
structure RxSection where
  start : BitVec 10
  num : BitVec 10
  data : List Byte
  /-- what the bank's other port presents as the section is written (R215) -/
  other : Option PortAccess
  deriving DecidableEq, Repr

/-- A message of a received frame, or a CPRI span (R278, R281). -/
structure RxMessage where
  /-- the eCPRI concatenation bit: another message follows in the frame -/
  more : Bool
  /-- eCPRI message type; on a CPRI link 0 a span of IQ, 1 the slow and 2 the fast C&M channel, 3 vendor-specific words
  (R276) -/
  type : BitVec 8
  /-- eAxC ID, or first bit of the AxC container -/
  id : BitVec 16
  frame : BitVec 8
  subframe : Fin 10
  slot : Fin 8
  symbol : Fin 14
  sections : List RxSection
  /-- the payload of a message that has no sections -/
  data : List Byte
  deriving DecidableEq, Repr

/-- A frame that a port has received (R278, R281): its last byte has just arrived. -/
structure RxFrame where
  fcsOk : Bool
  /-- frame bytes, FCS included -/
  len : BitVec 16
  messages : List RxMessage
  /-- on a CPRI link, the start of a hyperframe has just been registered at this phase, in steps of 31.25 ps (R304) -/
  hyper : Option (BitVec 8)
  deriving DecidableEq, Repr

/-- What a servo tick finds of a SyncE candidate port: whether the firmware takes its quality as acceptable, and its
frequency offset against Meridian, reference minus local, in 10^-12 (R310). -/
structure SyncMeas where
  ok : Bool
  offs : Int
  deriving DecidableEq, Repr

/-- A PTP message on the wire: its messageType, its correctionField in 2^-16 ns and its other bytes (R307, R308). -/
structure PtpMsg where
  /-- it came over IP and UDP -/
  udp : Bool
  type : Fin 16
  correction : BitVec 64
  body : List Byte
  deriving DecidableEq, Repr

/-- One transfer of an HX_BW stage (R338): the bank address, the host side (a host address, or with `toOut` an offset into
the job's output area at OUT_ADDR) and its length. -/
structure HxXfer where
  addr : BitVec 48
  host : BitVec 44
  toOut : Bool
  len : BitVec 20
  deriving DecidableEq, Repr

/-- One 64-byte host line, or a part of one, that a transfer moves (R338). -/
structure HxUnit where
  addr : Nat
  host : Nat
  len : Nat
  toOut : Bool
  deriving DecidableEq, Repr

/-- The link as it trains (R330, Table 14-1): RATE code of HX_LINK_STAT, lanes, CXL mode and lane reversal. -/
structure HxLink where
  rate : Fin 6
  width : Fin 17
  cxl : Bool
  reversed : Bool
  deriving DecidableEq, Repr

/-- What the board, the supply, the reference and the host show a start-up (Table 16-7): the BOOTSEL straps, which chip
selects answer SFDP and the modes each advertises (R373), the two PMBus reads of step 3 (none: no acknowledgement within
50 ms) and whether SDA was found low (R370), the REFCLK count and whether the root PLL locks (R13), the attempts whose two
reads of the image differ (R382), and the host link as it trains. -/
structure StartEnv where
  bootsel : BitVec 3
  sfdp : BitVec 2
  modes0 : BitVec 4
  modes1 : BitVec 4
  statusWord : Option (BitVec 16)
  vout : Option (BitVec 16)
  sdaLow : Bool
  count : BitVec 16
  locks : Bool
  changed : BitVec 4
  link : Option HxLink
  deriving DecidableEq, Repr

/-- The events that reach one job in one CLK_NOC cycle beside the command's own (R39): a consumption fault of a stage,
a stage at its budget, and a cancel's closing. -/
structure SameCycle where
  fault : Option (Fin 64)
  overrun : Option (Fin 64)
  cancel : Bool
  deriving DecidableEq, Repr

/-- What the body that follows a LOOP holds, as R89 asks of it. -/
inductive LoopBody where
  | ok
  | holdsLoop
  | endsInRep
  deriving DecidableEq, Repr

/-- The operand fields of a VA instruction (Table 05-8). -/
structure VArith where
  vd : Fin 32
  vs1 : Fin 32
  vs2 : Fin 32
  k : Fin 4
  sat : Bool
  mz : Bool
  men : Bool
  m : Fin 8
  /-- what the other port of a C operand's bank presents in the cycle of its read (R215) -/
  other : Option PortAccess := none
  deriving DecidableEq, Repr

/-- The operand fields of VBEXP and VBEXPS (Table 05-8): `m6` is their 6-bit m. -/
structure VExpo where
  vd : Fin 32
  vs1 : Fin 32
  m6 : BitVec 6
  sat : Bool
  mz : Bool
  men : Bool
  m : Fin 8
  deriving DecidableEq, Repr

/-- The operand fields of VPACK and VUNPACK (Table 05-8): `m1` is m − 1. -/
structure VPackOp where
  vd : Fin 32
  vs1 : Fin 32
  vs2 : Fin 32
  m1 : Fin 32
  sat : Bool
  h : Bool
  deriving DecidableEq, Repr

/-- The operand fields of a VM instruction (Table 05-8). -/
structure VMem where
  v : Fin 32
  am : Fin 4
  p : Bool
  g : Fin 32
  off : BitVec 8
  men : Bool
  m : Fin 8
  deriving DecidableEq, Repr

/-- Bits [hi:lo] of a word as a number (R3). -/
def bitsOf (w : Nat) (hi lo : Nat) : Nat := w / 2 ^ lo % 2 ^ (hi + 1 - lo)

/-- Bit i of a word. -/
def bitOf (w : Nat) (i : Nat) : Bool := w / 2 ^ i % 2 == 1

end Sys2Proof
end

