-- ==== Sys2Proof/Syntax.lean ====
section
/-! DEFINITION. The commands of the SX9064: one constructor per row of spec/opcode_table.json, in the table's order, with
the operands the command carries. -/

namespace Sys2Proof

/-- The commands. Each constructor's comment is its row's mnemonic and rule. -/
inductive Instr where
  /-- REGISTER_WRITE (R424). -/
  | registerWrite (ws : List RegWrite) (hwSet : DWord)
  /-- RC_FIELD_READ (R6). -/
  | rcFieldRead (who : Requester) (addr : BitVec 48) (eight : Bool) (hwEvent : Bool)
  /-- ROOT_PLL_LOCK (R301). -/
  | rootPllLock
  /-- REFCLK_LOCK_RETRY (R368). -/
  | refclkLockRetry (count : BitVec 16) (locks : Bool)
  /-- ROOT_PLL_LOCK_LOSS (R329). -/
  | rootPllLockLoss
  /-- REFCLK_LOSS (R413). -/
  | refclkLoss
  /-- JQ_RECORD_FETCH (R343). -/
  | jqRecordFetch (q : Fin 64) (rec : Option (BitVec 1024))
  /-- JOB_ADMISSION (R32). -/
  | jobAdmission
  /-- CANCEL_RECORD (R41). -/
  | cancelRecord
  /-- CANCEL_CLOSING_ARRIVES (R64). -/
  | cancelClosingArrives (h : Fin 2048) (d : Fin 5) (same : SameCycle)
  /-- CANCEL_ACK_ISSUE (R41). -/
  | cancelAckIssue
  /-- CALENDAR_BIN_END (R25). -/
  | calendarBinEnd
  /-- STAGE_READY (R56). -/
  | stageReady (h : Fin 2048) (st : Fin 64)
  /-- MISSING_INPUT_RELEASE (R57). -/
  | missingInputRelease (h : Fin 2048) (st : Fin 64)
  /-- STAGE_DISPATCH (R60). -/
  | stageDispatch (q : Fin 746)
  /-- STAGE_COMPLETE (R62). -/
  | stageComplete (q : Fin 746) (mask : BitVec 64)
  /-- STAGE_BUDGET_STOP (R34). -/
  | stageBudgetStop (q : Fin 746) (same : SameCycle)
  /-- TIMER_FLAG_FIRES (R52). -/
  | timerFlagFires (h : Fin 2048) (st : Fin 64) (flag : Fin 32)
  /-- CMP_EVT_SET (R55). -/
  | cmpEvtSet (value : Word)
  /-- FLOW_RELEASE (R69). -/
  | flowRelease (f : Fin 1024)
  /-- CLUSTER_IDLE_EXIT_CALENDAR (R31). -/
  | clusterIdleExitCalendar (c : Fin 24)
  /-- HIST_SNAP (R74). -/
  | histSnap (inst : BitVec 10)
  /-- CAL_SNAPSHOT (R75). -/
  | calSnapshot (value : Word)
  /-- CMP_BUSY_WINDOW_END (R51). -/
  | cmpBusyWindowEnd
  /-- ADD (R83). -/
  | add (c : CoreId) (rd ra rb : Fin 32)
  /-- SUB (R83). -/
  | sub (c : CoreId) (rd ra rb : Fin 32)
  /-- AND (R83). -/
  | and (c : CoreId) (rd ra rb : Fin 32)
  /-- OR (R83). -/
  | or (c : CoreId) (rd ra rb : Fin 32)
  /-- XOR (R83). -/
  | xor (c : CoreId) (rd ra rb : Fin 32)
  /-- ANDN (R83). -/
  | andn (c : CoreId) (rd ra rb : Fin 32)
  /-- SHL (R83). -/
  | shl (c : CoreId) (rd ra rb : Fin 32)
  /-- SHR (R83). -/
  | shr (c : CoreId) (rd ra rb : Fin 32)
  /-- SAR (R83). -/
  | sar (c : CoreId) (rd ra rb : Fin 32)
  /-- ROL (R83). -/
  | rol (c : CoreId) (rd ra rb : Fin 32)
  /-- SLT (R83). -/
  | slt (c : CoreId) (rd ra rb : Fin 32)
  /-- SLTU (R83). -/
  | sltu (c : CoreId) (rd ra rb : Fin 32)
  /-- MIN (R83). -/
  | min (c : CoreId) (rd ra rb : Fin 32)
  /-- MAX (R83). -/
  | max (c : CoreId) (rd ra rb : Fin 32)
  /-- MINU (R83). -/
  | minu (c : CoreId) (rd ra rb : Fin 32)
  /-- MAXU (R83). -/
  | maxu (c : CoreId) (rd ra rb : Fin 32)
  /-- MUL (R83). -/
  | mul (c : CoreId) (rd ra rb : Fin 32)
  /-- MULH (R83). -/
  | mulh (c : CoreId) (rd ra rb : Fin 32)
  /-- MULHU (R83). -/
  | mulhu (c : CoreId) (rd ra rb : Fin 32)
  /-- ABS (R83). -/
  | abs (c : CoreId) (rd ra : Fin 32)
  /-- NORM (R83). -/
  | norm (c : CoreId) (rd ra : Fin 32)
  /-- EXP (R83). -/
  | exp (c : CoreId) (rd ra : Fin 32)
  /-- CLZ (R83). -/
  | clz (c : CoreId) (rd ra : Fin 32)
  /-- POPC (R83). -/
  | popc (c : CoreId) (rd ra : Fin 32)
  /-- ADDS (R83). -/
  | adds (c : CoreId) (rd ra rb : Fin 32)
  /-- SUBS (R83). -/
  | subs (c : CoreId) (rd ra rb : Fin 32)
  /-- ADDI (R83). -/
  | addi (c : CoreId) (rd ra : Fin 32) (imm : BitVec 14)
  /-- ANDI (R83). -/
  | andi (c : CoreId) (rd ra : Fin 32) (imm : BitVec 14)
  /-- ORI (R83). -/
  | ori (c : CoreId) (rd ra : Fin 32) (imm : BitVec 14)
  /-- XORI (R83). -/
  | xori (c : CoreId) (rd ra : Fin 32) (imm : BitVec 14)
  /-- SLTI (R83). -/
  | slti (c : CoreId) (rd ra : Fin 32) (imm : BitVec 14)
  /-- SLTIU (R83). -/
  | sltiu (c : CoreId) (rd ra : Fin 32) (imm : BitVec 14)
  /-- SHLI (R83). -/
  | shli (c : CoreId) (rd ra : Fin 32) (sh : Fin 32)
  /-- SHRI (R83). -/
  | shri (c : CoreId) (rd ra : Fin 32) (sh : Fin 32)
  /-- SARI (R83). -/
  | sari (c : CoreId) (rd ra : Fin 32) (sh : Fin 32)
  /-- LUI (R83). -/
  | lui (c : CoreId) (rd : Fin 32) (imm : BitVec 14)
  /-- LDW (R77). -/
  | ldw (c : CoreId) (rd ra : Fin 32) (off : BitVec 15) (other : Option PortAccess)
  /-- LDH (R77). -/
  | ldh (c : CoreId) (rd ra : Fin 32) (off : BitVec 15) (other : Option PortAccess)
  /-- LDHU (R77). -/
  | ldhu (c : CoreId) (rd ra : Fin 32) (off : BitVec 15) (other : Option PortAccess)
  /-- LDB (R77). -/
  | ldb (c : CoreId) (rd ra : Fin 32) (off : BitVec 15) (other : Option PortAccess)
  /-- LDBU (R77). -/
  | ldbu (c : CoreId) (rd ra : Fin 32) (off : BitVec 15) (other : Option PortAccess)
  /-- STW (R80). -/
  | stw (c : CoreId) (rs ra : Fin 32) (off : BitVec 15) (other : Option PortAccess)
  /-- STH (R80). -/
  | sth (c : CoreId) (rs ra : Fin 32) (off : BitVec 15) (other : Option PortAccess)
  /-- STB (R80). -/
  | stb (c : CoreId) (rs ra : Fin 32) (off : BitVec 15) (other : Option PortAccess)
  /-- STWS (R217). -/
  | stws (c : CoreId) (rs ra : Fin 32) (off : BitVec 15) (other : Option PortAccess)
  /-- STWC (R217). -/
  | stwc (c : CoreId) (rs ra : Fin 32) (off : BitVec 15) (other : Option PortAccess)
  /-- BEQ (R78). -/
  | beq (c : CoreId) (ra rb : Fin 32) (disp : BitVec 15)
  /-- BNE (R78). -/
  | bne (c : CoreId) (ra rb : Fin 32) (disp : BitVec 15)
  /-- BLT (R78). -/
  | blt (c : CoreId) (ra rb : Fin 32) (disp : BitVec 15)
  /-- BGE (R78). -/
  | bge (c : CoreId) (ra rb : Fin 32) (disp : BitVec 15)
  /-- BLTU (R78). -/
  | bltu (c : CoreId) (ra rb : Fin 32) (disp : BitVec 15)
  /-- BGEU (R78). -/
  | bgeu (c : CoreId) (ra rb : Fin 32) (disp : BitVec 15)
  /-- BCPB (R99). -/
  | bcpb (c : CoreId) (disp : BitVec 15)
  /-- JAL (R78). -/
  | jal (c : CoreId) (rd : Fin 32) (disp : BitVec 20)
  /-- JR (R78). -/
  | jr (c : CoreId) (rd ra : Fin 32)
  /-- REP_IMM (R85). -/
  | repImm (c : CoreId) (n : BitVec 16) (part : BitVec 16)
  /-- REP_REG (R85). -/
  | repReg (c : CoreId) (ra : Fin 32) (part : BitVec 16)
  /-- LOOP (R89). -/
  | loop (c : CoreId) (ra : Fin 32) (len : Fin 32) (bad : LoopBody)
  /-- LOOPL (R89). -/
  | loopl (c : CoreId) (count : BitVec 24) (len : Fin 32) (bad : LoopBody)
  /-- CPWAIT (R99). -/
  | cpwait (c : CoreId)
  /-- MFC (R84). -/
  | mfc (c : CoreId) (rd : Fin 32) (csr : BitVec 12) (early : Bool)
  /-- MTC (R84). -/
  | mtc (c : CoreId) (ra : Fin 32) (csr : BitVec 12) (soon : Bool)
  /-- STEND (R106). -/
  | stend (c : CoreId) (ra rb : Fin 32)
  /-- SETRES (R107). -/
  | setres (c : CoreId) (ra : Fin 32) (k : Fin 4) (same : Bool)
  /-- ERET (R101). -/
  | eret (c : CoreId)
  /-- BRK (R101). -/
  | brk (c : CoreId) (code : BitVec 16)
  /-- FENCE (R83). -/
  | fence (c : CoreId)
  /-- LI (R83). -/
  | li (c : CoreId) (rd : Fin 32) (imm : Word)
  /-- ADDIL (R83). -/
  | addil (c : CoreId) (rd ra : Fin 32) (imm : Word)
  /-- ANDIL (R83). -/
  | andil (c : CoreId) (rd ra : Fin 32) (imm : Word)
  /-- ORIL (R83). -/
  | oril (c : CoreId) (rd ra : Fin 32) (imm : Word)
  /-- XORIL (R83). -/
  | xoril (c : CoreId) (rd ra : Fin 32) (imm : Word)
  /-- LDWL (R77). -/
  | ldwl (c : CoreId) (rd ra : Fin 32) (imm : Word) (other : Option PortAccess)
  /-- STWL (R80). -/
  | stwl (c : CoreId) (rs ra : Fin 32) (imm : Word) (other : Option PortAccess)
  /-- JL (R83). -/
  | jl (c : CoreId) (target : Word)
  /-- CP_CRECIP (R93). -/
  | cpCrecip (c : CoreId) (ra rb : Fin 32) (squashed : Bool)
  /-- CP_SQRT (R93). -/
  | cpSqrt (c : CoreId) (ra rb : Fin 32) (squashed : Bool)
  /-- CP_ATAN2 (R93). -/
  | cpAtan2 (c : CoreId) (ra rb : Fin 32) (squashed : Bool)
  /-- CP_TOPK (R93). -/
  | cpTopk (c : CoreId) (ra rb : Fin 32) (squashed : Bool)
  /-- CP_CRC (R93). -/
  | cpCrc (c : CoreId) (ra rb : Fin 32) (squashed : Bool)
  /-- CP_SCRAMB (R93). -/
  | cpScramb (c : CoreId) (ra rb : Fin 32) (squashed : Bool)
  /-- CP_INTLV (R93). -/
  | cpIntlv (c : CoreId) (ra rb : Fin 32) (squashed : Bool)
  /-- COPROCESSOR_DONE (R99). -/
  | coprocessorDone (t : Fin 192)
  /-- CPDONE_INTERRUPT (R101). -/
  | cpdoneInterrupt (t : Fin 192)
  /-- VSETL (R110). -/
  | vsetl (c : CoreId) (rd ra : Fin 32) (grp ew : Fin 4)
  /-- VSETLI (R110). -/
  | vsetli (c : CoreId) (rd : Fin 32) (avl : BitVec 24) (grp ew : Fin 4)
  /-- VBCST (R137). -/
  | vbcst (c : CoreId) (vd : Fin 32) (imm : Word)
  /-- VADD (R122). -/
  | vadd (c : CoreId) (x : VArith)
  /-- VSUB (R122). -/
  | vsub (c : CoreId) (x : VArith)
  /-- VRSUB (R122). -/
  | vrsub (c : CoreId) (x : VArith)
  /-- VMIN (R122). -/
  | vmin (c : CoreId) (x : VArith)
  /-- VMAX (R122). -/
  | vmax (c : CoreId) (x : VArith)
  /-- VABS (R122). -/
  | vabs (c : CoreId) (x : VArith)
  /-- VAND (R122). -/
  | vand (c : CoreId) (x : VArith)
  /-- VOR (R122). -/
  | vor (c : CoreId) (x : VArith)
  /-- VXOR (R122). -/
  | vxor (c : CoreId) (x : VArith)
  /-- VSHL (R122). -/
  | vshl (c : CoreId) (x : VArith)
  /-- VSHR (R122). -/
  | vshr (c : CoreId) (x : VArith)
  /-- VSRA (R123). -/
  | vsra (c : CoreId) (x : VArith)
  /-- VSRAR (R123). -/
  | vsrar (c : CoreId) (x : VArith)
  /-- VMERGE (R114). -/
  | vmerge (c : CoreId) (x : VArith)
  /-- VCLR (R131). -/
  | vclr (c : CoreId) (x : VArith)
  /-- VCONJ (R113). -/
  | vconj (c : CoreId) (x : VArith)
  /-- VMUL (R122). -/
  | vmul (c : CoreId) (x : VArith)
  /-- VMULQ (R122). -/
  | vmulq (c : CoreId) (x : VArith)
  /-- VMACW (R125). -/
  | vmacw (c : CoreId) (x : VArith)
  /-- VMSCW (R125). -/
  | vmscw (c : CoreId) (x : VArith)
  /-- VCMULQ (R122). -/
  | vcmulq (c : CoreId) (x : VArith)
  /-- VCMULCQ (R122). -/
  | vcmulcq (c : CoreId) (x : VArith)
  /-- VCMACW (R125). -/
  | vcmacw (c : CoreId) (x : VArith)
  /-- VCMACCW (R125). -/
  | vcmaccw (c : CoreId) (x : VArith)
  /-- VNRW (R125). -/
  | vnrw (c : CoreId) (x : VArith)
  /-- VWCVT (R125). -/
  | vwcvt (c : CoreId) (x : VArith)
  /-- VCMPEQ (R115). -/
  | vcmpeq (c : CoreId) (x : VArith)
  /-- VCMPLT (R115). -/
  | vcmplt (c : CoreId) (x : VArith)
  /-- VCMPLE (R115). -/
  | vcmple (c : CoreId) (x : VArith)
  /-- VNORM (R126). -/
  | vnorm (c : CoreId) (x : VArith)
  /-- VEXP (R126). -/
  | vexp (c : CoreId) (x : VArith)
  /-- VBEXP (R127). -/
  | vbexp (c : CoreId) (x : VExpo)
  /-- VBEXPS (R127). -/
  | vbexps (c : CoreId) (x : VExpo)
  /-- VSHRS (R128). -/
  | vshrs (c : CoreId) (x : VArith)
  /-- VPACK (R129). -/
  | vpack (c : CoreId) (x : VPackOp)
  /-- VUNPACK (R129). -/
  | vunpack (c : CoreId) (x : VPackOp)
  /-- VSLIDEUP (R121). -/
  | vslideup (c : CoreId) (x : VArith)
  /-- VSLIDEDN (R121). -/
  | vslidedn (c : CoreId) (x : VArith)
  /-- VZIP (R121). -/
  | vzip (c : CoreId) (x : VArith)
  /-- VUNZIP (R121). -/
  | vunzip (c : CoreId) (x : VArith)
  /-- VREV (R121). -/
  | vrev (c : CoreId) (x : VArith)
  /-- VREDSUM (R131). -/
  | vredsum (c : CoreId) (x : VArith)
  /-- VREDMAX (R131). -/
  | vredmax (c : CoreId) (x : VArith)
  /-- VMVXV (R131). -/
  | vmvxv (c : CoreId) (x : VArith)
  /-- VMVVX (R131). -/
  | vmvvx (c : CoreId) (x : VArith)
  /-- MAND (R115). -/
  | mand (c : CoreId) (md ms1 ms2 : Fin 8)
  /-- MOR (R115). -/
  | mor (c : CoreId) (md ms1 ms2 : Fin 8)
  /-- MXOR (R115). -/
  | mxor (c : CoreId) (md ms1 ms2 : Fin 8)
  /-- MANDN (R115). -/
  | mandn (c : CoreId) (md ms1 ms2 : Fin 8)
  /-- MNOT (R115). -/
  | mnot (c : CoreId) (md ms1 : Fin 8)
  /-- MSETVL (R115). -/
  | msetvl (c : CoreId) (md : Fin 8)
  /-- MPOPC (R115). -/
  | mpopc (c : CoreId) (rd : Fin 32) (ms1 : Fin 8)
  /-- MFIRST (R115). -/
  | mfirst (c : CoreId) (rd : Fin 32) (ms1 : Fin 8)
  /-- VLD (R117). -/
  | vld (c : CoreId) (x : VMem) (other : Option PortAccess)
  /-- VST (R117). -/
  | vst (c : CoreId) (x : VMem) (other : Option PortAccess)
  /-- VSTN (R120). -/
  | vstn (c : CoreId) (x : VMem) (other : Option PortAccess)
  /-- VLDM (R137). -/
  | vldm (c : CoreId) (x : VMem) (other : Option PortAccess)
  /-- VSTM (R137). -/
  | vstm (c : CoreId) (x : VMem) (other : Option PortAccess)
  /-- LDPC_DECODE (R149). -/
  | ldpcDecode (e : Fin 48) (other : Option PortAccess)
  /-- LDPC_ENCODE (R152). -/
  | ldpcEncode (e : Fin 16) (other : Option PortAccess)
  /-- POLAR_DECODE (R153). -/
  | polarDecode (e : Fin 24) (other : Option PortAccess)
  /-- POLAR_ENCODE (R153). -/
  | polarEncode (e : Fin 24) (other : Option PortAccess)
  /-- TURBO_DECODE (R154). -/
  | turboDecode (e : Fin 16) (other : Option PortAccess)
  /-- FFT_UL (R164). -/
  | fftUl (e : Fin 16) (other : Option PortAccess)
  /-- FFT_DL (R164). -/
  | fftDl (e : Fin 16) (other : Option PortAccess)
  /-- SCALE (R166). -/
  | scale (e : Fin 16) (other : Option PortAccess)
  /-- CEF (R169). -/
  | cef (e : Fin 16) (other : Option PortAccess)
  /-- WEIGHTS (R173). -/
  | weights (e : Fin 16) (other : Option PortAccess)
  /-- CHOL (R173). -/
  | chol (e : Fin 16) (other : Option PortAccess)
  /-- QR (R173). -/
  | qr (e : Fin 16) (other : Option PortAccess)
  /-- APPLY (R173). -/
  | apply (e : Fin 16) (other : Option PortAccess)
  /-- SICW (R173). -/
  | sicw (e : Fin 16) (other : Option PortAccess)
  /-- SIC (R173). -/
  | sic (e : Fin 16) (other : Option PortAccess)
  /-- PRA_DETECT (R182). -/
  | praDetect (e : Fin 32) (other : Option PortAccess)
  /-- SDC_RUN (R194). -/
  | sdcRun (n : Fin 128) (other : Option PortAccess)
  /-- COEF_LOAD (R190). -/
  | coefLoad (n : Fin 128) (other : Option PortAccess)
  /-- SDC_FADE_END (R191). -/
  | sdcFadeEnd (n : Fin 128)
  /-- SDC_SHADOW_WRITE (R200). -/
  | sdcShadowWrite (n : Fin 128) (r : Fin 3) (who : Requester) (value : Word)
  /-- SDC_COMMIT_SET (R200). -/
  | sdcCommitSet (n : Fin 128) (who : Requester) (value : Word)
  /-- MEM_OWNER_WRITE (R210). -/
  | memOwnerWrite (b : Fin 25) (bank : BitVec 8) (ws : List OwnerWrite)
  /-- HANDOVER_COMPLETE (R211). -/
  | handoverComplete (b : Fin 25) (bank : BitVec 8)
  /-- MEM_CODE_CHANGE (R219). -/
  | memCodeChange (b : Fin 25) (bank : BitVec 8) (who : Requester) (value : Word)
  /-- SCRUB_LINE_CHECK (R226). -/
  | scrubLineCheck (b : Fin 25) (bank : BitVec 8)
  /-- SCRUB_WRITE_BACK (R226). -/
  | scrubWriteBack (b : Fin 25)
  /-- SCRUB_LAP_END (R227). -/
  | scrubLapEnd (b : Fin 25)
  /-- MEM_REMAP_INSTALL (R230). -/
  | memRemapInstall (b : Fin 25) (e : Fin 16) (who : Requester) (value : Word)
  /-- ORTHOGON_FLIT_HOP (R247). -/
  | orthogonFlitHop (r : Fin 112) (ins : List FlitIn) (gap : BitVec 8) (sub : Fin 3)
  /-- ORTHOGON_PACKET_DELIVERY (R249). -/
  | orthogonPacketDelivery (hdr : BitVec 56) (pkt : BitVec 256) (payload : BitVec 1024) (marks : BitVec 16) (hdrMarked admitted : Bool) (other : Option PortAccess)
  /-- RESERVATION_TIMEOUT (R245). -/
  | reservationTimeout (who : Ident) (tag : BitVec 8) (port : Fin 4)
  /-- CHORD_PACKET (R252). -/
  | chordPacket (src dest : Fin 16) (flits : List ChordFlit) (errs : List ChordErr)
  /-- NOC_EPOCH_COPY (R253). -/
  | nocEpochCopy (old : BitVec 16)
  /-- NOC_DRAIN_END (R254). -/
  | nocDrainEnd
  /-- NOC_WHEEL_WRITE (R253). -/
  | nocWheelWrite (who : Requester) (value : Word)
  /-- NOC_BRG_SH_WRITE (R253). -/
  | nocBrgShWrite (who : Requester) (b : Fin 3) (value : Word)
  /-- NOC_EPOCH_COMMIT (R253). -/
  | nocEpochCommit (who : Requester) (value : Word)
  /-- DOMAIN_FENCE (R255). -/
  | domainFence (d : Fin 30) (admitted : BitVec 16)
  /-- FENCE_DRAINED (R255). -/
  | fenceDrained (d : Fin 30)
  /-- FENCE_DRAIN_TIMEOUT (R256). -/
  | fenceDrainTimeout (d : Fin 30)
  /-- DMA_START (R261). -/
  | dmaStart (c : Fin 25) (ch : Fin 16) (who : Requester) (value : Word)
  /-- DMA_LIST_FETCH (R264). -/
  | dmaListFetch (c : Fin 25) (ch : Fin 16)
  /-- DMA_BLOCK_COMPLETE (R265). -/
  | dmaBlockComplete (c : Fin 25) (ch : Fin 16) (host : List (Byte × Bool)) (transOk : Bool) (other : Option PortAccess)
  /-- DMA_DOORBELL (R270). -/
  | dmaDoorbell (c : Fin 25) (ch : Fin 16) (who : Requester) (value : Word)
  /-- DMA_BUS_ERROR (R268). -/
  | dmaBusError (c : Fin 25) (ch : Fin 16) (addr : BitVec 48) (progress : BitVec 24)
  /-- DMA_STOP_COMPLETE (R268). -/
  | dmaStopComplete (c : Fin 25) (progress : List Nat) (host : List (List (Byte × Bool)))
  /-- FH_RX_MESSAGE (R281). -/
  | fhRxMessage (p : Fin 64) (x : RxFrame)
  /-- ECPRI_DELAY_REQUEST (R280). -/
  | ecpriDelayRequest (p : Fin 64) (id : BitVec 8) (phase : BitVec 8)
  /-- ECPRI_DELAY_SEND (R280). -/
  | ecpriDelaySend (p : Fin 64) (id : BitVec 8) (phase : BitVec 8)
  /-- FH_SYMBOL_COMPLETE (R282). -/
  | fhSymbolComplete (stream : Fin 4096) (sym : BitVec 56)
  /-- FH_LQ_PUSH (R284). -/
  | fhLqPush (p : Fin 64) (who : Requester) (entry : BitVec 256) (closed : Bool)
  /-- FH_FRAME_LAUNCH (R287). -/
  | fhFrameLaunch (p : Fin 64) (other : Option PortAccess)
  /-- FH_TX_LATE (R287). -/
  | fhTxLate (p : Fin 64)
  /-- LANE_LOCK_GAINED (R290). -/
  | laneLockGained (l : Fin 64) (align : BitVec 16) (inOrder : Bool)
  /-- LANE_LOCK_LOST (R290). -/
  | laneLockLost (l : Fin 64) (stage : Fin 3) (cv ce ue : BitVec 32)
  /-- LANE_POLARITY_FLIP (R291). -/
  | lanePolarityFlip (l : Fin 64)
  /-- LANE_LOS_DETECT (R292). -/
  | laneLosDetect (l : Fin 64)
  /-- LANE_SIGNAL_RESTORED (R292). -/
  | laneSignalRestored (l : Fin 64)
  /-- CPRI_STARTUP (R276). -/
  | cpriStartup (p : Fin 64) (st : Fin 6) (agreed : Bool) (phase : BitVec 8)
  /-- LANE_CHAR_START (R294). -/
  | laneCharStart (l : Fin 64) (who : Requester) (value : Word)
  /-- LANE_CHAR_DONE (R294). -/
  | laneCharDone (l : Fin 64) (eyeH eyeW : BitVec 8) (sug : DWord)
  /-- LANE_PRBS_ENABLE (R295). -/
  | lanePrbsEnable (l : Fin 64) (who : Requester) (value : Word)
  /-- INJ_ONE (R296). -/
  | injOne (l : Fin 64) (who : Requester) (value : Word)
  /-- INJ_BURST (R296). -/
  | injBurst (l : Fin 64) (who : Requester) (value : Word)
  /-- PRBS_CHECKER_LOCK (R296). -/
  | prbsCheckerLock (l : Fin 64) (rx : BitVec 128) (errs : BitVec 48)
  /-- PRBS_CHECKER_RESYNC (R296). -/
  | prbsCheckerResync (l : Fin 64) (errs : BitVec 48) (last : BitVec 64)
  /-- DEEP_LANE_EXIT (R298). -/
  | deepLaneExit (g : Fin 8)
  /-- PTP_TC_FORWARD (R307). -/
  | ptpTcForward (p : Fin 64) (m : PtpMsg) (ago : BitVec 24) (rxPhase txPhase : BitVec 8)
  /-- PTP_TC_DROP (R307). -/
  | ptpTcDrop (p : Fin 64)
  /-- PTP_EVENT_RECEIVE (R308). -/
  | ptpEventReceive (p : Fin 64) (m : PtpMsg) (phase : BitVec 8)
  /-- TB_NS_READ (R302). -/
  | tbNsRead (who : Requester)
  /-- TB_SET (R303). -/
  | tbSet (value : DWord)
  /-- TB_SET_APPLY (R303). -/
  | tbSetApply
  /-- TB_PTP_OFFS (R309). -/
  | tbPtpOffs (who : Requester) (value : DWord)
  /-- CAL_USER_WRITE (R305). -/
  | calUserWrite (item : Fin 8) (idx : BitVec 8) (value : Word)
  /-- SERVO_TICK (R312). -/
  | servoTick (se : List SyncMeas)
  /-- HOLDOVER_EXPIRED (R314). -/
  | holdoverExpired
  /-- PPS_OUT_PULSE (R316). -/
  | ppsOutPulse
  /-- TOD_TX_MESSAGE (R318). -/
  | todTxMessage (leap : BitVec 2) (utc : BitVec 16) (cls : Byte)
  /-- TOD_RX_MESSAGE (R318). -/
  | todRxMessage (msg : BitVec 128)
  /-- PPS_IN_CAPTURE (R319). -/
  | ppsInCapture (phase : BitVec 8)
  /-- GPIO_CAPTURE (R319). -/
  | gpioCapture (g : Fin 32) (falling : Bool)
  /-- PPS_IN_MISS (R319). -/
  | ppsInMiss
  /-- TUNE_DAC_WRITE (R321). -/
  | tuneDacWrite (who : Requester) (value : Word)
  /-- CTX_SLOT_COMMIT (R327). -/
  | ctxSlotCommit (group : Bool) (n : Fin 64)
  /-- TB_CTX_SH_WRITE (R327). -/
  | tbCtxShWrite (n : Fin 64) (who : Requester) (value : Word)
  /-- TB_CTX_COMMIT (R328). -/
  | tbCtxCommit (n : Fin 64) (who : Requester) (value : Word)
  /-- TB_LG_COMMIT (R327). -/
  | tbLgCommit (g : Fin 16) (who : Requester) (value : Word)
  /-- BAR2_ACCESS (R334). -/
  | bar2Access (write : Bool) (off : BitVec 25) (len : Fin 65) (data : BitVec 512) (poison : Bool) (other : Option PortAccess)
  /-- BAR0_ACCESS (R333). -/
  | bar0Access (write : Bool) (off : BitVec 26) (eight : Bool) (full : Bool) (data : DWord)
  /-- HX_BW_TRANSFER (R338). -/
  | hxBwTransfer (inst : Fin 2) (xs : List HxXfer) (transOk wrOk : Bool)
  /-- HX_READ_COMPLETE (R339). -/
  | hxReadComplete (h : Fin 2048) (st : Fin 64) (host : List (Byte × Bool))
  /-- ATS_INVALIDATION (R336). -/
  | atsInvalidation (base size : BitVec 64)
  /-- HX_JQ_TAIL (R343). -/
  | hxJqTail (q : Fin 64) (who : Requester) (value : Word)
  /-- HX_CQ_HEAD (R344). -/
  | hxCqHead (q : Fin 64) (who : Requester) (value : Word)
  /-- HX_QUEUE_CFG (R342). -/
  | hxQueueCfg (cq : Bool) (q : Fin 64) (who : Requester) (value : Word)
  /-- HX_QUEUE_BASE (R342). -/
  | hxQueueBase (cq : Bool) (q : Fin 64) (who : Requester) (value : DWord)
  /-- HX_FW_EVT (R346). -/
  | hxFwEvt (who : Requester) (value : Word)
  /-- HOST_LINK_LOSS (R347). -/
  | hostLinkLoss (cause : Fin 3) (x : HxLink)
  /-- HOST_LINK_RETURN (R347). -/
  | hostLinkReturn (x : HxLink)
  /-- GRACE_TIMER_EXPIRY (R348). -/
  | graceTimerExpiry
  /-- HX_PERST_ASSERT (R349). -/
  | hxPerstAssert
  /-- HX_PERST_RELEASE (R349). -/
  | hxPerstRelease
  /-- HX_PORT_READY (R349). -/
  | hxPortReady (x : HxLink)
  /-- AON_START (R350). -/
  | aonStart
  /-- VIN_PFAIL (R350). -/
  | vinPfail
  /-- VIN_STOP (R352). -/
  | vinStop
  /-- VIN_START (R352). -/
  | vinStart
  /-- VIN_OV_WARNING (R350). -/
  | vinOvWarning
  /-- VIN_OV_DISCONNECT (R352). -/
  | vinOvDisconnect
  /-- VIN_OV_RELEASE (R352). -/
  | vinOvRelease
  /-- PWR_REQ_OFF (R357). -/
  | pwrReqOff (who : Requester)
  /-- PWR_REQ_DEEP (R358). -/
  | pwrReqDeep (who : Requester) (wakeMs : BitVec 16)
  /-- PWR_REQ_SLEEP (R358). -/
  | pwrReqSleep (who : Requester) (wakeMs : BitVec 16)
  /-- PWR_REQ_RUN (R355). -/
  | pwrReqRun (who : Requester)
  /-- PWR_REQ_LOAD (R356). -/
  | pwrReqLoad (who : Requester)
  /-- PWR_REQ_SERVICE (R357). -/
  | pwrReqService (who : Requester)
  /-- VOTE_STAGE_AGREED (R358). -/
  | voteStageAgreed
  /-- BACKOFF_EXPIRY (R360). -/
  | backoffExpiry
  /-- CLUSTER_IDLE_ENTRY (R355). -/
  | clusterIdleEntry (c : Fin 24)
  /-- CLUSTER_SLEEP_ENTRY (R355). -/
  | clusterSleepEntry (c : Fin 24)
  /-- CLUSTER_WAKE_COMPLETE (R257). -/
  | clusterWakeComplete (c : Fin 24)
  /-- WAKE_N_ASSERT (R367). -/
  | wakeNAssert
  /-- WAKE_TIMER_EXPIRY (R355). -/
  | wakeTimerExpiry
  /-- POWER_GOOD (R353). -/
  | powerGood (count : BitVec 16)
  /-- POWER_GOOD_TIMEOUT (R368). -/
  | powerGoodTimeout (sdaLow : Bool) (word : Option (BitVec 16))
  /-- PLL_LOCK_TIMEOUT (R368). -/
  | pllLockTimeout
  /-- DOMAIN_RAIL_TIMEOUT (R368). -/
  | domainRailTimeout (d : Fin 28)
  /-- PAD_HOLD_RELEASE (R365). -/
  | padHoldRelease (who : Requester)
  /-- PMB_ALERT (R369). -/
  | pmbAlert (sdaLow : Bool) (word : Option (BitVec 16))
  /-- PMB_MARGIN_REQUEST (R370). -/
  | pmbMarginRequest (margin : Fin 4) (sdaLow : Bool) (vout : Option (BitVec 16))
  /-- PMB_TRANSACTION_TIMEOUT (R370). -/
  | pmbTransactionTimeout
  /-- STARTUP_SEQUENCE (R381). -/
  | startupSequence (env : StartEnv)
  /-- JOURNAL_COMPACTION (R388). -/
  | journalCompaction
  /-- JOURNAL_COMPACTION_DONE (R388). -/
  | journalCompactionDone
  /-- JNL_CAL_SAVE (R387). -/
  | jnlCalSave (item : BitVec 8) (idx : BitVec 16)
  /-- DEV_ROLLBACK_ADV (R380). -/
  | devRollbackAdv (who : Requester)
  /-- DEV_KEY_PROG (R379). -/
  | devKeyProg (who : Requester) (index : BitVec 6) (value : Byte)
  /-- DEV_KEY_LOCK (R379). -/
  | devKeyLock (who : Requester)
  /-- FLASH_WRITE_COMMAND (R375). -/
  | flashWriteCommand (cs : Fin 2) (addr : BitVec 28) (erase : Option (BitVec 28)) (data : List Byte)
  /-- ZELFA_INTERRUPT (R402). -/
  | zelfaInterrupt (z : Fin 8) (n : Fin 12)
  /-- WDT_ENABLE (R405). -/
  | wdtEnable (k : Fin 8) (who : Requester)
  /-- WDT_KICK (R405). -/
  | wdtKick (k : Fin 8) (who : Requester) (value : Byte)
  /-- WATCHDOG_EXPIRY (R405). -/
  | watchdogExpiry (k : Option (Fin 8))
  /-- LOCKSTEP_MISMATCH (R404). -/
  | lockstepMismatch
  /-- THERMAL_SENSOR_READ (R406). -/
  | thermalSensorRead (raw : List (BitVec 16))
  /-- THERM_ALERT (R406). -/
  | thermAlert (low : Bool)
  /-- SAFE_N_ASSERT (R407). -/
  | safeNAssert (low : Bool)
  /-- PLB_CLEAR (R411). -/
  | plbClear (who : Requester) (same : Option (Fin 16))
  /-- SAFE_N_MASK_WRITE (R408). -/
  | safeNMaskWrite (who : Requester) (mask : Bool)
  /-- BANK_BIST (R415). -/
  | bankBist (who : Requester) (b : Fin 25) (bank : BitVec 8)
  /-- TS_LOOPBACK_CAL (R415). -/
  | tsLoopbackCal (who : Requester) (l : Fin 64)
  /-- CALENDAR_AUDIT (R415). -/
  | calendarAudit (who : Requester)
  /-- THERMAL_SENSOR_CHECK (R415). -/
  | thermalSensorCheck (who : Requester)
  /-- SCRUB_ENABLE (R415). -/
  | scrubEnable (c : Fin 25) (maxLap : BitVec 16)
  /-- MAINT_ACTIVITY_END (R415). -/
  | maintActivityEnd (id : Fin 8) (target : BitVec 13) (ok : Bool) (values : List (BitVec 16))
  /-- GPIO_FAULT_DETECT (R413). -/
  | gpioFaultDetect (g : Fin 32)
  /-- TAP_RESET (R427). -/
  | tapReset
  /-- EXTEST (R430). -/
  | extest (captured shifted : BitVec 60)
  /-- IDCODE (R427). -/
  | idcode
  /-- SAMPLE_PRELOAD (R427). -/
  | samplePreload (captured shifted : BitVec 60)
  /-- BYPASS (R427). -/
  | bypass
  /-- DAP_ACC (R428). -/
  | dapAcc (dr : BitVec 128) (arrived lost : Bool) (other : Option PortAccess)
  /-- DAP_HALT (R429). -/
  | dapHalt (target : Fin 4) (index : Byte)
  /-- DAP_RESUME (R429). -/
  | dapResume (target : Fin 4) (index : Byte)
  /-- FLASH_BRIDGE (R431). -/
  | flashBridge (dr : BitVec 24) (rx : Byte)
  /-- VIN_RECOVERY (R351). -/
  | vinRecovery
  /-- PTP_MESSAGE_SEND (R308). -/
  | ptpMessageSend (p : Fin 64) (m : PtpMsg) (phase : BitVec 8)
  /-- CONFIGURATION_REQUEST (R349). -/
  | configurationRequest (write : Bool) (off : BitVec 10) (value : Word) (be : BitVec 4)
  /-- FLASH_OPERATION_COMPLETE (R402). -/
  | flashOperationComplete
  deriving DecidableEq, Repr

end Sys2Proof
end

