-- ==== Sys2Proof/Decode.lean ====
section
/-! DEFINITION. The command a word of the opcode table spells. The table gives none of its rows any bits, so no word spells a
command. -/

namespace Sys2Proof

/-- No row of the table has bits: no word of any width spells a command. -/
def decodeTableWord (_nbits _w : Nat) : Option Instr := none

end Sys2Proof
end

