-- ==== Sys2Proof/Machine/Crc.lean ====
section
/-! DEFINITION. The cyclic redundancy checks the spec names: CRC-32C (R238, R376, R386) CRC-16/CCITT-FALSE (R318) and
the 3GPP CRCs (R94, R148, R153), with the bit order, start and end values of the standards' usual definitions (PRESUMED, log 21), and
the scrambling sequence (R94, R149). -/

namespace Sys2Proof.Machine

/-- n steps of a reflected CRC register with polynomial p. -/
def crcShiftR (p : Nat) : Nat → Nat → Nat
  | 0, c => c
  | n + 1, c => crcShiftR p n (if c % 2 = 1 then (c / 2) ^^^ p else c / 2)

/-- CRC-32C of a byte string. -/
def crc32c (l : List Byte) : Nat :=
  (l.foldl (fun c b => crcShiftR 0x82F63B78 8 (c ^^^ b.toNat)) 0xFFFFFFFF) ^^^ 0xFFFFFFFF

/-- n steps of an unreflected w-bit CRC register with polynomial p. -/
def crcShiftL (w p : Nat) : Nat → Nat → Nat
  | 0, c => c
  | n + 1, c =>
    crcShiftL w p n (if bitOf c (w - 1) then (2 * c % 2 ^ w) ^^^ p else 2 * c % 2 ^ w)

/-- CRC-16/CCITT-FALSE of a byte string. -/
def crc16 (l : List Byte) : Nat :=
  l.foldl (fun c b => crcShiftL 16 0x1021 8 (c ^^^ (b.toNat * 256))) 0xFFFF

/-- A w-bit CRC of a bit string, the first bit first, from a register value: the 3GPP form (TS 38.212 clause 5.1). -/
def crcFrom (init w p : Nat) (l : List Bool) : Nat :=
  l.foldl (fun c b => if bitOf c (w - 1) != b then (2 * c % 2 ^ w) ^^^ p else 2 * c % 2 ^ w) init

/-- A w-bit CRC from a zero register. -/
def crcBits (w p : Nat) (l : List Bool) : Nat := crcFrom 0 w p l

def crc24a (l : List Bool) : Nat := crcBits 24 0x864CFB l
def crc24b (l : List Bool) : Nat := crcBits 24 0x800063 l
def crc16p (l : List Bool) : Nat := crcBits 16 0x1021 l
def crc24c (l : List Bool) : Nat := crcBits 24 0xB2B117 l

/-- The w bits of a number, the most significant first. -/
def msbBits (w v : Nat) : List Bool := (List.range w).map fun i => bitOf v (w - 1 - i)

/-! ### The length-31 Gold sequence (TS 38.211 clause 5.2.1, TS 36.211 clause 7.2) -/

/-- One step of the two registers of the length-31 Gold sequence (TS 38.211 clause 5.2.1). -/
def goldStep (x : Nat × Nat) : Nat × Nat :=
  let b := fun v i => v / 2 ^ i % 2
  (x.1 / 2 + ((b x.1 3 + b x.1 0) % 2) * 2 ^ 30, x.2 / 2 + ((b x.2 3 + b x.2 2 + b x.2 1 + b x.2 0) % 2) * 2 ^ 30)

def goldSkip : Nat → Nat × Nat → Nat × Nat
  | 0, x => x
  | n + 1, x => goldSkip n (goldStep x)

def goldBits : Nat → Nat × Nat → List Bool
  | 0, _ => []
  | n + 1, x => ((x.1 + x.2) % 2 == 1) :: goldBits n (goldStep x)

/-- n bits of the sequence of an initial value, from bit `from'` on. -/
def goldFrom (init from' n : Nat) : List Bool := goldBits n (goldSkip (1600 + from') (1, init))

end Sys2Proof.Machine
end

