-- ==== Sys2Proof/Config.lean ====
section
/-! DEFINITION. The values the spec leaves open: opaque constants with no body, applied to the data they depend on or to a
counter of the state. Nothing in Lean can evaluate them. -/

namespace Sys2Proof

/-- The n-th free 64-bit value: data the spec calls undefined. -/
opaque Config.freeWord : Nat → DWord

/-- The n-th free choice of a bounded kind. -/
opaque Config.freeNat : Nat → Nat

/-! ### The engines' arithmetic: functions of the descriptor and its inputs that the spec takes from 3GPP procedures or from
Dunette's reference model (R143, R163) -/

/-- Parity bit i that a systematic part has in an LDPC base graph and lifting size (TS 38.212 clause 5.3.2). -/
opaque Config.ldpcParity : (bg z : Nat) → List Bool → Nat → Bool

/-- Hard decision i of layered min-sum after a number of iterations, from the circular buffer's values (R149, step 6). -/
opaque Config.ldpcHard : (bg z : Nat) → List Int → (iters : Nat) → Nat → Bool

/-- Hard decision i of one of the two constituent max-log-MAP decoders after a number of iterations (R154). -/
opaque Config.turboHard : (k : Nat) → List Int → (iters : Nat) → (second : Bool) → Nat → Bool

/-- Which constituent decoder's hard decisions a turbo block puts out. -/
opaque Config.turboSecond : Bool

/-- Input bit i of path p of the list decoder, and the path's metric, the least the most likely (R153); from the
information and parity-check indices and the mother code's soft values. -/
opaque Config.polarPath : (info pc : List Nat) → List Int → (p i : Nat) → Bool
opaque Config.polarMetric : (info pc : List Nat) → List Int → (p : Nat) → Int

/-- The input interleaver of a polar code beyond the 164 bits of its table. -/
opaque Config.polarIlv : (n k : Nat) → Nat

/-! ### The engines' real arithmetic (R163): the functions no rational gives exactly, and what the reference model's
intermediate precision, which the spec does not give, adds to a formula's exact value -/

/-- exp(j2πx) of x turns. -/
opaque Config.cis : Rat → Rat × Rat

/-- The angle of re + j im, in turns. -/
opaque Config.angle : (re im : Rat) → Rat

opaque Config.sqrt : Rat → Rat

/-- The error of an engine's arithmetic at value n of a kind, a function of the descriptor and its inputs (R163). -/
opaque Config.slip : (desc : Nat) → (input aux : List Byte) → (kind n : Nat) → Rat

/-- The relative error of the digital gain of a step (R166). -/
opaque Config.gainErr : Int → Rat

/-- A field of an output that the spec gives no value: SIGMA2 of a block that is no channel estimate, and what follows the
SINR values in their line (R172). -/
opaque Config.mtxFree : (desc : Nat) → (input aux : List Byte) → (n : Nat) → Byte

/-- PRA takes the Zadoff–Chu sequence itself, not its transform (R182). -/
opaque Config.zcTime : Bool

/-! ### The sample-domain chains (R186 to R189, R199) -/

/-- Tap t, 0 to 30, of the fixed half-band filter (R187, Table 08-2). -/
opaque Config.hbTap : Nat → Rat

/-- The error of a chain's arithmetic in output n of a RUN, by a free number of the run (R189). -/
opaque Config.sdcSlip : (run n : Nat) → Rat × Rat

/-- The error of a power estimate over some samples, in 1/256 dB (R199, Table 08-7). -/
opaque Config.powerErr : List Word → Int

/-! ### The tile coprocessor (Table 04-14) -/

/-- Which exponent above the least one a complex reciprocal takes, and whether its parts are rounded up. -/
opaque Config.crecipE : Word → Nat
opaque Config.crecipUp : Word → Bool × Bool

/-- Which of the angles within 1 LSB ATAN2 answers. -/
opaque Config.atan2Pick : Word → Nat

/-! ### A handover under way (R211) -/

/-- A bank that clears for a handover is in step 4 at a tick. -/
opaque Config.clearing : (bank tick : Nat) → Bool

/-! ### The fronthaul lanes -/

/-- Bit k of the window that a lane's PRBS generator begins with (R295). -/
opaque Config.prbsSeed : (lane start k : Nat) → Bool

/-- Where an injection begins among the bits that follow its write (R296). -/
opaque Config.injAt : (lane tick : Nat) → Nat

/-- SDI in the L1 inband bits of a CPRI link at a tick (R276). -/
opaque Config.cpriSdi : (port tick : Nat) → Bool

/-! ### The supply and the restore list -/

/-- VIN in mV as the millisecond n since power-up is measured with an effective VIN-sense gain (R384, PWR_VIN). -/
opaque Config.vinMv : (ms gain : Nat) → BitVec 16

/-- A register outside the HX block is on the restore list that the boot ROM builds (R364, R425). -/
opaque Config.onRestoreList : (addr : Nat) → Bool

/-! ### The host -/

/-- The host translates an address for the queue engine at a tick (R336). -/
opaque Config.atsOk : (addr tick : Nat) → Bool

/-! ### The flash's SFDP (R431) -/

/-- What the bytes sent to a chip select's flash say by its SFDP, once opcode and address are complete: of a program or
erase command the address, the length erased (none for a program), and how many bytes precede the data. -/
opaque Config.flashCmd : (cs : Nat) → List Byte → Option (Nat × Option Nat × Nat)

/-! ### The digest and the signature of an image (R377, R379) -/

/-- SHA-384 of a byte string. -/
opaque Config.sha384 : List Byte → BitVec 384

/-- An ECDSA signature (r, s) verifies under an uncompressed public key for a digest. -/
opaque Config.sigOk : (key : List Byte) → (digest : BitVec 384) → (r s : List Byte) → Bool

end Sys2Proof
end

