-- ==== Sys2Proof/Machine/Maps.lean ====
section
/-! DEFINITION. The operations of the sparse sorted map: one read, one write that keeps the canonical form, and the
removal of a range of keys (a reset to what an unlisted key reads as). -/

namespace Sys2Proof.Machine

/-- The value at key `k`; `d` says what an unlisted key reads as. -/
def SMap.get {α : Type} (d : Nat → α) : SMap α → Nat → α
  | [], k => d k
  | (k', v) :: m, k => if k = k' then v else if k < k' then d k else SMap.get d m k

/-- What is left after the leading entries of keys up to `k`: all of a map whose keys lie above it. -/
def SMap.above {α : Type} : SMap α → Nat → SMap α
  | [], _ => []
  | (k', v) :: m, k => if k' ≤ k then SMap.above m k else (k', v) :: m

/-- Remove the entry at key `k`, if any. -/
def SMap.erase {α : Type} : SMap α → Nat → SMap α
  | [], _ => []
  | (k', v) :: m, k => if k = k' then SMap.above m k else if k < k' then (k', v) :: m else (k', v) :: SMap.erase m k

/-- Put `v` at key `k`, in key order. -/
def SMap.put {α : Type} : SMap α → Nat → α → SMap α
  | [], k, v => [(k, v)]
  | (k', v') :: m, k, v =>
    if k = k' then (k, v) :: m
    else if k < k' then (k, v) :: (k', v') :: m
    else (k', v') :: SMap.put m k v

/-- Write `v` at key `k`: the entry goes when `v` is what an unlisted key reads as. -/
def SMap.set {α : Type} [DecidableEq α] (d : Nat → α) (m : SMap α) (k : Nat) (v : α) : SMap α :=
  if v = d k then SMap.erase m k else SMap.put m k v

/-- Every key from `lo` up to, but not including, `hi` goes back to what an unlisted key reads as. -/
def SMap.clearRange {α : Type} (m : SMap α) (lo hi : Nat) : SMap α :=
  m.filter fun e => e.1 < lo || hi ≤ e.1

/-- The keys are strictly rising. -/
def SMap.sorted {α : Type} : SMap α → Bool
  | [] => true
  | [_] => true
  | (k, _) :: (k', v') :: m => decide (k < k') && SMap.sorted ((k', v') :: m)

/-- The canonical form: keys strictly rising and no entry equal to what an unlisted key reads as. -/
def SMap.wf {α : Type} [DecidableEq α] (d : Nat → α) (m : SMap α) : Bool :=
  SMap.sorted m && m.all fun e => e.2 ≠ d e.1

end Sys2Proof.Machine
end

