-- ==== Sys2Proof/Machine/RegTable.lean ====
section
/-! DEFINITION. The register map of the SX9064: every register of the spec's register tables with its address, width,
reset value and the access codes of its fields (Table 00-3, R4, R5, R417, R420, R425). -/

namespace Sys2Proof.Machine

/-- The access codes of Table 00-3 (R5). -/
inductive Access where
  | ro | rw | rwl | w1c | w1s | wo | rc
  deriving DecidableEq, Repr

/-- A bit field [hi:lo] of a register or a record (R3). -/
structure Fld where
  hi : Nat
  lo : Nat
  deriving DecidableEq, Repr

/-- One field row of a register table. -/
structure FieldSpec where
  hi : Nat
  lo : Nat
  acc : Access
  deriving DecidableEq, Repr

/-- One register heading: base address, up to two instance strides, width in bits, reset value and fields. -/
structure RegSpec where
  name : String
  base : Nat
  n1 : Nat
  s1 : Nat
  n2 : Nat
  s2 : Nat
  width : Nat
  reset : Nat
  fields : List FieldSpec
  deriving DecidableEq, Repr

/-! ### Register addresses -/

def Addr.devId : Nat := 0x40000000
def Addr.devSerial : Nat := 0x40000008
def Addr.devDieLot (d : Nat) : Nat := 0x40000040 + d * 0x8
def Addr.devDiePos (d : Nat) : Nat := 0x40000060 + d * 0x4
def Addr.devSecure : Nat := 0x40000080
def Addr.devRollbackAdv : Nat := 0x40000084
def Addr.devKeyProg : Nat := 0x40000088
def Addr.devRwlDenyCnt : Nat := 0x400000C0
def Addr.devCalSatCnt : Nat := 0x400000C4
def Addr.devCalRejCnt : Nat := 0x400000C8
def Addr.devAddrErrCnt : Nat := 0x400000CC
def Addr.devTsensOffsFact (k : Nat) : Nat := 0x40000200 + k * 0x10
def Addr.devTsensOffsUser (k : Nat) : Nat := 0x40000204 + k * 0x10
def Addr.devTsensOffsEff (k : Nat) : Nat := 0x40000208 + k * 0x10
def Addr.pwrMode : Nat := 0x40100000
def Addr.pwrClStat : Nat := 0x40100008
def Addr.pwrReq : Nat := 0x40100010
def Addr.pwrReqStat : Nat := 0x40100014
def Addr.pwrWakeReason : Nat := 0x40100020
def Addr.pwrPadCtrl : Nat := 0x40100030
def Addr.pwrVin : Nat := 0x40100040
def Addr.pwrPmbCtrl : Nat := 0x40100050
def Addr.pwrPmbLog : Nat := 0x40100054
def Addr.pwrReqCnt (v : Nat) : Nat := 0x40100100 + v * 0x4
def Addr.pwrRefusedCnt : Nat := 0x40100120
def Addr.pwrWakeFailCnt : Nat := 0x40100124
def Addr.pwrPmbRecoverCnt : Nat := 0x40100128
def Addr.pwrPmbFailCnt : Nat := 0x4010012C
def Addr.pwrWrDenyCnt : Nat := 0x40100130
def Addr.pwrOvDiscCnt : Nat := 0x40100134
def Addr.pwrVsenseGainFact : Nat := 0x40100200
def Addr.pwrVsenseGainUser : Nat := 0x40100204
def Addr.pwrVsenseGainEff : Nat := 0x40100208
def Addr.pwrIsenseGainFact (p : Nat) : Nat := 0x40100400 + p * 0x10
def Addr.pwrIsenseGainUser (p : Nat) : Nat := 0x40100404 + p * 0x10
def Addr.pwrIsenseGainEff (p : Nat) : Nat := 0x40100408 + p * 0x10
def Addr.clkStat : Nat := 0x40200000
def Addr.clkLockLossCnt : Nat := 0x40200010
def Addr.tbNs : Nat := 0x40300000
def Addr.tbFracL : Nat := 0x40300004
def Addr.tbSecL : Nat := 0x40300008
def Addr.tbSet : Nat := 0x40300010
def Addr.tbPtpOffs : Nat := 0x40300018
def Addr.tbServoStat : Nat := 0x40300040
def Addr.tbServoErr : Nat := 0x40300048
def Addr.tbServoFreq : Nat := 0x40300050
def Addr.tbHold : Nat := 0x40300058
def Addr.tbServoP (j : Nat) : Nat := 0x40300080 + j * 0x4
def Addr.tbCapSel : Nat := 0x40300100
def Addr.tbCapSec (k : Nat) : Nat := 0x40300110 + k * 0x10
def Addr.tbCapNs (k : Nat) : Nat := 0x40300118 + k * 0x10
def Addr.tuneDacCode : Nat := 0x40300200
def Addr.tuneDacCfg : Nat := 0x40300204
def Addr.tuneGainFact : Nat := 0x40300210
def Addr.tuneGainUser : Nat := 0x40300214
def Addr.tuneGainEff : Nat := 0x40300218
def Addr.tuneOffsFact : Nat := 0x4030021C
def Addr.tuneOffsUser : Nat := 0x40300220
def Addr.tuneOffsEff : Nat := 0x40300224
def Addr.tbStepDenyCnt : Nat := 0x40300300
def Addr.tbSlewCnt : Nat := 0x40300304
def Addr.tbSrcSwitchCnt : Nat := 0x40300308
def Addr.tbLockLossCnt : Nat := 0x4030030C
def Addr.tbHoldCnt : Nat := 0x40300310
def Addr.tbExpiredCnt : Nat := 0x40300314
def Addr.tbPpsMissCnt : Nat := 0x40300318
def Addr.tbTodErrCnt : Nat := 0x4030031C
def Addr.tbCapOvfCnt : Nat := 0x40300320
def Addr.tbWrDenyCnt : Nat := 0x40300324
def Addr.tuneWrDenyCnt : Nat := 0x40300328
def Addr.ptpTcFwdCnt : Nat := 0x4030032C
def Addr.ptpTcDropCnt : Nat := 0x40300330
def Addr.tbCtxCommitCnt : Nat := 0x40300334
def Addr.tbCtxTornCnt : Nat := 0x40300338
def Addr.tbCtxBadsetCnt : Nat := 0x4030033C
def Addr.tbCtxWrDenyCnt : Nat := 0x40300340
def Addr.tbCtxSh (n : Nat) : Nat := 0x40310000 + n * 0x40
def Addr.tbCtxCommit (n : Nat) : Nat := 0x40310004 + n * 0x40
def Addr.tbCtxAct (n : Nat) : Nat := 0x40310008 + n * 0x40
def Addr.tbCtxPos (n : Nat) : Nat := 0x4031000C + n * 0x40
def Addr.tbCtxNext (n : Nat) : Nat := 0x40310010 + n * 0x40
def Addr.tbLgCommit (g : Nat) : Nat := 0x40320000 + g * 0x4
def Addr.ptpRxdlyFact (l : Nat) (r : Nat) : Nat := 0x40330000 + l * 0x80 + r * 0x4
def Addr.ptpTxdlyFact (l : Nat) (r : Nat) : Nat := 0x40332000 + l * 0x80 + r * 0x4
def Addr.ptpRxdlyUser (l : Nat) : Nat := 0x40334000 + l * 0x10
def Addr.ptpRxdlyEff (l : Nat) : Nat := 0x40334004 + l * 0x10
def Addr.ptpTxdlyUser (l : Nat) : Nat := 0x40334008 + l * 0x10
def Addr.ptpTxdlyEff (l : Nat) : Nat := 0x4033400C + l * 0x10
def Addr.cmpJobs : Nat := 0x40400000
def Addr.cmpStages : Nat := 0x40400004
def Addr.cmpEvtSet : Nat := 0x40400010
def Addr.cmpAccCnt : Nat := 0x40400100
def Addr.cmpRejCnt (v : Nat) : Nat := 0x40400100 + v * 0x4
def Addr.cmpCmplCnt (s : Nat) : Nat := 0x40400140 + s * 0x4
def Addr.cmpLateEvtCnt : Nat := 0x40400180
def Addr.cmpStrayEvtCnt : Nat := 0x40400184
def Addr.cmpDupEvtCnt : Nat := 0x40400188
def Addr.cmpNocqCnt : Nat := 0x4040018C
def Addr.cmpPostOvrCnt : Nat := 0x40400190
def Addr.cmpMissRelCnt : Nat := 0x40400194
def Addr.cmpSelfCancelCnt : Nat := 0x40400198
def Addr.cmpSelfCancelMissCnt : Nat := 0x4040019C
def Addr.cmpHoleCnt : Nat := 0x404001A0
def Addr.cmpQdepth (q : Nat) : Nat := 0x40410000 + q * 0x4
def Addr.cmpBusy (q : Nat) : Nat := 0x40420000 + q * 0x4
def Addr.cmpHistSel : Nat := 0x40430000
def Addr.cmpHist (k : Nat) : Nat := 0x40430010 + k * 0x4
def Addr.cmpCalSel : Nat := 0x40431000
def Addr.cmpCalStamp : Nat := 0x40431008
def Addr.cmpCalFill (j : Nat) : Nat := 0x40431100 + j * 0x4
def Addr.cmpFlowStat (f : Nat) : Nat := 0x40440000 + f * 0x8
def Addr.nocEpochCtrl : Nat := 0x40500000
def Addr.nocEpochStat : Nat := 0x40500004
def Addr.nocBrgSh (b : Nat) : Nat := 0x40500010 + b * 0x4
def Addr.nocBrgAct (b : Nat) : Nat := 0x40500020 + b * 0x4
def Addr.nocWheelAddr : Nat := 0x40500040
def Addr.nocWheelData : Nat := 0x40500044
def Addr.nocFenceStat (d : Nat) : Nat := 0x40500100 + d * 0x4
def Addr.nocErrLog : Nat := 0x40500200
def Addr.nocDataUeCnt : Nat := 0x40500300
def Addr.nocHdrUeCnt : Nat := 0x40500304
def Addr.nocResyncDiscardCnt : Nat := 0x40500308
def Addr.nocCrcErrCnt : Nat := 0x4050030C
def Addr.nocTimeoutCnt : Nat := 0x40500310
def Addr.nocLateRspCnt : Nat := 0x40500314
def Addr.nocFenceRejCnt : Nat := 0x40500318
def Addr.nocFenceDropCnt : Nat := 0x4050031C
def Addr.nocEpochDeferCnt : Nat := 0x40500320
def Addr.nocTornCnt : Nat := 0x40500324
def Addr.nocBadsetCnt : Nat := 0x40500328
def Addr.nocWrDenyCnt : Nat := 0x4050032C
def Addr.nocChordCeCnt : Nat := 0x40500330
def Addr.nocChordUeCnt : Nat := 0x40500334
def Addr.nocRtrCeCnt (r : Nat) : Nat := 0x40501000 + r * 0x4
def Addr.memOwner (c : Nat) (i : Nat) : Nat := 0x40600000 + c * 0x10000 + i * 0x4
def Addr.memBankCfg (c : Nat) (i : Nat) : Nat := 0x40600400 + c * 0x10000 + i * 0x4
def Addr.memScrubCfg (c : Nat) : Nat := 0x40600800 + c * 0x10000
def Addr.memScrubStat (c : Nat) : Nat := 0x40600804 + c * 0x10000
def Addr.memRemap (c : Nat) (e : Nat) : Nat := 0x40600900 + c * 0x10000 + e * 0x4
def Addr.memRemapCand (c : Nat) : Nat := 0x40600980 + c * 0x10000
def Addr.memErrLog (c : Nat) : Nat := 0x40600B00 + c * 0x10000
def Addr.memOwnErrLog (c : Nat) : Nat := 0x40600B08 + c * 0x10000
def Addr.memCeCnt (c : Nat) : Nat := 0x40600A00 + c * 0x10000
def Addr.memUeCnt (c : Nat) : Nat := 0x40600A04 + c * 0x10000
def Addr.memOwnErrCnt (c : Nat) : Nat := 0x40600A08 + c * 0x10000
def Addr.memOwnDenyCnt (c : Nat) : Nat := 0x40600A0C + c * 0x10000
def Addr.memHoCnt (c : Nat) : Nat := 0x40600A10 + c * 0x10000
def Addr.memCollWwCnt (c : Nat) : Nat := 0x40600A14 + c * 0x10000
def Addr.memCollRwCnt (c : Nat) : Nat := 0x40600A18 + c * 0x10000
def Addr.memWbCnt (c : Nat) : Nat := 0x40600A1C + c * 0x10000
def Addr.memTrkEvictCnt (c : Nat) : Nat := 0x40600A20 + c * 0x10000
def Addr.memRemapCandCnt (c : Nat) : Nat := 0x40600A24 + c * 0x10000
def Addr.memRemapInstCnt (c : Nat) : Nat := 0x40600A28 + c * 0x10000
def Addr.memRemapDenyCnt (c : Nat) : Nat := 0x40600A2C + c * 0x10000
def Addr.memScrubAlarmCnt (c : Nat) : Nat := 0x40600A30 + c * 0x10000
def Addr.memScrubPartialCnt (c : Nat) : Nat := 0x40600A34 + c * 0x10000
def Addr.memCfgDenyCnt (c : Nat) : Nat := 0x40600A38 + c * 0x10000
def Addr.dmaSrc (c : Nat) (ch : Nat) : Nat := 0x40800000 + c * 0x10000 + ch * 0x100
def Addr.dmaDst (c : Nat) (ch : Nat) : Nat := 0x40800008 + c * 0x10000 + ch * 0x100
def Addr.dmaCnt (c : Nat) (ch : Nat) : Nat := 0x40800010 + c * 0x10000 + ch * 0x100
def Addr.dmaCtrl (c : Nat) (ch : Nat) : Nat := 0x40800014 + c * 0x10000 + ch * 0x100
def Addr.dmaList (c : Nat) (ch : Nat) : Nat := 0x40800018 + c * 0x10000 + ch * 0x100
def Addr.dmaDoorbell (c : Nat) (ch : Nat) : Nat := 0x40800020 + c * 0x10000 + ch * 0x100
def Addr.dmaStat (c : Nat) (ch : Nat) : Nat := 0x40800024 + c * 0x10000 + ch * 0x100
def Addr.dmaDone (c : Nat) (ch : Nat) : Nat := 0x40800028 + c * 0x10000 + ch * 0x100
def Addr.dmaFaultAddr (c : Nat) (ch : Nat) : Nat := 0x40800030 + c * 0x10000 + ch * 0x100
def Addr.dmaEngStat (c : Nat) : Nat := 0x40801000 + c * 0x10000
def Addr.dmaOutCnt (c : Nat) (v : Nat) : Nat := 0x40801100 + c * 0x10000 + v * 0x4
def Addr.dmaRestartCnt (c : Nat) : Nat := 0x40801130 + c * 0x10000
def Addr.dmaStartDenyCnt (c : Nat) : Nat := 0x40801134 + c * 0x10000
def Addr.dmaWrDenyCnt (c : Nat) : Nat := 0x40801138 + c * 0x10000
def Addr.cceInstStat (j : Nat) : Nat := 0x40A00000 + j * 0x4
def Addr.cceLocks (s : Nat) : Nat := 0x40A00200 + s * 0x4
def Addr.cceDescCnt (k : Nat) : Nat := 0x40A00400 + k * 0x4
def Addr.cceParamErrCnt : Nat := 0x40A00420
def Addr.cceAccessErrCnt : Nat := 0x40A00424
def Addr.cceHaltCnt : Nat := 0x40A00428
def Addr.cceStopCnt : Nat := 0x40A0042C
def Addr.cceCbFailCnt : Nat := 0x40A00430
def Addr.cceTbFailCnt : Nat := 0x40A00434
def Addr.cceEtCnt : Nat := 0x40A00438
def Addr.cceLlrClipCnt : Nat := 0x40A0043C
def Addr.ccePoisonInCnt : Nat := 0x40A00440
def Addr.cceSbLostCnt : Nat := 0x40A00444
def Addr.cceSbMismatchCnt : Nat := 0x40A00448
def Addr.cceSbBusyCnt : Nat := 0x40A0044C
def Addr.mtxInstStat (m : Nat) : Nat := 0x40C00000 + m * 0x4
def Addr.fftInstStat (f : Nat) : Nat := 0x40C00040 + f * 0x4
def Addr.praInstStat (p : Nat) : Nat := 0x40C00080 + p * 0x4
def Addr.praThr (n : Nat) : Nat := 0x40C01000 + n * 0x4
def Addr.mtxDescCnt : Nat := 0x40C00400
def Addr.fftDescCnt : Nat := 0x40C00404
def Addr.praDescCnt : Nat := 0x40C00408
def Addr.mtxParamErrCnt : Nat := 0x40C00410
def Addr.fftParamErrCnt : Nat := 0x40C00414
def Addr.praParamErrCnt : Nat := 0x40C00418
def Addr.mtxAccessErrCnt : Nat := 0x40C00420
def Addr.fftAccessErrCnt : Nat := 0x40C00424
def Addr.praAccessErrCnt : Nat := 0x40C00428
def Addr.mtxHaltCnt : Nat := 0x40C00430
def Addr.fftHaltCnt : Nat := 0x40C00434
def Addr.praHaltCnt : Nat := 0x40C00438
def Addr.mtxStopCnt : Nat := 0x40C00440
def Addr.fftStopCnt : Nat := 0x40C00444
def Addr.praStopCnt : Nat := 0x40C00448
def Addr.mtxPoisonInCnt : Nat := 0x40C00450
def Addr.fftPoisonInCnt : Nat := 0x40C00454
def Addr.praPoisonInCnt : Nat := 0x40C00458
def Addr.mtxSingularCnt : Nat := 0x40C00460
def Addr.mtxToffRangeCnt : Nat := 0x40C00464
def Addr.mtxSatCnt : Nat := 0x40C00468
def Addr.fftSatCnt : Nat := 0x40C00470
def Addr.fftAgcStepCnt : Nat := 0x40C00474
def Addr.fftAgcLowCnt : Nat := 0x40C00478
def Addr.fftAgcBadCnt : Nat := 0x40C0047C
def Addr.praDetCnt : Nat := 0x40C00480
def Addr.sdcShCfg (n : Nat) : Nat := 0x40E00000 + n * 0x40
def Addr.sdcShNco (n : Nat) : Nat := 0x40E00004 + n * 0x40
def Addr.sdcShRs (n : Nat) : Nat := 0x40E00008 + n * 0x40
def Addr.sdcCommit (n : Nat) : Nat := 0x40E0000C + n * 0x40
def Addr.sdcActCfg (n : Nat) : Nat := 0x40E00010 + n * 0x40
def Addr.sdcActNco (n : Nat) : Nat := 0x40E00014 + n * 0x40
def Addr.sdcActRs (n : Nat) : Nat := 0x40E00018 + n * 0x40
def Addr.sdcStat (n : Nat) : Nat := 0x40E0001C + n * 0x40
def Addr.sdcPwr (n : Nat) : Nat := 0x40E00020 + n * 0x40
def Addr.sdcDescCnt : Nat := 0x40E04000
def Addr.sdcParamErrCnt : Nat := 0x40E04004
def Addr.sdcAccessErrCnt : Nat := 0x40E04008
def Addr.sdcCoefBusyCnt : Nat := 0x40E0400C
def Addr.sdcHaltCnt : Nat := 0x40E04010
def Addr.sdcStopCnt : Nat := 0x40E04014
def Addr.sdcGapCnt : Nat := 0x40E04018
def Addr.sdcOutClipCnt : Nat := 0x40E0401C
def Addr.sdcSatCnt : Nat := 0x40E04020
def Addr.sdcPoisonInCnt : Nat := 0x40E04024
def Addr.sdcSwapCnt : Nat := 0x40E04028
def Addr.sdcSwapReplacedCnt : Nat := 0x40E0402C
def Addr.sdcTornCnt : Nat := 0x40E04030
def Addr.sdcBadsetCnt : Nat := 0x40E04034
def Addr.sdcWrDenyCnt : Nat := 0x40E04038
def Addr.laneCfg (l : Nat) : Nat := 0x41000000 + l * 0x1000
def Addr.laneStat (l : Nat) : Nat := 0x41000004 + l * 0x1000
def Addr.laneEqAct (l : Nat) : Nat := 0x41000010 + l * 0x1000
def Addr.laneEqSug (l : Nat) : Nat := 0x41000018 + l * 0x1000
def Addr.laneCharCtrl (l : Nat) : Nat := 0x41000020 + l * 0x1000
def Addr.lanePrbsCtrl (l : Nat) : Nat := 0x41000040 + l * 0x1000
def Addr.lanePrbsUser (l : Nat) : Nat := 0x41000048 + l * 0x1000
def Addr.lanePrbsErr (l : Nat) : Nat := 0x41000050 + l * 0x1000
def Addr.laneLockLossCnt (l : Nat) : Nat := 0x41000080 + l * 0x1000
def Addr.laneCvCnt (l : Nat) : Nat := 0x41000084 + l * 0x1000
def Addr.lanePolFlipCnt (l : Nat) : Nat := 0x41000088 + l * 0x1000
def Addr.laneLosCnt (l : Nat) : Nat := 0x4100008C + l * 0x1000
def Addr.laneFecCeCnt (l : Nat) : Nat := 0x41000090 + l * 0x1000
def Addr.laneFecUeCnt (l : Nat) : Nat := 0x41000094 + l * 0x1000
def Addr.lanePrbsResyncCnt (l : Nat) : Nat := 0x41000098 + l * 0x1000
def Addr.fhPortStat (p : Nat) : Nat := 0x41040000 + p * 0x100
def Addr.fhLqPush (p : Nat) : Nat := 0x41040020 + p * 0x100
def Addr.fhLqStat (p : Nat) : Nat := 0x41040040 + p * 0x100
def Addr.fhLqErrLog : Nat := 0x41080000
def Addr.fhTxFrameCnt (p : Nat) : Nat := 0x41040080 + p * 0x100
def Addr.fhTxLateCnt (p : Nat) : Nat := 0x41040084 + p * 0x100
def Addr.fhTxDownDropCnt (p : Nat) : Nat := 0x41040088 + p * 0x100
def Addr.fhWithdrawnCnt (p : Nat) : Nat := 0x4104008C + p * 0x100
def Addr.fhPoisonWordCnt (p : Nat) : Nat := 0x41040090 + p * 0x100
def Addr.fhArmOwnErrCnt (p : Nat) : Nat := 0x41040094 + p * 0x100
def Addr.fhLqRefuseCnt (p : Nat) : Nat := 0x41040098 + p * 0x100
def Addr.fhRxFrameCnt (p : Nat) : Nat := 0x4104009C + p * 0x100
def Addr.fhRxFcsCnt (p : Nat) : Nat := 0x410400A0 + p * 0x100
def Addr.fhRxTypeCnt (p : Nat) : Nat := 0x410400A4 + p * 0x100
def Addr.fhRxUnknownCnt (p : Nat) : Nat := 0x410400A8 + p * 0x100
def Addr.fhRxEarlyCnt (p : Nat) : Nat := 0x410400AC + p * 0x100
def Addr.fhRxLateCnt (p : Nat) : Nat := 0x410400B0 + p * 0x100
def Addr.fhRxRangeCnt (p : Nat) : Nat := 0x410400B4 + p * 0x100
def Addr.fhRxOwnErrCnt (p : Nat) : Nat := 0x410400B8 + p * 0x100
def Addr.fhRxDupCnt (p : Nat) : Nat := 0x410400BC + p * 0x100
def Addr.fhRxSafeDropCnt (p : Nat) : Nat := 0x410400C0 + p * 0x100
def Addr.fhPortDownCnt (p : Nat) : Nat := 0x410400C4 + p * 0x100
def Addr.hxLinkStat : Nat := 0x41400000
def Addr.hxGraceStat : Nat := 0x41400008
def Addr.hxEvtCause : Nat := 0x41400010
def Addr.hxFwEvt : Nat := 0x41400014
def Addr.hxLossCnt : Nat := 0x41400100
def Addr.hxUnderrateCnt : Nat := 0x41400104
def Addr.hxPerstCnt : Nat := 0x41400108
def Addr.hxDbErrCnt : Nat := 0x4140010C
def Addr.hxFetchErrCnt : Nat := 0x41400110
def Addr.hxCqOvfCnt : Nat := 0x41400114
def Addr.hxLdRecDropCnt : Nat := 0x41400118
def Addr.hxLdDataDropCnt : Nat := 0x4140011C
def Addr.hxWinErrCnt : Nat := 0x41400120
def Addr.hxAtsFailCnt : Nat := 0x41400124
def Addr.hxBar2ErrCnt : Nat := 0x41400128
def Addr.hxCfgDenyCnt : Nat := 0x4140012C
def Addr.hxJqBase (q : Nat) : Nat := 0x41401000 + q * 0x20
def Addr.hxJqCfg (q : Nat) : Nat := 0x41401008 + q * 0x20
def Addr.hxCqBase (q : Nat) : Nat := 0x41402000 + q * 0x20
def Addr.hxCqCfg (q : Nat) : Nat := 0x41402008 + q * 0x20
def Addr.hxJqTail (q : Nat) : Nat := 0x4140100C + q * 0x20
def Addr.hxCqHead (q : Nat) : Nat := 0x4140200C + q * 0x20
def Addr.hxJqHead (q : Nat) : Nat := 0x41401010 + q * 0x20
def Addr.hxCqStat (q : Nat) : Nat := 0x41402010 + q * 0x20
def Addr.hxWinBase (k : Nat) : Nat := 0x41403000 + k * 0x10
def Addr.hxWinLimit (k : Nat) : Nat := 0x41403008 + k * 0x10
def Addr.hxBar2Map (i : Nat) : Nat := 0x41404000 + i * 0x4
def Addr.hxMsixAddr (v : Nat) : Nat := 0x41410000 + v * 0x10
def Addr.hxMsixData (v : Nat) : Nat := 0x41410008 + v * 0x10
def Addr.hxMsixPba (w : Nat) : Nat := 0x41411000 + w * 0x8
def Addr.nvmBootStat : Nat := 0x41800000
def Addr.jnlStat : Nat := 0x41800010
def Addr.jnlCalSave : Nat := 0x41800020
def Addr.nvmWpDenyCnt : Nat := 0x41800100
def Addr.jnlWriteCnt : Nat := 0x41800104
def Addr.jnlCrcSkipCnt : Nat := 0x41800108
def Addr.jnlDropCnt : Nat := 0x4180010C
def Addr.jnlCompactCnt : Nat := 0x41800110
def Addr.plbStat : Nat := 0x41C00000
def Addr.plbCause : Nat := 0x41C00004
def Addr.plbCond : Nat := 0x41C00008
def Addr.plbClear : Nat := 0x41C00010
def Addr.plbWdt (k : Nat) : Nat := 0x41C00020 + k * 0x4
def Addr.plbMask : Nat := 0x41C00040
def Addr.plbMaintStart : Nat := 0x41C00080
def Addr.plbMaintStat (m : Nat) : Nat := 0x41C00090 + m * 0x4
def Addr.plbGpioStat : Nat := 0x41C00100
def Addr.plbTherm : Nat := 0x41C00108
def Addr.plbSafeCnt (r : Nat) : Nat := 0x41C00200 + r * 0x4
def Addr.plbClrDenyCnt : Nat := 0x41C00280
def Addr.plbMaintDenyCnt (m : Nat) : Nat := 0x41C002A0 + m * 0x4
def Addr.plbGpioFaultCnt : Nat := 0x41C002C0
def Addr.plbThermWarnCnt : Nat := 0x41C002C4
def Addr.plbThermAlertCnt : Nat := 0x41C002C8
def Addr.plbLogDropCnt : Nat := 0x41C002CC
def Addr.plbWrDenyCnt : Nat := 0x41C002D0
def Addr.plbSensorExclCnt : Nat := 0x41C002D4
def Addr.tileStat (t : Nat) : Nat := 0x42000000 + t * 0x1000
def Addr.tileCpStat (t : Nat) : Nat := 0x42000004 + t * 0x1000
def Addr.tileExcCnt (t : Nat) : Nat := 0x42000010 + t * 0x1000
def Addr.tileUnhandledCnt (t : Nat) : Nat := 0x42000014 + t * 0x1000
def Addr.tileCpErrCnt (t : Nat) : Nat := 0x42000018 + t * 0x1000
def Addr.tileStendIgnCnt (t : Nat) : Nat := 0x4200001C + t * 0x1000
def Addr.tileStopCnt (t : Nat) : Nat := 0x42000020 + t * 0x1000

/-! ### Field positions -/

/-- The COUNT field of every counter register. -/
def Fld.count : Fld := ⟨31, 0⟩
def Fld.devIdStepping : Fld := ⟨39, 32⟩
def Fld.devIdDevice : Fld := ⟨31, 16⟩
def Fld.devIdVendor : Fld := ⟨15, 0⟩
def Fld.devSerialSerial : Fld := ⟨47, 0⟩
def Fld.devDieLotLot : Fld := ⟨55, 0⟩
def Fld.devDiePosWafer : Fld := ⟨20, 16⟩
def Fld.devDiePosX : Fld := ⟨15, 8⟩
def Fld.devDiePosY : Fld := ⟨7, 0⟩
def Fld.devSecureSecure : Fld := ⟨31, 31⟩
def Fld.devSecureRollback : Fld := ⟨14, 8⟩
def Fld.devSecureSecVer : Fld := ⟨6, 0⟩
def Fld.devRollbackAdvGo : Fld := ⟨31, 31⟩
def Fld.devKeyProgGo : Fld := ⟨31, 31⟩
def Fld.devKeyProgLock : Fld := ⟨30, 30⟩
def Fld.devKeyProgIndex : Fld := ⟨21, 16⟩
def Fld.devKeyProgValue : Fld := ⟨7, 0⟩
def Fld.devTsensOffsFactValue : Fld := ⟨15, 0⟩
def Fld.devTsensOffsUserValue : Fld := ⟨15, 0⟩
def Fld.devTsensOffsEffValue : Fld := ⟨15, 0⟩
def Fld.pwrModeMode : Fld := ⟨31, 28⟩
def Fld.pwrModePrev : Fld := ⟨27, 24⟩
def Fld.pwrModeColdDeep : Fld := ⟨23, 23⟩
def Fld.pwrClStatSleep : Fld := ⟨55, 32⟩
def Fld.pwrClStatIdle : Fld := ⟨23, 0⟩
def Fld.pwrReqGo : Fld := ⟨31, 31⟩
def Fld.pwrReqTarget : Fld := ⟨30, 28⟩
def Fld.pwrReqWakeMs : Fld := ⟨15, 0⟩
def Fld.pwrReqStatBusy : Fld := ⟨31, 31⟩
def Fld.pwrReqStatOutcome : Fld := ⟨27, 24⟩
def Fld.pwrReqStatVoter : Fld := ⟨21, 16⟩
def Fld.pwrReqStatBackoff : Fld := ⟨15, 0⟩
def Fld.pwrWakeReasonWakeFailReg : Fld := ⟨31, 31⟩
def Fld.pwrWakeReasonLastEntry : Fld := ⟨11, 8⟩
def Fld.pwrWakeReasonReason : Fld := ⟨3, 0⟩
def Fld.pwrPadCtrlHeld : Fld := ⟨1, 1⟩
def Fld.pwrPadCtrlPadHoldRelease : Fld := ⟨0, 0⟩
def Fld.pwrVinPfail : Fld := ⟨31, 31⟩
def Fld.pwrVinOvw : Fld := ⟨30, 30⟩
def Fld.pwrVinMv : Fld := ⟨15, 0⟩
def Fld.pwrPmbCtrlGo : Fld := ⟨31, 31⟩
def Fld.pwrPmbCtrlMargin : Fld := ⟨30, 29⟩
def Fld.pwrPmbCtrlResult : Fld := ⟨25, 24⟩
def Fld.pwrPmbCtrlPolicy : Fld := ⟨1, 0⟩
def Fld.pwrPmbLogValid : Fld := ⟨31, 31⟩
def Fld.pwrPmbLogStatusWord : Fld := ⟨15, 0⟩
def Fld.pwrVsenseGainFactValue : Fld := ⟨15, 0⟩
def Fld.pwrVsenseGainUserValue : Fld := ⟨15, 0⟩
def Fld.pwrVsenseGainEffValue : Fld := ⟨15, 0⟩
def Fld.pwrIsenseGainFactValue : Fld := ⟨15, 0⟩
def Fld.pwrIsenseGainUserValue : Fld := ⟨15, 0⟩
def Fld.pwrIsenseGainEffValue : Fld := ⟨15, 0⟩
def Fld.clkStatLocked : Fld := ⟨31, 31⟩
def Fld.clkStatOnBkosc : Fld := ⟨30, 30⟩
def Fld.clkStatRefclk : Fld := ⟨29, 28⟩
def Fld.clkStatRefCount : Fld := ⟨15, 0⟩
def Fld.tbNsNs : Fld := ⟨29, 0⟩
def Fld.tbFracLFrac : Fld := ⟨15, 0⟩
def Fld.tbSecLSec : Fld := ⟨47, 0⟩
def Fld.tbSetGo : Fld := ⟨63, 63⟩
def Fld.tbSetSec : Fld := ⟨47, 0⟩
def Fld.tbPtpOffsOffs : Fld := ⟨63, 0⟩
def Fld.tbServoStatState : Fld := ⟨31, 29⟩
def Fld.tbServoStatSrc : Fld := ⟨28, 27⟩
def Fld.tbServoStatHybrid : Fld := ⟨26, 26⟩
def Fld.tbServoStatTimeValid : Fld := ⟨25, 25⟩
def Fld.tbServoStatSePort : Fld := ⟨21, 16⟩
def Fld.tbServoErrErr : Fld := ⟨63, 0⟩
def Fld.tbServoFreqFreq : Fld := ⟨47, 0⟩
def Fld.tbHoldElapsed : Fld := ⟨31, 0⟩
def Fld.tbServoPValue : Fld := ⟨31, 0⟩
def Fld.tbCapSelCh4 : Fld := ⟨31, 24⟩
def Fld.tbCapSelCh3 : Fld := ⟨23, 16⟩
def Fld.tbCapSelCh2 : Fld := ⟨15, 8⟩
def Fld.tbCapSelCh1 : Fld := ⟨7, 0⟩
def Fld.tbCapSecValid : Fld := ⟨63, 63⟩
def Fld.tbCapSecOvf : Fld := ⟨62, 62⟩
def Fld.tbCapSecSec : Fld := ⟨47, 0⟩
def Fld.tbCapNsNs : Fld := ⟨45, 16⟩
def Fld.tbCapNsFrac : Fld := ⟨15, 0⟩
def Fld.tuneDacCodePend : Fld := ⟨31, 31⟩
def Fld.tuneDacCodeHiz : Fld := ⟨30, 30⟩
def Fld.tuneDacCodeSafe : Fld := ⟨29, 29⟩
def Fld.tuneDacCodeCode : Fld := ⟨19, 0⟩
def Fld.tuneDacCfgExtref : Fld := ⟨1, 1⟩
def Fld.tuneDacCfgGain2 : Fld := ⟨0, 0⟩
def Fld.tuneGainFactValue : Fld := ⟨15, 0⟩
def Fld.tuneGainUserValue : Fld := ⟨15, 0⟩
def Fld.tuneGainEffValue : Fld := ⟨15, 0⟩
def Fld.tuneOffsFactValue : Fld := ⟨15, 0⟩
def Fld.tuneOffsUserValue : Fld := ⟨15, 0⟩
def Fld.tuneOffsEffValue : Fld := ⟨15, 0⟩
def Fld.tbCtxShProfile : Fld := ⟨2, 0⟩
def Fld.tbCtxCommitBadset : Fld := ⟨2, 2⟩
def Fld.tbCtxCommitTorn : Fld := ⟨1, 1⟩
def Fld.tbCtxCommitCommit : Fld := ⟨0, 0⟩
def Fld.tbCtxActEnabled : Fld := ⟨31, 31⟩
def Fld.tbCtxActGrouped : Fld := ⟨30, 30⟩
def Fld.tbCtxActLg : Fld := ⟨29, 26⟩
def Fld.tbCtxActMu : Fld := ⟨25, 24⟩
def Fld.tbCtxActEcp : Fld := ⟨23, 23⟩
def Fld.tbCtxActProfile : Fld := ⟨18, 16⟩
def Fld.tbCtxActCommits : Fld := ⟨15, 0⟩
def Fld.tbCtxPosSfn : Fld := ⟨25, 16⟩
def Fld.tbCtxPosSlot : Fld := ⟨6, 0⟩
def Fld.tbCtxNextTime : Fld := ⟨63, 0⟩
def Fld.tbLgCommitBadset : Fld := ⟨2, 2⟩
def Fld.tbLgCommitTorn : Fld := ⟨1, 1⟩
def Fld.tbLgCommitCommit : Fld := ⟨0, 0⟩
def Fld.ptpRxdlyFactValue : Fld := ⟨15, 0⟩
def Fld.ptpTxdlyFactValue : Fld := ⟨15, 0⟩
def Fld.ptpRxdlyUserValue : Fld := ⟨15, 0⟩
def Fld.ptpRxdlyEffValue : Fld := ⟨15, 0⟩
def Fld.ptpTxdlyUserValue : Fld := ⟨15, 0⟩
def Fld.ptpTxdlyEffValue : Fld := ⟨15, 0⟩
def Fld.cmpJobsPeak : Fld := ⟨27, 16⟩
def Fld.cmpJobsCur : Fld := ⟨11, 0⟩
def Fld.cmpStagesPeak : Fld := ⟨30, 16⟩
def Fld.cmpStagesCur : Fld := ⟨14, 0⟩
def Fld.cmpEvtSetTagLo : Fld := ⟨31, 16⟩
def Fld.cmpEvtSetHevt : Fld := ⟨13, 11⟩
def Fld.cmpEvtSetJobHandle : Fld := ⟨10, 0⟩
def Fld.cmpQdepthPeak : Fld := ⟨31, 16⟩
def Fld.cmpQdepthCur : Fld := ⟨15, 0⟩
def Fld.cmpBusyUnits : Fld := ⟨31, 0⟩
def Fld.cmpHistSelSnap : Fld := ⟨31, 31⟩
def Fld.cmpHistSelInst : Fld := ⟨9, 0⟩
def Fld.cmpHistCount : Fld := ⟨31, 0⟩
def Fld.cmpCalSelGo : Fld := ⟨31, 31⟩
def Fld.cmpCalSelInst : Fld := ⟨28, 19⟩
def Fld.cmpCalSelStart : Fld := ⟨18, 7⟩
def Fld.cmpCalSelCount : Fld := ⟨6, 0⟩
def Fld.cmpCalStampBin : Fld := ⟨63, 0⟩
def Fld.cmpCalFillFill : Fld := ⟨23, 0⟩
def Fld.cmpFlowStatHeadSeq : Fld := ⟨63, 48⟩
def Fld.cmpFlowStatTailSeq : Fld := ⟨47, 32⟩
def Fld.cmpFlowStatOpen : Fld := ⟨22, 14⟩
def Fld.cmpFlowStatDirValid : Fld := ⟨9, 9⟩
def Fld.cmpFlowStatDir : Fld := ⟨8, 8⟩
def Fld.nocEpochCtrlBadset : Fld := ⟨2, 2⟩
def Fld.nocEpochCtrlTorn : Fld := ⟨1, 1⟩
def Fld.nocEpochCtrlCommit : Fld := ⟨0, 0⟩
def Fld.nocEpochStatDraining : Fld := ⟨31, 31⟩
def Fld.nocEpochStatEpoch : Fld := ⟨30, 30⟩
def Fld.nocEpochStatOldPkts : Fld := ⟨15, 0⟩
def Fld.nocBrgShEn : Fld := ⟨23, 0⟩
def Fld.nocBrgActEn : Fld := ⟨23, 0⟩
def Fld.nocWheelAddrBank : Fld := ⟨31, 31⟩
def Fld.nocWheelAddrRouter : Fld := ⟨30, 24⟩
def Fld.nocWheelAddrPort : Fld := ⟨23, 20⟩
def Fld.nocWheelAddrSlot : Fld := ⟨7, 0⟩
def Fld.nocWheelDataValid : Fld := ⟨15, 15⟩
def Fld.nocWheelDataFlow : Fld := ⟨11, 0⟩
def Fld.nocFenceStatFenced : Fld := ⟨31, 31⟩
def Fld.nocFenceStatDrained : Fld := ⟨30, 30⟩
def Fld.nocFenceStatAdmitted : Fld := ⟨15, 0⟩
def Fld.nocErrLogValid : Fld := ⟨63, 63⟩
def Fld.nocErrLogOvf : Fld := ⟨62, 62⟩
def Fld.nocErrLogRing : Fld := ⟨61, 61⟩
def Fld.nocErrLogType : Fld := ⟨60, 58⟩
def Fld.nocErrLogRouter : Fld := ⟨57, 51⟩
def Fld.nocErrLogPort : Fld := ⟨50, 47⟩
def Fld.nocErrLogSrcId : Fld := ⟨15, 0⟩
def Fld.memOwnerPending : Fld := ⟨31, 31⟩
def Fld.memOwnerClearing : Fld := ⟨30, 30⟩
def Fld.memOwnerKind : Fld := ⟨15, 12⟩
def Fld.memOwnerIndex : Fld := ⟨11, 0⟩
def Fld.memBankCfgRepaired : Fld := ⟨11, 8⟩
def Fld.memBankCfgCrit : Fld := ⟨4, 4⟩
def Fld.memBankCfgRetain : Fld := ⟨3, 3⟩
def Fld.memBankCfgClrHo : Fld := ⟨2, 2⟩
def Fld.memBankCfgCode : Fld := ⟨1, 0⟩
def Fld.memScrubCfgMaxLap : Fld := ⟨31, 16⟩
def Fld.memScrubCfgEn : Fld := ⟨0, 0⟩
def Fld.memScrubStatPartial : Fld := ⟨31, 31⟩
def Fld.memScrubStatAlarm : Fld := ⟨30, 30⟩
def Fld.memScrubStatLapUs : Fld := ⟨23, 0⟩
def Fld.memRemapValid : Fld := ⟨31, 31⟩
def Fld.memRemapBank : Fld := ⟨20, 13⟩
def Fld.memRemapWord : Fld := ⟨12, 0⟩
def Fld.memRemapCandValid : Fld := ⟨31, 31⟩
def Fld.memRemapCandOvf : Fld := ⟨30, 30⟩
def Fld.memRemapCandBank : Fld := ⟨20, 13⟩
def Fld.memRemapCandWord : Fld := ⟨12, 0⟩
def Fld.memErrLogValid : Fld := ⟨63, 63⟩
def Fld.memErrLogOvf : Fld := ⟨62, 62⟩
def Fld.memErrLogCode : Fld := ⟨61, 60⟩
def Fld.memErrLogBank : Fld := ⟨51, 44⟩
def Fld.memErrLogWord : Fld := ⟨43, 31⟩
def Fld.memErrLogKind : Fld := ⟨15, 12⟩
def Fld.memErrLogIndex : Fld := ⟨11, 0⟩
def Fld.memOwnErrLogValid : Fld := ⟨31, 31⟩
def Fld.memOwnErrLogWrite : Fld := ⟨30, 30⟩
def Fld.memOwnErrLogBank : Fld := ⟨23, 16⟩
def Fld.memOwnErrLogKind : Fld := ⟨15, 12⟩
def Fld.memOwnErrLogIndex : Fld := ⟨11, 0⟩
def Fld.dmaSrcAddr : Fld := ⟨47, 0⟩
def Fld.dmaDstAddr : Fld := ⟨47, 0⟩
def Fld.dmaCntCount : Fld := ⟨23, 0⟩
def Fld.dmaCtrlStart : Fld := ⟨31, 31⟩
def Fld.dmaCtrlIen : Fld := ⟨17, 17⟩
def Fld.dmaCtrlMode : Fld := ⟨16, 16⟩
def Fld.dmaCtrlEvtEn : Fld := ⟨15, 15⟩
def Fld.dmaCtrlEvtFlag : Fld := ⟨12, 8⟩
def Fld.dmaCtrlEvtStage : Fld := ⟨5, 0⟩
def Fld.dmaListAddr : Fld := ⟨47, 4⟩
def Fld.dmaDoorbellCount : Fld := ⟨31, 16⟩
def Fld.dmaDoorbellSeen : Fld := ⟨15, 1⟩
def Fld.dmaDoorbellRing : Fld := ⟨0, 0⟩
def Fld.dmaStatState : Fld := ⟨31, 29⟩
def Fld.dmaStatIntPend : Fld := ⟨28, 28⟩
def Fld.dmaStatOutcome : Fld := ⟨27, 24⟩
def Fld.dmaStatEntry : Fld := ⟨15, 0⟩
def Fld.dmaDoneValid : Fld := ⟨63, 63⟩
def Fld.dmaDoneBytes : Fld := ⟨47, 0⟩
def Fld.dmaFaultAddrValid : Fld := ⟨63, 63⟩
def Fld.dmaFaultAddrAddr : Fld := ⟨47, 0⟩
def Fld.dmaEngStatStopped : Fld := ⟨31, 31⟩
def Fld.dmaEngStatFailCh : Fld := ⟨19, 16⟩
def Fld.dmaEngStatBusy : Fld := ⟨15, 0⟩
def Fld.cceInstStatState : Fld := ⟨31, 30⟩
def Fld.cceInstStatStage : Fld := ⟨29, 24⟩
def Fld.cceInstStatJobHandle : Fld := ⟨20, 10⟩
def Fld.cceInstStatLastStatus : Fld := ⟨7, 0⟩
def Fld.cceLocksPeak : Fld := ⟨22, 16⟩
def Fld.cceLocksCur : Fld := ⟨6, 0⟩
def Fld.mtxInstStatState : Fld := ⟨31, 30⟩
def Fld.mtxInstStatStage : Fld := ⟨29, 24⟩
def Fld.mtxInstStatJobHandle : Fld := ⟨20, 10⟩
def Fld.mtxInstStatLastStatus : Fld := ⟨7, 0⟩
def Fld.fftInstStatState : Fld := ⟨31, 30⟩
def Fld.fftInstStatStage : Fld := ⟨29, 24⟩
def Fld.fftInstStatJobHandle : Fld := ⟨20, 10⟩
def Fld.fftInstStatLastStatus : Fld := ⟨7, 0⟩
def Fld.praInstStatState : Fld := ⟨31, 30⟩
def Fld.praInstStatStage : Fld := ⟨29, 24⟩
def Fld.praInstStatJobHandle : Fld := ⟨20, 10⟩
def Fld.praInstStatLastStatus : Fld := ⟨7, 0⟩
def Fld.praThrTq : Fld := ⟨25, 16⟩
def Fld.praThrTe : Fld := ⟨9, 0⟩
def Fld.sdcShCfgSyncRst : Fld := ⟨31, 31⟩
def Fld.sdcShCfgRsEn : Fld := ⟨30, 30⟩
def Fld.sdcShCfgHb : Fld := ⟨28, 26⟩
def Fld.sdcShCfgSwapReq : Fld := ⟨25, 25⟩
def Fld.sdcShCfgSwapTgt : Fld := ⟨24, 24⟩
def Fld.sdcShCfgFadeLen : Fld := ⟨12, 0⟩
def Fld.sdcShNcoNcoInc : Fld := ⟨31, 0⟩
def Fld.sdcShRsRsInc : Fld := ⟨31, 0⟩
def Fld.sdcCommitBadset : Fld := ⟨2, 2⟩
def Fld.sdcCommitTorn : Fld := ⟨1, 1⟩
def Fld.sdcCommitCommit : Fld := ⟨0, 0⟩
def Fld.sdcActCfgSyncRst : Fld := ⟨31, 31⟩
def Fld.sdcActCfgRsEn : Fld := ⟨30, 30⟩
def Fld.sdcActCfgHb : Fld := ⟨28, 26⟩
def Fld.sdcActCfgSwapTgt : Fld := ⟨24, 24⟩
def Fld.sdcActCfgFadeLen : Fld := ⟨12, 0⟩
def Fld.sdcActNcoNcoInc : Fld := ⟨31, 0⟩
def Fld.sdcActRsRsInc : Fld := ⟨31, 0⟩
def Fld.sdcStatActive : Fld := ⟨31, 31⟩
def Fld.sdcStatFading : Fld := ⟨30, 30⟩
def Fld.sdcStatQueued : Fld := ⟨29, 29⟩
def Fld.sdcStatQueuedTgt : Fld := ⟨28, 28⟩
def Fld.sdcStatFadeLeft : Fld := ⟨27, 15⟩
def Fld.sdcStatCoarseValid : Fld := ⟨14, 14⟩
def Fld.sdcStatFineValid : Fld := ⟨13, 13⟩
def Fld.sdcStatFillLeft : Fld := ⟨12, 0⟩
def Fld.sdcPwrCoarseDb : Fld := ⟨31, 16⟩
def Fld.sdcPwrFineDb : Fld := ⟨15, 0⟩
def Fld.laneCfgRate : Fld := ⟨15, 8⟩
def Fld.laneCfgTxInv : Fld := ⟨7, 7⟩
def Fld.laneCfgPll : Fld := ⟨6, 6⟩
def Fld.laneCfgPort : Fld := ⟨5, 0⟩
def Fld.laneStatState : Fld := ⟨31, 29⟩
def Fld.laneStatLos : Fld := ⟨28, 28⟩
def Fld.laneStatRxInv : Fld := ⟨27, 27⟩
def Fld.laneStatAlign : Fld := ⟨15, 0⟩
def Fld.laneEqActDfe3 : Fld := ⟨63, 56⟩
def Fld.laneEqActDfe2 : Fld := ⟨55, 48⟩
def Fld.laneEqActDfe1 : Fld := ⟨47, 40⟩
def Fld.laneEqActCtle : Fld := ⟨39, 32⟩
def Fld.laneEqActPost1 : Fld := ⟨31, 24⟩
def Fld.laneEqActMain : Fld := ⟨23, 16⟩
def Fld.laneEqActPre1 : Fld := ⟨15, 8⟩
def Fld.laneEqActPre2 : Fld := ⟨7, 0⟩
def Fld.laneEqSugDfe3 : Fld := ⟨63, 56⟩
def Fld.laneEqSugDfe2 : Fld := ⟨55, 48⟩
def Fld.laneEqSugDfe1 : Fld := ⟨47, 40⟩
def Fld.laneEqSugCtle : Fld := ⟨39, 32⟩
def Fld.laneEqSugPost1 : Fld := ⟨31, 24⟩
def Fld.laneEqSugMain : Fld := ⟨23, 16⟩
def Fld.laneEqSugPre1 : Fld := ⟨15, 8⟩
def Fld.laneEqSugPre2 : Fld := ⟨7, 0⟩
def Fld.laneCharCtrlGo : Fld := ⟨31, 31⟩
def Fld.laneCharCtrlValid : Fld := ⟨30, 30⟩
def Fld.laneCharCtrlEyeH : Fld := ⟨15, 8⟩
def Fld.laneCharCtrlEyeW : Fld := ⟨7, 0⟩
def Fld.lanePrbsCtrlGenEn : Fld := ⟨31, 31⟩
def Fld.lanePrbsCtrlChkEn : Fld := ⟨30, 30⟩
def Fld.lanePrbsCtrlPattern : Fld := ⟨29, 27⟩
def Fld.lanePrbsCtrlInjOne : Fld := ⟨26, 26⟩
def Fld.lanePrbsCtrlInjBurst : Fld := ⟨25, 25⟩
def Fld.lanePrbsCtrlBurstLen : Fld := ⟨6, 0⟩
def Fld.lanePrbsUserPattern : Fld := ⟨63, 0⟩
def Fld.lanePrbsErrLock : Fld := ⟨63, 63⟩
def Fld.lanePrbsErrErr : Fld := ⟨47, 0⟩
def Fld.fhPortStatUp : Fld := ⟨31, 31⟩
def Fld.fhPortStatCpriState : Fld := ⟨30, 28⟩
def Fld.fhPortStatType : Fld := ⟨27, 24⟩
def Fld.fhPortStatArmed : Fld := ⟨12, 0⟩
def Fld.fhLqPushEntry : Fld := ⟨255, 0⟩
def Fld.fhLqStatPeak : Fld := ⟨31, 16⟩
def Fld.fhLqStatCur : Fld := ⟨12, 0⟩
def Fld.fhLqErrLogValid : Fld := ⟨63, 63⟩
def Fld.fhLqErrLogOvf : Fld := ⟨62, 62⟩
def Fld.fhLqErrLogPort : Fld := ⟨61, 56⟩
def Fld.fhLqErrLogReason : Fld := ⟨55, 52⟩
def Fld.fhLqErrLogJobHandle : Fld := ⟨26, 16⟩
def Fld.fhLqErrLogKind : Fld := ⟨15, 12⟩
def Fld.fhLqErrLogIndex : Fld := ⟨11, 0⟩
def Fld.hxLinkStatUp : Fld := ⟨31, 31⟩
def Fld.hxLinkStatCxl : Fld := ⟨30, 30⟩
def Fld.hxLinkStatUnderrate : Fld := ⟨29, 29⟩
def Fld.hxLinkStatRate : Fld := ⟨28, 26⟩
def Fld.hxLinkStatWidth : Fld := ⟨25, 21⟩
def Fld.hxLinkStatReversed : Fld := ⟨20, 20⟩
def Fld.hxLinkStatAtsEn : Fld := ⟨19, 19⟩
def Fld.hxLinkStatHxLink : Fld := ⟨15, 0⟩
def Fld.hxGraceStatRunning : Fld := ⟨31, 31⟩
def Fld.hxGraceStatRemainMs : Fld := ⟨15, 0⟩
def Fld.hxEvtCauseCause : Fld := ⟨15, 0⟩
def Fld.hxFwEvtSet : Fld := ⟨1, 0⟩
def Fld.hxJqBaseAddr : Fld := ⟨43, 0⟩
def Fld.hxJqCfgEn : Fld := ⟨31, 31⟩
def Fld.hxJqCfgSize : Fld := ⟨12, 0⟩
def Fld.hxCqBaseAddr : Fld := ⟨43, 0⟩
def Fld.hxCqCfgEn : Fld := ⟨31, 31⟩
def Fld.hxCqCfgSize : Fld := ⟨12, 0⟩
def Fld.hxJqTailIndex : Fld := ⟨11, 0⟩
def Fld.hxCqHeadIndex : Fld := ⟨11, 0⟩
def Fld.hxJqHeadIndex : Fld := ⟨11, 0⟩
def Fld.hxCqStatPhase : Fld := ⟨31, 31⟩
def Fld.hxCqStatOvf : Fld := ⟨30, 30⟩
def Fld.hxCqStatIndex : Fld := ⟨11, 0⟩
def Fld.hxWinBaseEn : Fld := ⟨63, 63⟩
def Fld.hxWinBaseWr : Fld := ⟨62, 62⟩
def Fld.hxWinBaseRd : Fld := ⟨61, 61⟩
def Fld.hxWinBaseAddr : Fld := ⟨43, 12⟩
def Fld.hxWinLimitAddr : Fld := ⟨43, 12⟩
def Fld.hxBar2MapValid : Fld := ⟨31, 31⟩
def Fld.hxBar2MapBlock : Fld := ⟨12, 8⟩
def Fld.hxBar2MapBank : Fld := ⟨7, 0⟩
def Fld.hxMsixAddrAddr : Fld := ⟨63, 2⟩
def Fld.hxMsixDataMask : Fld := ⟨32, 32⟩
def Fld.hxMsixDataData : Fld := ⟨31, 0⟩
def Fld.hxMsixPbaPend : Fld := ⟨63, 0⟩
def Fld.nvmBootStatCs : Fld := ⟨31, 31⟩
def Fld.nvmBootStatSlot : Fld := ⟨30, 30⟩
def Fld.nvmBootStatMode : Fld := ⟨29, 28⟩
def Fld.nvmBootStatModeFb : Fld := ⟨27, 27⟩
def Fld.nvmBootStatCause : Fld := ⟨15, 0⟩
def Fld.jnlStatArea : Fld := ⟨31, 31⟩
def Fld.jnlStatCompacting : Fld := ⟨30, 30⟩
def Fld.jnlStatUsed : Fld := ⟨17, 0⟩
def Fld.jnlCalSaveGo : Fld := ⟨31, 31⟩
def Fld.jnlCalSaveItem : Fld := ⟨23, 16⟩
def Fld.jnlCalSaveIndex : Fld := ⟨15, 0⟩
def Fld.plbStatSafe : Fld := ⟨31, 31⟩
def Fld.plbStatFirst : Fld := ⟨21, 16⟩
def Fld.plbStatTjMax : Fld := ⟨7, 0⟩
def Fld.plbCauseReason : Fld := ⟨16, 1⟩
def Fld.plbCondReason : Fld := ⟨16, 1⟩
def Fld.plbClearGo : Fld := ⟨31, 31⟩
def Fld.plbClearResult : Fld := ⟨1, 0⟩
def Fld.plbWdtEn : Fld := ⟨31, 31⟩
def Fld.plbWdtKick : Fld := ⟨7, 0⟩
def Fld.plbMaskSafeNMask : Fld := ⟨0, 0⟩
def Fld.plbMaintStartGo : Fld := ⟨31, 31⟩
def Fld.plbMaintStartId : Fld := ⟨26, 24⟩
def Fld.plbMaintStartTarget : Fld := ⟨12, 0⟩
def Fld.plbMaintStatRunning : Fld := ⟨31, 31⟩
def Fld.plbMaintStatBy : Fld := ⟨30, 28⟩
def Fld.plbMaintStatResult : Fld := ⟨27, 24⟩
def Fld.plbMaintStatStart : Fld := ⟨23, 20⟩
def Fld.plbMaintStatDetail : Fld := ⟨15, 0⟩
def Fld.plbGpioStatGpioFault : Fld := ⟨31, 0⟩
def Fld.plbThermAlert : Fld := ⟨31, 31⟩
def Fld.plbThermWarn : Fld := ⟨30, 30⟩
def Fld.plbThermExcluded : Fld := ⟨19, 0⟩
def Fld.tileStatState : Fld := ⟨31, 30⟩
def Fld.tileStatStage : Fld := ⟨29, 24⟩
def Fld.tileStatJobHandle : Fld := ⟨20, 10⟩
def Fld.tileStatLastCause : Fld := ⟨7, 0⟩
def Fld.tileCpStatState : Fld := ⟨31, 30⟩
def Fld.tileCpStatStage : Fld := ⟨29, 24⟩
def Fld.tileCpStatJobHandle : Fld := ⟨20, 10⟩

/-! ### The register tables, block by block (Table 18-2) -/

def regsDev0 : List RegSpec :=
  [⟨"DEV_ID", 0x40000000, 1, 0x0, 1, 0x0, 64, 0xb190641f6a,
      [⟨39, 32, .ro⟩, ⟨31, 16, .ro⟩, ⟨15, 0, .ro⟩]⟩,
   ⟨"DEV_SERIAL", 0x40000008, 1, 0x0, 1, 0x0, 64, 0x0,
      [⟨47, 0, .ro⟩]⟩,
   ⟨"DEV_DIE_LOT", 0x40000040, 4, 0x8, 1, 0x0, 64, 0x0,
      [⟨55, 0, .ro⟩]⟩,
   ⟨"DEV_DIE_POS", 0x40000060, 4, 0x4, 1, 0x0, 32, 0x0,
      [⟨20, 16, .ro⟩, ⟨15, 8, .ro⟩, ⟨7, 0, .ro⟩]⟩,
   ⟨"DEV_SECURE", 0x40000080, 1, 0x0, 1, 0x0, 32, 0x0,
      [⟨31, 31, .ro⟩, ⟨14, 8, .ro⟩, ⟨6, 0, .ro⟩]⟩,
   ⟨"DEV_ROLLBACK_ADV", 0x40000084, 1, 0x0, 1, 0x0, 32, 0x0,
      [⟨31, 31, .wo⟩]⟩,
   ⟨"DEV_KEY_PROG", 0x40000088, 1, 0x0, 1, 0x0, 32, 0x0,
      [⟨31, 31, .wo⟩, ⟨30, 30, .wo⟩, ⟨21, 16, .rw⟩, ⟨7, 0, .rw⟩]⟩,
   ⟨"DEV_RWL_DENY_CNT", 0x400000C0, 1, 0x0, 1, 0x0, 32, 0x0,
      [⟨31, 0, .rc⟩]⟩,
   ⟨"DEV_CAL_SAT_CNT", 0x400000C4, 1, 0x0, 1, 0x0, 32, 0x0,
      [⟨31, 0, .rc⟩]⟩,
   ⟨"DEV_CAL_REJ_CNT", 0x400000C8, 1, 0x0, 1, 0x0, 32, 0x0,
      [⟨31, 0, .rc⟩]⟩,
   ⟨"DEV_ADDR_ERR_CNT", 0x400000CC, 1, 0x0, 1, 0x0, 32, 0x0,
      [⟨31, 0, .rc⟩]⟩,
   ⟨"DEV_TSENS_OFFS_FACT", 0x40000200, 20, 0x10, 1, 0x0, 32, 0x0,
      [⟨15, 0, .ro⟩]⟩]

def regsDev1 : List RegSpec :=
  [⟨"DEV_TSENS_OFFS_USER", 0x40000204, 20, 0x10, 1, 0x0, 32, 0x0,
      [⟨15, 0, .rwl⟩]⟩,
   ⟨"DEV_TSENS_OFFS_EFF", 0x40000208, 20, 0x10, 1, 0x0, 32, 0x0,
      [⟨15, 0, .ro⟩]⟩]

def regsDev : List RegSpec := regsDev0 ++ regsDev1

def regsPwr0 : List RegSpec :=
  [⟨"PWR_MODE", 0x40100000, 1, 0x0, 1, 0x0, 32, 0x50000000,
      [⟨31, 28, .ro⟩, ⟨27, 24, .ro⟩, ⟨23, 23, .ro⟩]⟩,
   ⟨"PWR_CL_STAT", 0x40100008, 1, 0x0, 1, 0x0, 64, 0x0,
      [⟨55, 32, .ro⟩, ⟨23, 0, .ro⟩]⟩,
   ⟨"PWR_REQ", 0x40100010, 1, 0x0, 1, 0x0, 32, 0x0,
      [⟨31, 31, .wo⟩, ⟨30, 28, .rw⟩, ⟨15, 0, .rw⟩]⟩,
   ⟨"PWR_REQ_STAT", 0x40100014, 1, 0x0, 1, 0x0, 32, 0x0,
      [⟨31, 31, .ro⟩, ⟨27, 24, .ro⟩, ⟨21, 16, .ro⟩, ⟨15, 0, .ro⟩]⟩,
   ⟨"PWR_WAKE_REASON", 0x40100020, 1, 0x0, 1, 0x0, 32, 0x0,
      [⟨31, 31, .w1c⟩, ⟨11, 8, .ro⟩, ⟨3, 0, .ro⟩]⟩,
   ⟨"PWR_PAD_CTRL", 0x40100030, 1, 0x0, 1, 0x0, 32, 0x0,
      [⟨1, 1, .ro⟩, ⟨0, 0, .wo⟩]⟩,
   ⟨"PWR_VIN", 0x40100040, 1, 0x0, 1, 0x0, 32, 0x0,
      [⟨31, 31, .ro⟩, ⟨30, 30, .ro⟩, ⟨15, 0, .ro⟩]⟩,
   ⟨"PWR_PMB_CTRL", 0x40100050, 1, 0x0, 1, 0x0, 32, 0x0,
      [⟨31, 31, .wo⟩, ⟨30, 29, .rw⟩, ⟨25, 24, .ro⟩, ⟨1, 0, .ro⟩]⟩,
   ⟨"PWR_PMB_LOG", 0x40100054, 1, 0x0, 1, 0x0, 32, 0x0,
      [⟨31, 31, .w1c⟩, ⟨15, 0, .ro⟩]⟩,
   ⟨"PWR_REQ_CNT", 0x40100100, 5, 0x4, 1, 0x0, 32, 0x0,
      [⟨31, 0, .rc⟩]⟩,
   ⟨"PWR_REFUSED_CNT", 0x40100120, 1, 0x0, 1, 0x0, 32, 0x0,
      [⟨31, 0, .rc⟩]⟩,
   ⟨"PWR_WAKE_FAIL_CNT", 0x40100124, 1, 0x0, 1, 0x0, 32, 0x0,
      [⟨31, 0, .rc⟩]⟩]

def regsPwr1 : List RegSpec :=
  [⟨"PWR_PMB_RECOVER_CNT", 0x40100128, 1, 0x0, 1, 0x0, 32, 0x0,
      [⟨31, 0, .rc⟩]⟩,
   ⟨"PWR_PMB_FAIL_CNT", 0x4010012C, 1, 0x0, 1, 0x0, 32, 0x0,
      [⟨31, 0, .rc⟩]⟩,
   ⟨"PWR_WR_DENY_CNT", 0x40100130, 1, 0x0, 1, 0x0, 32, 0x0,
      [⟨31, 0, .rc⟩]⟩,
   ⟨"PWR_OV_DISC_CNT", 0x40100134, 1, 0x0, 1, 0x0, 32, 0x0,
      [⟨31, 0, .rc⟩]⟩,
   ⟨"PWR_VSENSE_GAIN_FACT", 0x40100200, 1, 0x0, 1, 0x0, 32, 0x0,
      [⟨15, 0, .ro⟩]⟩,
   ⟨"PWR_VSENSE_GAIN_USER", 0x40100204, 1, 0x0, 1, 0x0, 32, 0x0,
      [⟨15, 0, .rwl⟩]⟩,
   ⟨"PWR_VSENSE_GAIN_EFF", 0x40100208, 1, 0x0, 1, 0x0, 32, 0x0,
      [⟨15, 0, .ro⟩]⟩,
   ⟨"PWR_ISENSE_GAIN_FACT", 0x40100400, 40, 0x10, 1, 0x0, 32, 0x0,
      [⟨15, 0, .ro⟩]⟩,
   ⟨"PWR_ISENSE_GAIN_USER", 0x40100404, 40, 0x10, 1, 0x0, 32, 0x0,
      [⟨15, 0, .rwl⟩]⟩,
   ⟨"PWR_ISENSE_GAIN_EFF", 0x40100408, 40, 0x10, 1, 0x0, 32, 0x0,
      [⟨15, 0, .ro⟩]⟩]

def regsPwr : List RegSpec := regsPwr0 ++ regsPwr1

def regsClk0 : List RegSpec :=
  [⟨"CLK_STAT", 0x40200000, 1, 0x0, 1, 0x0, 32, 0x0,
      [⟨31, 31, .ro⟩, ⟨30, 30, .ro⟩, ⟨29, 28, .ro⟩, ⟨15, 0, .ro⟩]⟩,
   ⟨"CLK_LOCK_LOSS_CNT", 0x40200010, 1, 0x0, 1, 0x0, 32, 0x0,
      [⟨31, 0, .rc⟩]⟩]

def regsClk : List RegSpec := regsClk0

def regsTb0 : List RegSpec :=
  [⟨"TB_NS", 0x40300000, 1, 0x0, 1, 0x0, 32, 0x0,
      [⟨29, 0, .ro⟩]⟩,
   ⟨"TB_FRAC_L", 0x40300004, 1, 0x0, 1, 0x0, 32, 0x0,
      [⟨15, 0, .ro⟩]⟩,
   ⟨"TB_SEC_L", 0x40300008, 1, 0x0, 1, 0x0, 64, 0x0,
      [⟨47, 0, .ro⟩]⟩,
   ⟨"TB_SET", 0x40300010, 1, 0x0, 1, 0x0, 64, 0x0,
      [⟨63, 63, .wo⟩, ⟨47, 0, .rw⟩]⟩,
   ⟨"TB_PTP_OFFS", 0x40300018, 1, 0x0, 1, 0x0, 64, 0x0,
      [⟨63, 0, .wo⟩]⟩,
   ⟨"TB_SERVO_STAT", 0x40300040, 1, 0x0, 1, 0x0, 32, 0x0,
      [⟨31, 29, .ro⟩, ⟨28, 27, .ro⟩, ⟨26, 26, .ro⟩, ⟨25, 25, .ro⟩, ⟨21, 16, .ro⟩]⟩,
   ⟨"TB_SERVO_ERR", 0x40300048, 1, 0x0, 1, 0x0, 64, 0x0,
      [⟨63, 0, .ro⟩]⟩,
   ⟨"TB_SERVO_FREQ", 0x40300050, 1, 0x0, 1, 0x0, 64, 0x0,
      [⟨63, 48, .ro⟩, ⟨47, 0, .ro⟩]⟩,
   ⟨"TB_HOLD", 0x40300058, 1, 0x0, 1, 0x0, 32, 0x0,
      [⟨31, 0, .ro⟩]⟩,
   ⟨"TB_SERVO_P", 0x40300080, 16, 0x4, 1, 0x0, 32, 0x0,
      [⟨31, 0, .rwl⟩]⟩,
   ⟨"TB_CAP_SEL", 0x40300100, 1, 0x0, 1, 0x0, 32, 0x0,
      [⟨31, 24, .rw⟩, ⟨23, 16, .rw⟩, ⟨15, 8, .rw⟩, ⟨7, 0, .rw⟩]⟩,
   ⟨"TB_CAP_SEC", 0x40300110, 5, 0x10, 1, 0x0, 64, 0x0,
      [⟨63, 63, .w1c⟩, ⟨62, 62, .w1c⟩, ⟨47, 0, .ro⟩]⟩]

def regsTb1 : List RegSpec :=
  [⟨"TB_CAP_NS", 0x40300118, 5, 0x10, 1, 0x0, 64, 0x0,
      [⟨45, 16, .ro⟩, ⟨15, 0, .ro⟩]⟩,
   ⟨"TUNE_DAC_CODE", 0x40300200, 1, 0x0, 1, 0x0, 32, 0x0,
      [⟨31, 31, .ro⟩, ⟨30, 30, .ro⟩, ⟨29, 29, .ro⟩, ⟨19, 0, .rw⟩]⟩,
   ⟨"TUNE_DAC_CFG", 0x40300204, 1, 0x0, 1, 0x0, 32, 0x0,
      [⟨1, 1, .rwl⟩, ⟨0, 0, .rwl⟩]⟩,
   ⟨"TUNE_GAIN_FACT", 0x40300210, 1, 0x0, 1, 0x0, 32, 0x0,
      [⟨15, 0, .ro⟩]⟩,
   ⟨"TUNE_GAIN_USER", 0x40300214, 1, 0x0, 1, 0x0, 32, 0x0,
      [⟨15, 0, .rwl⟩]⟩,
   ⟨"TUNE_GAIN_EFF", 0x40300218, 1, 0x0, 1, 0x0, 32, 0x0,
      [⟨15, 0, .ro⟩]⟩,
   ⟨"TUNE_OFFS_FACT", 0x4030021C, 1, 0x0, 1, 0x0, 32, 0x0,
      [⟨15, 0, .ro⟩]⟩,
   ⟨"TUNE_OFFS_USER", 0x40300220, 1, 0x0, 1, 0x0, 32, 0x0,
      [⟨15, 0, .rwl⟩]⟩,
   ⟨"TUNE_OFFS_EFF", 0x40300224, 1, 0x0, 1, 0x0, 32, 0x0,
      [⟨15, 0, .ro⟩]⟩,
   ⟨"TB_STEP_DENY_CNT", 0x40300300, 1, 0x0, 1, 0x0, 32, 0x0,
      [⟨31, 0, .rc⟩]⟩,
   ⟨"TB_SLEW_CNT", 0x40300304, 1, 0x0, 1, 0x0, 32, 0x0,
      [⟨31, 0, .rc⟩]⟩,
   ⟨"TB_SRC_SWITCH_CNT", 0x40300308, 1, 0x0, 1, 0x0, 32, 0x0,
      [⟨31, 0, .rc⟩]⟩]

def regsTb2 : List RegSpec :=
  [⟨"TB_LOCK_LOSS_CNT", 0x4030030C, 1, 0x0, 1, 0x0, 32, 0x0,
      [⟨31, 0, .rc⟩]⟩,
   ⟨"TB_HOLD_CNT", 0x40300310, 1, 0x0, 1, 0x0, 32, 0x0,
      [⟨31, 0, .rc⟩]⟩,
   ⟨"TB_EXPIRED_CNT", 0x40300314, 1, 0x0, 1, 0x0, 32, 0x0,
      [⟨31, 0, .rc⟩]⟩,
   ⟨"TB_PPS_MISS_CNT", 0x40300318, 1, 0x0, 1, 0x0, 32, 0x0,
      [⟨31, 0, .rc⟩]⟩,
   ⟨"TB_TOD_ERR_CNT", 0x4030031C, 1, 0x0, 1, 0x0, 32, 0x0,
      [⟨31, 0, .rc⟩]⟩,
   ⟨"TB_CAP_OVF_CNT", 0x40300320, 1, 0x0, 1, 0x0, 32, 0x0,
      [⟨31, 0, .rc⟩]⟩,
   ⟨"TB_WR_DENY_CNT", 0x40300324, 1, 0x0, 1, 0x0, 32, 0x0,
      [⟨31, 0, .rc⟩]⟩,
   ⟨"TUNE_WR_DENY_CNT", 0x40300328, 1, 0x0, 1, 0x0, 32, 0x0,
      [⟨31, 0, .rc⟩]⟩,
   ⟨"PTP_TC_FWD_CNT", 0x4030032C, 1, 0x0, 1, 0x0, 32, 0x0,
      [⟨31, 0, .rc⟩]⟩,
   ⟨"PTP_TC_DROP_CNT", 0x40300330, 1, 0x0, 1, 0x0, 32, 0x0,
      [⟨31, 0, .rc⟩]⟩,
   ⟨"TB_CTX_COMMIT_CNT", 0x40300334, 1, 0x0, 1, 0x0, 32, 0x0,
      [⟨31, 0, .rc⟩]⟩,
   ⟨"TB_CTX_TORN_CNT", 0x40300338, 1, 0x0, 1, 0x0, 32, 0x0,
      [⟨31, 0, .rc⟩]⟩]

def regsTb3 : List RegSpec :=
  [⟨"TB_CTX_BADSET_CNT", 0x4030033C, 1, 0x0, 1, 0x0, 32, 0x0,
      [⟨31, 0, .rc⟩]⟩,
   ⟨"TB_CTX_WR_DENY_CNT", 0x40300340, 1, 0x0, 1, 0x0, 32, 0x0,
      [⟨31, 0, .rc⟩]⟩,
   ⟨"TB_CTX_SH", 0x40310000, 64, 0x40, 1, 0x0, 32, 0x0,
      [⟨2, 0, .rw⟩]⟩,
   ⟨"TB_CTX_COMMIT", 0x40310004, 64, 0x40, 1, 0x0, 32, 0x0,
      [⟨2, 2, .w1c⟩, ⟨1, 1, .w1c⟩, ⟨0, 0, .w1s⟩]⟩,
   ⟨"TB_CTX_ACT", 0x40310008, 64, 0x40, 1, 0x0, 32, 0x0,
      [⟨31, 31, .ro⟩, ⟨30, 30, .ro⟩, ⟨29, 26, .ro⟩, ⟨25, 24, .ro⟩, ⟨23, 23, .ro⟩, ⟨18, 16, .ro⟩, ⟨15, 0, .ro⟩]⟩,
   ⟨"TB_CTX_POS", 0x4031000C, 64, 0x40, 1, 0x0, 32, 0x0,
      [⟨25, 16, .ro⟩, ⟨6, 0, .ro⟩]⟩,
   ⟨"TB_CTX_NEXT", 0x40310010, 64, 0x40, 1, 0x0, 64, 0x0,
      [⟨63, 0, .ro⟩]⟩,
   ⟨"TB_LG_COMMIT", 0x40320000, 16, 0x4, 1, 0x0, 32, 0x0,
      [⟨2, 2, .w1c⟩, ⟨1, 1, .w1c⟩, ⟨0, 0, .w1s⟩]⟩,
   ⟨"PTP_RXDLY_FACT", 0x40330000, 64, 0x80, 32, 0x4, 32, 0x0,
      [⟨15, 0, .ro⟩]⟩,
   ⟨"PTP_TXDLY_FACT", 0x40332000, 64, 0x80, 32, 0x4, 32, 0x0,
      [⟨15, 0, .ro⟩]⟩,
   ⟨"PTP_RXDLY_USER", 0x40334000, 64, 0x10, 1, 0x0, 32, 0x0,
      [⟨15, 0, .rwl⟩]⟩,
   ⟨"PTP_RXDLY_EFF", 0x40334004, 64, 0x10, 1, 0x0, 32, 0x0,
      [⟨15, 0, .ro⟩]⟩]

def regsTb4 : List RegSpec :=
  [⟨"PTP_TXDLY_USER", 0x40334008, 64, 0x10, 1, 0x0, 32, 0x0,
      [⟨15, 0, .rwl⟩]⟩,
   ⟨"PTP_TXDLY_EFF", 0x4033400C, 64, 0x10, 1, 0x0, 32, 0x0,
      [⟨15, 0, .ro⟩]⟩]

def regsTb : List RegSpec := regsTb0 ++ regsTb1 ++ regsTb2 ++ regsTb3 ++ regsTb4

def regsCmp0 : List RegSpec :=
  [⟨"CMP_JOBS", 0x40400000, 1, 0x0, 1, 0x0, 32, 0x0,
      [⟨27, 16, .rc⟩, ⟨11, 0, .ro⟩]⟩,
   ⟨"CMP_STAGES", 0x40400004, 1, 0x0, 1, 0x0, 32, 0x0,
      [⟨30, 16, .rc⟩, ⟨14, 0, .ro⟩]⟩,
   ⟨"CMP_EVT_SET", 0x40400010, 1, 0x0, 1, 0x0, 32, 0x0,
      [⟨31, 16, .wo⟩, ⟨13, 11, .wo⟩, ⟨10, 0, .wo⟩]⟩,
   ⟨"CMP_ACC_CNT", 0x40400100, 1, 0x0, 1, 0x0, 32, 0x0,
      [⟨31, 0, .rc⟩]⟩,
   ⟨"CMP_REJ_CNT", 0x40400104, 9, 0x4, 1, 0x0, 32, 0x0,
      [⟨31, 0, .rc⟩]⟩,
   ⟨"CMP_CMPL_CNT", 0x40400140, 5, 0x4, 1, 0x0, 32, 0x0,
      [⟨31, 0, .rc⟩]⟩,
   ⟨"CMP_LATE_EVT_CNT", 0x40400180, 1, 0x0, 1, 0x0, 32, 0x0,
      [⟨31, 0, .rc⟩]⟩,
   ⟨"CMP_STRAY_EVT_CNT", 0x40400184, 1, 0x0, 1, 0x0, 32, 0x0,
      [⟨31, 0, .rc⟩]⟩,
   ⟨"CMP_DUP_EVT_CNT", 0x40400188, 1, 0x0, 1, 0x0, 32, 0x0,
      [⟨31, 0, .rc⟩]⟩,
   ⟨"CMP_NOCQ_CNT", 0x4040018C, 1, 0x0, 1, 0x0, 32, 0x0,
      [⟨31, 0, .rc⟩]⟩,
   ⟨"CMP_POST_OVR_CNT", 0x40400190, 1, 0x0, 1, 0x0, 32, 0x0,
      [⟨31, 0, .rc⟩]⟩,
   ⟨"CMP_MISS_REL_CNT", 0x40400194, 1, 0x0, 1, 0x0, 32, 0x0,
      [⟨31, 0, .rc⟩]⟩]

def regsCmp1 : List RegSpec :=
  [⟨"CMP_SELF_CANCEL_CNT", 0x40400198, 1, 0x0, 1, 0x0, 32, 0x0,
      [⟨31, 0, .rc⟩]⟩,
   ⟨"CMP_SELF_CANCEL_MISS_CNT", 0x4040019C, 1, 0x0, 1, 0x0, 32, 0x0,
      [⟨31, 0, .rc⟩]⟩,
   ⟨"CMP_HOLE_CNT", 0x404001A0, 1, 0x0, 1, 0x0, 32, 0x0,
      [⟨31, 0, .rc⟩]⟩,
   ⟨"CMP_QDEPTH", 0x40410000, 746, 0x4, 1, 0x0, 32, 0x0,
      [⟨31, 16, .rc⟩, ⟨15, 0, .ro⟩]⟩,
   ⟨"CMP_BUSY", 0x40420000, 746, 0x4, 1, 0x0, 32, 0x0,
      [⟨31, 0, .ro⟩]⟩,
   ⟨"CMP_HIST_SEL", 0x40430000, 1, 0x0, 1, 0x0, 32, 0x0,
      [⟨31, 31, .wo⟩, ⟨9, 0, .rw⟩]⟩,
   ⟨"CMP_HIST", 0x40430010, 16, 0x4, 1, 0x0, 32, 0x0,
      [⟨31, 0, .ro⟩]⟩,
   ⟨"CMP_CAL_SEL", 0x40431000, 1, 0x0, 1, 0x0, 32, 0x1,
      [⟨31, 31, .wo⟩, ⟨28, 19, .rw⟩, ⟨18, 7, .rw⟩, ⟨6, 0, .rw⟩]⟩,
   ⟨"CMP_CAL_STAMP", 0x40431008, 1, 0x0, 1, 0x0, 64, 0x0,
      [⟨63, 0, .ro⟩]⟩,
   ⟨"CMP_CAL_FILL", 0x40431100, 64, 0x4, 1, 0x0, 32, 0x0,
      [⟨23, 0, .ro⟩]⟩,
   ⟨"CMP_FLOW_STAT", 0x40440000, 1024, 0x8, 1, 0x0, 64, 0x0,
      [⟨63, 48, .ro⟩, ⟨47, 32, .ro⟩, ⟨22, 14, .ro⟩, ⟨9, 9, .ro⟩, ⟨8, 8, .ro⟩]⟩]

def regsCmp : List RegSpec := regsCmp0 ++ regsCmp1

def regsNoc0 : List RegSpec :=
  [⟨"NOC_EPOCH_CTRL", 0x40500000, 1, 0x0, 1, 0x0, 32, 0x0,
      [⟨2, 2, .w1c⟩, ⟨1, 1, .w1c⟩, ⟨0, 0, .w1s⟩]⟩,
   ⟨"NOC_EPOCH_STAT", 0x40500004, 1, 0x0, 1, 0x0, 32, 0x0,
      [⟨31, 31, .ro⟩, ⟨30, 30, .ro⟩, ⟨15, 0, .ro⟩]⟩,
   ⟨"NOC_BRG_SH", 0x40500010, 3, 0x4, 1, 0x0, 32, 0xffffff,
      [⟨23, 0, .rw⟩]⟩,
   ⟨"NOC_BRG_ACT", 0x40500020, 3, 0x4, 1, 0x0, 32, 0xffffff,
      [⟨23, 0, .ro⟩]⟩,
   ⟨"NOC_WHEEL_ADDR", 0x40500040, 1, 0x0, 1, 0x0, 32, 0x0,
      [⟨31, 31, .rw⟩, ⟨30, 24, .rw⟩, ⟨23, 20, .rw⟩, ⟨7, 0, .rw⟩]⟩,
   ⟨"NOC_WHEEL_DATA", 0x40500044, 1, 0x0, 1, 0x0, 32, 0x0,
      [⟨15, 15, .rw⟩, ⟨11, 0, .rw⟩]⟩,
   ⟨"NOC_FENCE_STAT", 0x40500100, 30, 0x4, 1, 0x0, 32, 0x0,
      [⟨31, 31, .ro⟩, ⟨30, 30, .ro⟩, ⟨15, 0, .ro⟩]⟩,
   ⟨"NOC_ERR_LOG", 0x40500200, 1, 0x0, 1, 0x0, 64, 0x0,
      [⟨63, 63, .w1c⟩, ⟨62, 62, .w1c⟩, ⟨61, 61, .ro⟩, ⟨60, 58, .ro⟩, ⟨57, 51, .ro⟩, ⟨50, 47, .ro⟩, ⟨15, 0, .ro⟩]⟩,
   ⟨"NOC_DATA_UE_CNT", 0x40500300, 1, 0x0, 1, 0x0, 32, 0x0,
      [⟨31, 0, .rc⟩]⟩,
   ⟨"NOC_HDR_UE_CNT", 0x40500304, 1, 0x0, 1, 0x0, 32, 0x0,
      [⟨31, 0, .rc⟩]⟩,
   ⟨"NOC_RESYNC_DISCARD_CNT", 0x40500308, 1, 0x0, 1, 0x0, 32, 0x0,
      [⟨31, 0, .rc⟩]⟩,
   ⟨"NOC_CRC_ERR_CNT", 0x4050030C, 1, 0x0, 1, 0x0, 32, 0x0,
      [⟨31, 0, .rc⟩]⟩]

def regsNoc1 : List RegSpec :=
  [⟨"NOC_TIMEOUT_CNT", 0x40500310, 1, 0x0, 1, 0x0, 32, 0x0,
      [⟨31, 0, .rc⟩]⟩,
   ⟨"NOC_LATE_RSP_CNT", 0x40500314, 1, 0x0, 1, 0x0, 32, 0x0,
      [⟨31, 0, .rc⟩]⟩,
   ⟨"NOC_FENCE_REJ_CNT", 0x40500318, 1, 0x0, 1, 0x0, 32, 0x0,
      [⟨31, 0, .rc⟩]⟩,
   ⟨"NOC_FENCE_DROP_CNT", 0x4050031C, 1, 0x0, 1, 0x0, 32, 0x0,
      [⟨31, 0, .rc⟩]⟩,
   ⟨"NOC_EPOCH_DEFER_CNT", 0x40500320, 1, 0x0, 1, 0x0, 32, 0x0,
      [⟨31, 0, .rc⟩]⟩,
   ⟨"NOC_TORN_CNT", 0x40500324, 1, 0x0, 1, 0x0, 32, 0x0,
      [⟨31, 0, .rc⟩]⟩,
   ⟨"NOC_BADSET_CNT", 0x40500328, 1, 0x0, 1, 0x0, 32, 0x0,
      [⟨31, 0, .rc⟩]⟩,
   ⟨"NOC_WR_DENY_CNT", 0x4050032C, 1, 0x0, 1, 0x0, 32, 0x0,
      [⟨31, 0, .rc⟩]⟩,
   ⟨"NOC_CHORD_CE_CNT", 0x40500330, 1, 0x0, 1, 0x0, 32, 0x0,
      [⟨31, 0, .rc⟩]⟩,
   ⟨"NOC_CHORD_UE_CNT", 0x40500334, 1, 0x0, 1, 0x0, 32, 0x0,
      [⟨31, 0, .rc⟩]⟩,
   ⟨"NOC_RTR_CE_CNT", 0x40501000, 112, 0x4, 1, 0x0, 32, 0x0,
      [⟨31, 0, .rc⟩]⟩]

def regsNoc : List RegSpec := regsNoc0 ++ regsNoc1

def regsMem0 : List RegSpec :=
  [⟨"MEM_OWNER", 0x40600000, 24, 0x10000, 192, 0x4, 32, 0x0,
      [⟨31, 31, .ro⟩, ⟨30, 30, .ro⟩, ⟨15, 12, .rw⟩, ⟨11, 0, .rw⟩]⟩,
   ⟨"MEM_OWNER", 0x40780000, 256, 0x4, 1, 0x0, 32, 0x0,
      [⟨31, 31, .ro⟩, ⟨30, 30, .ro⟩, ⟨15, 12, .rw⟩, ⟨11, 0, .rw⟩]⟩,
   ⟨"MEM_BANK_CFG", 0x40600400, 24, 0x10000, 192, 0x4, 32, 0x1,
      [⟨11, 8, .ro⟩, ⟨4, 4, .rwl⟩, ⟨3, 3, .rwl⟩, ⟨2, 2, .rwl⟩, ⟨1, 0, .rwl⟩]⟩,
   ⟨"MEM_BANK_CFG", 0x40780400, 256, 0x4, 1, 0x0, 32, 0x1,
      [⟨11, 8, .ro⟩, ⟨4, 4, .rwl⟩, ⟨3, 3, .rwl⟩, ⟨2, 2, .rwl⟩, ⟨1, 0, .rwl⟩]⟩,
   ⟨"MEM_SCRUB_CFG", 0x40600800, 25, 0x10000, 1, 0x0, 32, 0x0,
      [⟨31, 16, .rwl⟩, ⟨0, 0, .rwl⟩]⟩,
   ⟨"MEM_SCRUB_STAT", 0x40600804, 25, 0x10000, 1, 0x0, 32, 0x0,
      [⟨31, 31, .ro⟩, ⟨30, 30, .w1c⟩, ⟨23, 0, .ro⟩]⟩,
   ⟨"MEM_REMAP", 0x40600900, 25, 0x10000, 16, 0x4, 32, 0x0,
      [⟨31, 31, .rw⟩, ⟨20, 13, .rw⟩, ⟨12, 0, .rw⟩]⟩,
   ⟨"MEM_REMAP_CAND", 0x40600980, 25, 0x10000, 1, 0x0, 32, 0x0,
      [⟨31, 31, .w1c⟩, ⟨30, 30, .w1c⟩, ⟨20, 13, .ro⟩, ⟨12, 0, .ro⟩]⟩,
   ⟨"MEM_ERR_LOG", 0x40600B00, 25, 0x10000, 1, 0x0, 64, 0x0,
      [⟨63, 63, .w1c⟩, ⟨62, 62, .w1c⟩, ⟨61, 60, .ro⟩, ⟨51, 44, .ro⟩, ⟨43, 31, .ro⟩, ⟨15, 12, .ro⟩, ⟨11, 0, .ro⟩]⟩,
   ⟨"MEM_OWN_ERR_LOG", 0x40600B08, 25, 0x10000, 1, 0x0, 32, 0x0,
      [⟨31, 31, .w1c⟩, ⟨30, 30, .ro⟩, ⟨23, 16, .ro⟩, ⟨15, 12, .ro⟩, ⟨11, 0, .ro⟩]⟩,
   ⟨"MEM_CE_CNT", 0x40600A00, 25, 0x10000, 1, 0x0, 32, 0x0,
      [⟨31, 0, .rc⟩]⟩,
   ⟨"MEM_UE_CNT", 0x40600A04, 25, 0x10000, 1, 0x0, 32, 0x0,
      [⟨31, 0, .rc⟩]⟩]

def regsMem1 : List RegSpec :=
  [⟨"MEM_OWN_ERR_CNT", 0x40600A08, 25, 0x10000, 1, 0x0, 32, 0x0,
      [⟨31, 0, .rc⟩]⟩,
   ⟨"MEM_OWN_DENY_CNT", 0x40600A0C, 25, 0x10000, 1, 0x0, 32, 0x0,
      [⟨31, 0, .rc⟩]⟩,
   ⟨"MEM_HO_CNT", 0x40600A10, 25, 0x10000, 1, 0x0, 32, 0x0,
      [⟨31, 0, .rc⟩]⟩,
   ⟨"MEM_COLL_WW_CNT", 0x40600A14, 25, 0x10000, 1, 0x0, 32, 0x0,
      [⟨31, 0, .rc⟩]⟩,
   ⟨"MEM_COLL_RW_CNT", 0x40600A18, 25, 0x10000, 1, 0x0, 32, 0x0,
      [⟨31, 0, .rc⟩]⟩,
   ⟨"MEM_WB_CNT", 0x40600A1C, 25, 0x10000, 1, 0x0, 32, 0x0,
      [⟨31, 0, .rc⟩]⟩,
   ⟨"MEM_TRK_EVICT_CNT", 0x40600A20, 25, 0x10000, 1, 0x0, 32, 0x0,
      [⟨31, 0, .rc⟩]⟩,
   ⟨"MEM_REMAP_CAND_CNT", 0x40600A24, 25, 0x10000, 1, 0x0, 32, 0x0,
      [⟨31, 0, .rc⟩]⟩,
   ⟨"MEM_REMAP_INST_CNT", 0x40600A28, 25, 0x10000, 1, 0x0, 32, 0x0,
      [⟨31, 0, .rc⟩]⟩,
   ⟨"MEM_REMAP_DENY_CNT", 0x40600A2C, 25, 0x10000, 1, 0x0, 32, 0x0,
      [⟨31, 0, .rc⟩]⟩,
   ⟨"MEM_SCRUB_ALARM_CNT", 0x40600A30, 25, 0x10000, 1, 0x0, 32, 0x0,
      [⟨31, 0, .rc⟩]⟩,
   ⟨"MEM_SCRUB_PARTIAL_CNT", 0x40600A34, 25, 0x10000, 1, 0x0, 32, 0x0,
      [⟨31, 0, .rc⟩]⟩]

def regsMem2 : List RegSpec :=
  [⟨"MEM_CFG_DENY_CNT", 0x40600A38, 25, 0x10000, 1, 0x0, 32, 0x0,
      [⟨31, 0, .rc⟩]⟩]

def regsMem : List RegSpec := regsMem0 ++ regsMem1 ++ regsMem2

def regsDma0 : List RegSpec :=
  [⟨"DMA_SRC", 0x40800000, 25, 0x10000, 16, 0x100, 64, 0x0,
      [⟨47, 0, .rw⟩]⟩,
   ⟨"DMA_DST", 0x40800008, 25, 0x10000, 16, 0x100, 64, 0x0,
      [⟨47, 0, .rw⟩]⟩,
   ⟨"DMA_CNT", 0x40800010, 25, 0x10000, 16, 0x100, 32, 0x0,
      [⟨23, 0, .rw⟩]⟩,
   ⟨"DMA_CTRL", 0x40800014, 25, 0x10000, 16, 0x100, 32, 0x0,
      [⟨31, 31, .wo⟩, ⟨17, 17, .rw⟩, ⟨16, 16, .rw⟩, ⟨15, 15, .rw⟩, ⟨12, 8, .rw⟩, ⟨5, 0, .rw⟩]⟩,
   ⟨"DMA_LIST", 0x40800018, 25, 0x10000, 16, 0x100, 64, 0x0,
      [⟨47, 4, .rw⟩]⟩,
   ⟨"DMA_DOORBELL", 0x40800020, 25, 0x10000, 16, 0x100, 32, 0x0,
      [⟨31, 16, .ro⟩, ⟨15, 1, .ro⟩, ⟨0, 0, .wo⟩]⟩,
   ⟨"DMA_STAT", 0x40800024, 25, 0x10000, 16, 0x100, 32, 0x0,
      [⟨31, 29, .ro⟩, ⟨28, 28, .w1c⟩, ⟨27, 24, .ro⟩, ⟨15, 0, .ro⟩]⟩,
   ⟨"DMA_DONE", 0x40800028, 25, 0x10000, 16, 0x100, 64, 0x0,
      [⟨63, 63, .ro⟩, ⟨47, 0, .ro⟩]⟩,
   ⟨"DMA_FAULT_ADDR", 0x40800030, 25, 0x10000, 16, 0x100, 64, 0x0,
      [⟨63, 63, .ro⟩, ⟨47, 0, .ro⟩]⟩,
   ⟨"DMA_ENG_STAT", 0x40801000, 25, 0x10000, 1, 0x0, 32, 0x0,
      [⟨31, 31, .ro⟩, ⟨19, 16, .ro⟩, ⟨15, 0, .ro⟩]⟩,
   ⟨"DMA_OUT_CNT", 0x40801100, 25, 0x10000, 9, 0x4, 32, 0x0,
      [⟨31, 0, .rc⟩]⟩,
   ⟨"DMA_RESTART_CNT", 0x40801130, 25, 0x10000, 1, 0x0, 32, 0x0,
      [⟨31, 0, .rc⟩]⟩]

def regsDma1 : List RegSpec :=
  [⟨"DMA_START_DENY_CNT", 0x40801134, 25, 0x10000, 1, 0x0, 32, 0x0,
      [⟨31, 0, .rc⟩]⟩,
   ⟨"DMA_WR_DENY_CNT", 0x40801138, 25, 0x10000, 1, 0x0, 32, 0x0,
      [⟨31, 0, .rc⟩]⟩]

def regsDma : List RegSpec := regsDma0 ++ regsDma1

def regsCce0 : List RegSpec :=
  [⟨"CCE_INST_STAT", 0x40A00000, 104, 0x4, 1, 0x0, 32, 0x0,
      [⟨31, 30, .ro⟩, ⟨29, 24, .ro⟩, ⟨20, 10, .ro⟩, ⟨7, 0, .ro⟩]⟩,
   ⟨"CCE_LOCKS", 0x40A00200, 4, 0x4, 1, 0x0, 32, 0x0,
      [⟨22, 16, .rc⟩, ⟨6, 0, .ro⟩]⟩,
   ⟨"CCE_DESC_CNT", 0x40A0040C, 4, 0x4, 1, 0x0, 32, 0x0,
      [⟨31, 0, .rc⟩]⟩,
   ⟨"CCE_PARAM_ERR_CNT", 0x40A00420, 1, 0x0, 1, 0x0, 32, 0x0,
      [⟨31, 0, .rc⟩]⟩,
   ⟨"CCE_ACCESS_ERR_CNT", 0x40A00424, 1, 0x0, 1, 0x0, 32, 0x0,
      [⟨31, 0, .rc⟩]⟩,
   ⟨"CCE_HALT_CNT", 0x40A00428, 1, 0x0, 1, 0x0, 32, 0x0,
      [⟨31, 0, .rc⟩]⟩,
   ⟨"CCE_STOP_CNT", 0x40A0042C, 1, 0x0, 1, 0x0, 32, 0x0,
      [⟨31, 0, .rc⟩]⟩,
   ⟨"CCE_CB_FAIL_CNT", 0x40A00430, 1, 0x0, 1, 0x0, 32, 0x0,
      [⟨31, 0, .rc⟩]⟩,
   ⟨"CCE_TB_FAIL_CNT", 0x40A00434, 1, 0x0, 1, 0x0, 32, 0x0,
      [⟨31, 0, .rc⟩]⟩,
   ⟨"CCE_ET_CNT", 0x40A00438, 1, 0x0, 1, 0x0, 32, 0x0,
      [⟨31, 0, .rc⟩]⟩,
   ⟨"CCE_LLR_CLIP_CNT", 0x40A0043C, 1, 0x0, 1, 0x0, 32, 0x0,
      [⟨31, 0, .rc⟩]⟩,
   ⟨"CCE_POISON_IN_CNT", 0x40A00440, 1, 0x0, 1, 0x0, 32, 0x0,
      [⟨31, 0, .rc⟩]⟩]

def regsCce1 : List RegSpec :=
  [⟨"CCE_SB_LOST_CNT", 0x40A00444, 1, 0x0, 1, 0x0, 32, 0x0,
      [⟨31, 0, .rc⟩]⟩,
   ⟨"CCE_SB_MISMATCH_CNT", 0x40A00448, 1, 0x0, 1, 0x0, 32, 0x0,
      [⟨31, 0, .rc⟩]⟩,
   ⟨"CCE_SB_BUSY_CNT", 0x40A0044C, 1, 0x0, 1, 0x0, 32, 0x0,
      [⟨31, 0, .rc⟩]⟩]

def regsCce : List RegSpec := regsCce0 ++ regsCce1

def regsMtx0 : List RegSpec :=
  [⟨"MTX_INST_STAT", 0x40C00000, 16, 0x4, 1, 0x0, 32, 0x0,
      [⟨31, 30, .ro⟩, ⟨29, 24, .ro⟩, ⟨20, 10, .ro⟩, ⟨7, 0, .ro⟩]⟩,
   ⟨"FFT_INST_STAT", 0x40C00040, 16, 0x4, 1, 0x0, 32, 0x0,
      [⟨31, 30, .ro⟩, ⟨29, 24, .ro⟩, ⟨20, 10, .ro⟩, ⟨7, 0, .ro⟩]⟩,
   ⟨"PRA_INST_STAT", 0x40C00080, 32, 0x4, 1, 0x0, 32, 0x0,
      [⟨31, 30, .ro⟩, ⟨29, 24, .ro⟩, ⟨20, 10, .ro⟩, ⟨7, 0, .ro⟩]⟩,
   ⟨"PRA_THR", 0x40C01000, 512, 0x4, 1, 0x0, 32, 0x0,
      [⟨25, 16, .rwl⟩, ⟨9, 0, .rwl⟩]⟩,
   ⟨"MTX_DESC_CNT", 0x40C00400, 1, 0x0, 1, 0x0, 32, 0x0,
      [⟨31, 0, .rc⟩]⟩,
   ⟨"FFT_DESC_CNT", 0x40C00404, 1, 0x0, 1, 0x0, 32, 0x0,
      [⟨31, 0, .rc⟩]⟩,
   ⟨"PRA_DESC_CNT", 0x40C00408, 1, 0x0, 1, 0x0, 32, 0x0,
      [⟨31, 0, .rc⟩]⟩,
   ⟨"MTX_PARAM_ERR_CNT", 0x40C00410, 1, 0x0, 1, 0x0, 32, 0x0,
      [⟨31, 0, .rc⟩]⟩,
   ⟨"FFT_PARAM_ERR_CNT", 0x40C00414, 1, 0x0, 1, 0x0, 32, 0x0,
      [⟨31, 0, .rc⟩]⟩,
   ⟨"PRA_PARAM_ERR_CNT", 0x40C00418, 1, 0x0, 1, 0x0, 32, 0x0,
      [⟨31, 0, .rc⟩]⟩,
   ⟨"MTX_ACCESS_ERR_CNT", 0x40C00420, 1, 0x0, 1, 0x0, 32, 0x0,
      [⟨31, 0, .rc⟩]⟩,
   ⟨"FFT_ACCESS_ERR_CNT", 0x40C00424, 1, 0x0, 1, 0x0, 32, 0x0,
      [⟨31, 0, .rc⟩]⟩]

def regsMtx1 : List RegSpec :=
  [⟨"PRA_ACCESS_ERR_CNT", 0x40C00428, 1, 0x0, 1, 0x0, 32, 0x0,
      [⟨31, 0, .rc⟩]⟩,
   ⟨"MTX_HALT_CNT", 0x40C00430, 1, 0x0, 1, 0x0, 32, 0x0,
      [⟨31, 0, .rc⟩]⟩,
   ⟨"FFT_HALT_CNT", 0x40C00434, 1, 0x0, 1, 0x0, 32, 0x0,
      [⟨31, 0, .rc⟩]⟩,
   ⟨"PRA_HALT_CNT", 0x40C00438, 1, 0x0, 1, 0x0, 32, 0x0,
      [⟨31, 0, .rc⟩]⟩,
   ⟨"MTX_STOP_CNT", 0x40C00440, 1, 0x0, 1, 0x0, 32, 0x0,
      [⟨31, 0, .rc⟩]⟩,
   ⟨"FFT_STOP_CNT", 0x40C00444, 1, 0x0, 1, 0x0, 32, 0x0,
      [⟨31, 0, .rc⟩]⟩,
   ⟨"PRA_STOP_CNT", 0x40C00448, 1, 0x0, 1, 0x0, 32, 0x0,
      [⟨31, 0, .rc⟩]⟩,
   ⟨"MTX_POISON_IN_CNT", 0x40C00450, 1, 0x0, 1, 0x0, 32, 0x0,
      [⟨31, 0, .rc⟩]⟩,
   ⟨"FFT_POISON_IN_CNT", 0x40C00454, 1, 0x0, 1, 0x0, 32, 0x0,
      [⟨31, 0, .rc⟩]⟩,
   ⟨"PRA_POISON_IN_CNT", 0x40C00458, 1, 0x0, 1, 0x0, 32, 0x0,
      [⟨31, 0, .rc⟩]⟩,
   ⟨"MTX_SINGULAR_CNT", 0x40C00460, 1, 0x0, 1, 0x0, 32, 0x0,
      [⟨31, 0, .rc⟩]⟩,
   ⟨"MTX_TOFF_RANGE_CNT", 0x40C00464, 1, 0x0, 1, 0x0, 32, 0x0,
      [⟨31, 0, .rc⟩]⟩]

def regsMtx2 : List RegSpec :=
  [⟨"MTX_SAT_CNT", 0x40C00468, 1, 0x0, 1, 0x0, 32, 0x0,
      [⟨31, 0, .rc⟩]⟩,
   ⟨"FFT_SAT_CNT", 0x40C00470, 1, 0x0, 1, 0x0, 32, 0x0,
      [⟨31, 0, .rc⟩]⟩,
   ⟨"FFT_AGC_STEP_CNT", 0x40C00474, 1, 0x0, 1, 0x0, 32, 0x0,
      [⟨31, 0, .rc⟩]⟩,
   ⟨"FFT_AGC_LOW_CNT", 0x40C00478, 1, 0x0, 1, 0x0, 32, 0x0,
      [⟨31, 0, .rc⟩]⟩,
   ⟨"FFT_AGC_BAD_CNT", 0x40C0047C, 1, 0x0, 1, 0x0, 32, 0x0,
      [⟨31, 0, .rc⟩]⟩,
   ⟨"PRA_DET_CNT", 0x40C00480, 1, 0x0, 1, 0x0, 32, 0x0,
      [⟨31, 0, .rc⟩]⟩]

def regsMtx : List RegSpec := regsMtx0 ++ regsMtx1 ++ regsMtx2

def regsSdc0 : List RegSpec :=
  [⟨"SDC_SH_CFG", 0x40E00000, 128, 0x40, 1, 0x0, 32, 0x0,
      [⟨31, 31, .rw⟩, ⟨30, 30, .rw⟩, ⟨28, 26, .rw⟩, ⟨25, 25, .rw⟩, ⟨24, 24, .rw⟩, ⟨12, 0, .rw⟩]⟩,
   ⟨"SDC_SH_NCO", 0x40E00004, 128, 0x40, 1, 0x0, 32, 0x0,
      [⟨31, 0, .rw⟩]⟩,
   ⟨"SDC_SH_RS", 0x40E00008, 128, 0x40, 1, 0x0, 32, 0x0,
      [⟨31, 0, .rw⟩]⟩,
   ⟨"SDC_COMMIT", 0x40E0000C, 128, 0x40, 1, 0x0, 32, 0x0,
      [⟨2, 2, .w1c⟩, ⟨1, 1, .w1c⟩, ⟨0, 0, .w1s⟩]⟩,
   ⟨"SDC_ACT_CFG", 0x40E00010, 128, 0x40, 1, 0x0, 32, 0x0,
      [⟨31, 31, .ro⟩, ⟨30, 30, .ro⟩, ⟨28, 26, .ro⟩, ⟨24, 24, .ro⟩, ⟨12, 0, .ro⟩]⟩,
   ⟨"SDC_ACT_NCO", 0x40E00014, 128, 0x40, 1, 0x0, 32, 0x0,
      [⟨31, 0, .ro⟩]⟩,
   ⟨"SDC_ACT_RS", 0x40E00018, 128, 0x40, 1, 0x0, 32, 0x0,
      [⟨31, 0, .ro⟩]⟩,
   ⟨"SDC_STAT", 0x40E0001C, 128, 0x40, 1, 0x0, 32, 0x0,
      [⟨31, 31, .ro⟩, ⟨30, 30, .ro⟩, ⟨29, 29, .ro⟩, ⟨28, 28, .ro⟩, ⟨27, 15, .ro⟩, ⟨14, 14, .ro⟩, ⟨13, 13, .ro⟩, ⟨12, 0, .ro⟩]⟩,
   ⟨"SDC_PWR", 0x40E00020, 128, 0x40, 1, 0x0, 32, 0x80008000,
      [⟨31, 16, .ro⟩, ⟨15, 0, .ro⟩]⟩,
   ⟨"SDC_DESC_CNT", 0x40E04000, 1, 0x0, 1, 0x0, 32, 0x0,
      [⟨31, 0, .rc⟩]⟩,
   ⟨"SDC_PARAM_ERR_CNT", 0x40E04004, 1, 0x0, 1, 0x0, 32, 0x0,
      [⟨31, 0, .rc⟩]⟩,
   ⟨"SDC_ACCESS_ERR_CNT", 0x40E04008, 1, 0x0, 1, 0x0, 32, 0x0,
      [⟨31, 0, .rc⟩]⟩]

def regsSdc1 : List RegSpec :=
  [⟨"SDC_COEF_BUSY_CNT", 0x40E0400C, 1, 0x0, 1, 0x0, 32, 0x0,
      [⟨31, 0, .rc⟩]⟩,
   ⟨"SDC_HALT_CNT", 0x40E04010, 1, 0x0, 1, 0x0, 32, 0x0,
      [⟨31, 0, .rc⟩]⟩,
   ⟨"SDC_STOP_CNT", 0x40E04014, 1, 0x0, 1, 0x0, 32, 0x0,
      [⟨31, 0, .rc⟩]⟩,
   ⟨"SDC_GAP_CNT", 0x40E04018, 1, 0x0, 1, 0x0, 32, 0x0,
      [⟨31, 0, .rc⟩]⟩,
   ⟨"SDC_OUT_CLIP_CNT", 0x40E0401C, 1, 0x0, 1, 0x0, 32, 0x0,
      [⟨31, 0, .rc⟩]⟩,
   ⟨"SDC_SAT_CNT", 0x40E04020, 1, 0x0, 1, 0x0, 32, 0x0,
      [⟨31, 0, .rc⟩]⟩,
   ⟨"SDC_POISON_IN_CNT", 0x40E04024, 1, 0x0, 1, 0x0, 32, 0x0,
      [⟨31, 0, .rc⟩]⟩,
   ⟨"SDC_SWAP_CNT", 0x40E04028, 1, 0x0, 1, 0x0, 32, 0x0,
      [⟨31, 0, .rc⟩]⟩,
   ⟨"SDC_SWAP_REPLACED_CNT", 0x40E0402C, 1, 0x0, 1, 0x0, 32, 0x0,
      [⟨31, 0, .rc⟩]⟩,
   ⟨"SDC_TORN_CNT", 0x40E04030, 1, 0x0, 1, 0x0, 32, 0x0,
      [⟨31, 0, .rc⟩]⟩,
   ⟨"SDC_BADSET_CNT", 0x40E04034, 1, 0x0, 1, 0x0, 32, 0x0,
      [⟨31, 0, .rc⟩]⟩,
   ⟨"SDC_WR_DENY_CNT", 0x40E04038, 1, 0x0, 1, 0x0, 32, 0x0,
      [⟨31, 0, .rc⟩]⟩]

def regsSdc : List RegSpec := regsSdc0 ++ regsSdc1

def regsLane0 : List RegSpec :=
  [⟨"LANE_CFG", 0x41000000, 64, 0x1000, 1, 0x0, 32, 0x0,
      [⟨15, 8, .ro⟩, ⟨7, 7, .ro⟩, ⟨6, 6, .ro⟩, ⟨5, 0, .ro⟩]⟩,
   ⟨"LANE_STAT", 0x41000004, 64, 0x1000, 1, 0x0, 32, 0x0,
      [⟨31, 29, .ro⟩, ⟨28, 28, .ro⟩, ⟨27, 27, .ro⟩, ⟨15, 0, .ro⟩]⟩,
   ⟨"LANE_EQ_ACT", 0x41000010, 64, 0x1000, 1, 0x0, 64, 0x0,
      [⟨63, 56, .ro⟩, ⟨55, 48, .ro⟩, ⟨47, 40, .ro⟩, ⟨39, 32, .ro⟩, ⟨31, 24, .ro⟩, ⟨23, 16, .ro⟩, ⟨15, 8, .ro⟩, ⟨7, 0, .ro⟩]⟩,
   ⟨"LANE_EQ_SUG", 0x41000018, 64, 0x1000, 1, 0x0, 64, 0x0,
      [⟨63, 56, .ro⟩, ⟨55, 48, .ro⟩, ⟨47, 40, .ro⟩, ⟨39, 32, .ro⟩, ⟨31, 24, .ro⟩, ⟨23, 16, .ro⟩, ⟨15, 8, .ro⟩, ⟨7, 0, .ro⟩]⟩,
   ⟨"LANE_CHAR_CTRL", 0x41000020, 64, 0x1000, 1, 0x0, 32, 0x0,
      [⟨31, 31, .rwl⟩, ⟨30, 30, .ro⟩, ⟨15, 8, .ro⟩, ⟨7, 0, .ro⟩]⟩,
   ⟨"LANE_PRBS_CTRL", 0x41000040, 64, 0x1000, 1, 0x0, 32, 0x0,
      [⟨31, 31, .rwl⟩, ⟨30, 30, .rwl⟩, ⟨29, 27, .rwl⟩, ⟨26, 26, .wo⟩, ⟨25, 25, .wo⟩, ⟨6, 0, .rwl⟩]⟩,
   ⟨"LANE_PRBS_USER", 0x41000048, 64, 0x1000, 1, 0x0, 64, 0x0,
      [⟨63, 0, .rwl⟩]⟩,
   ⟨"LANE_PRBS_ERR", 0x41000050, 64, 0x1000, 1, 0x0, 64, 0x0,
      [⟨63, 63, .ro⟩, ⟨47, 0, .rc⟩]⟩,
   ⟨"LANE_LOCK_LOSS_CNT", 0x41000080, 64, 0x1000, 1, 0x0, 32, 0x0,
      [⟨31, 0, .rc⟩]⟩,
   ⟨"LANE_CV_CNT", 0x41000084, 64, 0x1000, 1, 0x0, 32, 0x0,
      [⟨31, 0, .rc⟩]⟩,
   ⟨"LANE_POL_FLIP_CNT", 0x41000088, 64, 0x1000, 1, 0x0, 32, 0x0,
      [⟨31, 0, .rc⟩]⟩,
   ⟨"LANE_LOS_CNT", 0x4100008C, 64, 0x1000, 1, 0x0, 32, 0x0,
      [⟨31, 0, .rc⟩]⟩]

def regsLane1 : List RegSpec :=
  [⟨"LANE_FEC_CE_CNT", 0x41000090, 64, 0x1000, 1, 0x0, 32, 0x0,
      [⟨31, 0, .rc⟩]⟩,
   ⟨"LANE_FEC_UE_CNT", 0x41000094, 64, 0x1000, 1, 0x0, 32, 0x0,
      [⟨31, 0, .rc⟩]⟩,
   ⟨"LANE_PRBS_RESYNC_CNT", 0x41000098, 64, 0x1000, 1, 0x0, 32, 0x0,
      [⟨31, 0, .rc⟩]⟩]

def regsLane : List RegSpec := regsLane0 ++ regsLane1

def regsFh0 : List RegSpec :=
  [⟨"FH_PORT_STAT", 0x41040000, 64, 0x100, 1, 0x0, 32, 0x0,
      [⟨31, 31, .ro⟩, ⟨30, 28, .ro⟩, ⟨27, 24, .ro⟩, ⟨12, 0, .ro⟩]⟩,
   ⟨"FH_LQ_PUSH", 0x41040020, 64, 0x100, 1, 0x0, 256, 0x0,
      [⟨255, 0, .wo⟩]⟩,
   ⟨"FH_LQ_STAT", 0x41040040, 64, 0x100, 1, 0x0, 32, 0x0,
      [⟨31, 16, .rc⟩, ⟨12, 0, .ro⟩]⟩,
   ⟨"FH_LQ_ERR_LOG", 0x41080000, 1, 0x0, 1, 0x0, 64, 0x0,
      [⟨63, 63, .w1c⟩, ⟨62, 62, .w1c⟩, ⟨61, 56, .ro⟩, ⟨55, 52, .ro⟩, ⟨26, 16, .ro⟩, ⟨15, 12, .ro⟩, ⟨11, 0, .ro⟩]⟩,
   ⟨"FH_TX_FRAME_CNT", 0x41040080, 64, 0x100, 1, 0x0, 32, 0x0,
      [⟨31, 0, .rc⟩]⟩,
   ⟨"FH_TX_LATE_CNT", 0x41040084, 64, 0x100, 1, 0x0, 32, 0x0,
      [⟨31, 0, .rc⟩]⟩,
   ⟨"FH_TX_DOWN_DROP_CNT", 0x41040088, 64, 0x100, 1, 0x0, 32, 0x0,
      [⟨31, 0, .rc⟩]⟩,
   ⟨"FH_WITHDRAWN_CNT", 0x4104008C, 64, 0x100, 1, 0x0, 32, 0x0,
      [⟨31, 0, .rc⟩]⟩,
   ⟨"FH_POISON_WORD_CNT", 0x41040090, 64, 0x100, 1, 0x0, 32, 0x0,
      [⟨31, 0, .rc⟩]⟩,
   ⟨"FH_ARM_OWN_ERR_CNT", 0x41040094, 64, 0x100, 1, 0x0, 32, 0x0,
      [⟨31, 0, .rc⟩]⟩,
   ⟨"FH_LQ_REFUSE_CNT", 0x41040098, 64, 0x100, 1, 0x0, 32, 0x0,
      [⟨31, 0, .rc⟩]⟩,
   ⟨"FH_RX_FRAME_CNT", 0x4104009C, 64, 0x100, 1, 0x0, 32, 0x0,
      [⟨31, 0, .rc⟩]⟩]

def regsFh1 : List RegSpec :=
  [⟨"FH_RX_FCS_CNT", 0x410400A0, 64, 0x100, 1, 0x0, 32, 0x0,
      [⟨31, 0, .rc⟩]⟩,
   ⟨"FH_RX_TYPE_CNT", 0x410400A4, 64, 0x100, 1, 0x0, 32, 0x0,
      [⟨31, 0, .rc⟩]⟩,
   ⟨"FH_RX_UNKNOWN_CNT", 0x410400A8, 64, 0x100, 1, 0x0, 32, 0x0,
      [⟨31, 0, .rc⟩]⟩,
   ⟨"FH_RX_EARLY_CNT", 0x410400AC, 64, 0x100, 1, 0x0, 32, 0x0,
      [⟨31, 0, .rc⟩]⟩,
   ⟨"FH_RX_LATE_CNT", 0x410400B0, 64, 0x100, 1, 0x0, 32, 0x0,
      [⟨31, 0, .rc⟩]⟩,
   ⟨"FH_RX_RANGE_CNT", 0x410400B4, 64, 0x100, 1, 0x0, 32, 0x0,
      [⟨31, 0, .rc⟩]⟩,
   ⟨"FH_RX_OWN_ERR_CNT", 0x410400B8, 64, 0x100, 1, 0x0, 32, 0x0,
      [⟨31, 0, .rc⟩]⟩,
   ⟨"FH_RX_DUP_CNT", 0x410400BC, 64, 0x100, 1, 0x0, 32, 0x0,
      [⟨31, 0, .rc⟩]⟩,
   ⟨"FH_RX_SAFE_DROP_CNT", 0x410400C0, 64, 0x100, 1, 0x0, 32, 0x0,
      [⟨31, 0, .rc⟩]⟩,
   ⟨"FH_PORT_DOWN_CNT", 0x410400C4, 64, 0x100, 1, 0x0, 32, 0x0,
      [⟨31, 0, .rc⟩]⟩]

def regsFh : List RegSpec := regsFh0 ++ regsFh1

def regsHx0 : List RegSpec :=
  [⟨"HX_LINK_STAT", 0x41400000, 1, 0x0, 1, 0x0, 32, 0x0,
      [⟨31, 31, .ro⟩, ⟨30, 30, .ro⟩, ⟨29, 29, .ro⟩, ⟨28, 26, .ro⟩, ⟨25, 21, .ro⟩, ⟨20, 20, .ro⟩, ⟨19, 19, .ro⟩, ⟨15, 0, .ro⟩]⟩,
   ⟨"HX_GRACE_STAT", 0x41400008, 1, 0x0, 1, 0x0, 32, 0x0,
      [⟨31, 31, .ro⟩, ⟨15, 0, .ro⟩]⟩,
   ⟨"HX_EVT_CAUSE", 0x41400010, 1, 0x0, 1, 0x0, 32, 0x0,
      [⟨15, 0, .w1c⟩]⟩,
   ⟨"HX_FW_EVT", 0x41400014, 1, 0x0, 1, 0x0, 32, 0x0,
      [⟨1, 0, .wo⟩]⟩,
   ⟨"HX_LOSS_CNT", 0x41400100, 1, 0x0, 1, 0x0, 32, 0x0,
      [⟨31, 0, .rc⟩]⟩,
   ⟨"HX_UNDERRATE_CNT", 0x41400104, 1, 0x0, 1, 0x0, 32, 0x0,
      [⟨31, 0, .rc⟩]⟩,
   ⟨"HX_PERST_CNT", 0x41400108, 1, 0x0, 1, 0x0, 32, 0x0,
      [⟨31, 0, .rc⟩]⟩,
   ⟨"HX_DB_ERR_CNT", 0x4140010C, 1, 0x0, 1, 0x0, 32, 0x0,
      [⟨31, 0, .rc⟩]⟩,
   ⟨"HX_FETCH_ERR_CNT", 0x41400110, 1, 0x0, 1, 0x0, 32, 0x0,
      [⟨31, 0, .rc⟩]⟩,
   ⟨"HX_CQ_OVF_CNT", 0x41400114, 1, 0x0, 1, 0x0, 32, 0x0,
      [⟨31, 0, .rc⟩]⟩,
   ⟨"HX_LD_REC_DROP_CNT", 0x41400118, 1, 0x0, 1, 0x0, 32, 0x0,
      [⟨31, 0, .rc⟩]⟩,
   ⟨"HX_LD_DATA_DROP_CNT", 0x4140011C, 1, 0x0, 1, 0x0, 32, 0x0,
      [⟨31, 0, .rc⟩]⟩]

def regsHx1 : List RegSpec :=
  [⟨"HX_WIN_ERR_CNT", 0x41400120, 1, 0x0, 1, 0x0, 32, 0x0,
      [⟨31, 0, .rc⟩]⟩,
   ⟨"HX_ATS_FAIL_CNT", 0x41400124, 1, 0x0, 1, 0x0, 32, 0x0,
      [⟨31, 0, .rc⟩]⟩,
   ⟨"HX_BAR2_ERR_CNT", 0x41400128, 1, 0x0, 1, 0x0, 32, 0x0,
      [⟨31, 0, .rc⟩]⟩,
   ⟨"HX_CFG_DENY_CNT", 0x4140012C, 1, 0x0, 1, 0x0, 32, 0x0,
      [⟨31, 0, .rc⟩]⟩,
   ⟨"HX_JQ_BASE", 0x41401000, 64, 0x20, 1, 0x0, 64, 0x0,
      [⟨43, 0, .rw⟩]⟩,
   ⟨"HX_JQ_CFG", 0x41401008, 64, 0x20, 1, 0x0, 32, 0x0,
      [⟨31, 31, .rw⟩, ⟨12, 0, .rw⟩]⟩,
   ⟨"HX_CQ_BASE", 0x41402000, 64, 0x20, 1, 0x0, 64, 0x0,
      [⟨43, 0, .rw⟩]⟩,
   ⟨"HX_CQ_CFG", 0x41402008, 64, 0x20, 1, 0x0, 32, 0x0,
      [⟨31, 31, .rw⟩, ⟨12, 0, .rw⟩]⟩,
   ⟨"HX_JQ_TAIL", 0x4140100C, 64, 0x20, 1, 0x0, 32, 0x0,
      [⟨11, 0, .rw⟩]⟩,
   ⟨"HX_CQ_HEAD", 0x4140200C, 64, 0x20, 1, 0x0, 32, 0x0,
      [⟨11, 0, .rw⟩]⟩,
   ⟨"HX_JQ_HEAD", 0x41401010, 64, 0x20, 1, 0x0, 32, 0x0,
      [⟨11, 0, .ro⟩]⟩,
   ⟨"HX_CQ_STAT", 0x41402010, 64, 0x20, 1, 0x0, 32, 0x0,
      [⟨31, 31, .ro⟩, ⟨30, 30, .w1c⟩, ⟨11, 0, .ro⟩]⟩]

def regsHx2 : List RegSpec :=
  [⟨"HX_WIN_BASE", 0x41403000, 16, 0x10, 1, 0x0, 64, 0x0,
      [⟨63, 63, .rw⟩, ⟨62, 62, .rw⟩, ⟨61, 61, .rw⟩, ⟨43, 12, .rw⟩]⟩,
   ⟨"HX_WIN_LIMIT", 0x41403008, 16, 0x10, 1, 0x0, 64, 0x0,
      [⟨43, 12, .rw⟩]⟩,
   ⟨"HX_BAR2_MAP", 0x41404000, 512, 0x4, 1, 0x0, 32, 0x0,
      [⟨31, 31, .ro⟩, ⟨12, 8, .ro⟩, ⟨7, 0, .ro⟩]⟩,
   ⟨"HX_MSIX_ADDR", 0x41410000, 80, 0x10, 1, 0x0, 64, 0x0,
      [⟨63, 2, .rw⟩]⟩,
   ⟨"HX_MSIX_DATA", 0x41410008, 80, 0x10, 1, 0x0, 64, 0x100000000,
      [⟨32, 32, .rw⟩, ⟨31, 0, .rw⟩]⟩,
   ⟨"HX_MSIX_PBA", 0x41411000, 2, 0x8, 1, 0x0, 64, 0x0,
      [⟨63, 0, .ro⟩]⟩]

def regsHx : List RegSpec := regsHx0 ++ regsHx1 ++ regsHx2

def regsNvm0 : List RegSpec :=
  [⟨"NVM_BOOT_STAT", 0x41800000, 1, 0x0, 1, 0x0, 32, 0x0,
      [⟨31, 31, .ro⟩, ⟨30, 30, .ro⟩, ⟨29, 28, .ro⟩, ⟨27, 27, .ro⟩, ⟨15, 0, .ro⟩]⟩,
   ⟨"JNL_STAT", 0x41800010, 1, 0x0, 1, 0x0, 32, 0x0,
      [⟨31, 31, .ro⟩, ⟨30, 30, .ro⟩, ⟨17, 0, .ro⟩]⟩,
   ⟨"JNL_CAL_SAVE", 0x41800020, 1, 0x0, 1, 0x0, 32, 0x0,
      [⟨31, 31, .wo⟩, ⟨23, 16, .rw⟩, ⟨15, 0, .rw⟩]⟩,
   ⟨"NVM_WP_DENY_CNT", 0x41800100, 1, 0x0, 1, 0x0, 32, 0x0,
      [⟨31, 0, .rc⟩]⟩,
   ⟨"JNL_WRITE_CNT", 0x41800104, 1, 0x0, 1, 0x0, 32, 0x0,
      [⟨31, 0, .rc⟩]⟩,
   ⟨"JNL_CRC_SKIP_CNT", 0x41800108, 1, 0x0, 1, 0x0, 32, 0x0,
      [⟨31, 0, .rc⟩]⟩,
   ⟨"JNL_DROP_CNT", 0x4180010C, 1, 0x0, 1, 0x0, 32, 0x0,
      [⟨31, 0, .rc⟩]⟩,
   ⟨"JNL_COMPACT_CNT", 0x41800110, 1, 0x0, 1, 0x0, 32, 0x0,
      [⟨31, 0, .rc⟩]⟩]

def regsNvm : List RegSpec := regsNvm0

def regsPlb0 : List RegSpec :=
  [⟨"PLB_STAT", 0x41C00000, 1, 0x0, 1, 0x0, 32, 0x0,
      [⟨31, 31, .ro⟩, ⟨21, 16, .ro⟩, ⟨7, 0, .ro⟩]⟩,
   ⟨"PLB_CAUSE", 0x41C00004, 1, 0x0, 1, 0x0, 32, 0x0,
      [⟨16, 1, .ro⟩]⟩,
   ⟨"PLB_COND", 0x41C00008, 1, 0x0, 1, 0x0, 32, 0x0,
      [⟨16, 1, .ro⟩]⟩,
   ⟨"PLB_CLEAR", 0x41C00010, 1, 0x0, 1, 0x0, 32, 0x0,
      [⟨31, 31, .wo⟩, ⟨1, 0, .ro⟩]⟩,
   ⟨"PLB_WDT", 0x41C00020, 8, 0x4, 1, 0x0, 32, 0x0,
      [⟨31, 31, .rw⟩, ⟨7, 0, .wo⟩]⟩,
   ⟨"PLB_MASK", 0x41C00040, 1, 0x0, 1, 0x0, 32, 0x0,
      [⟨0, 0, .rw⟩]⟩,
   ⟨"PLB_MAINT_START", 0x41C00080, 1, 0x0, 1, 0x0, 32, 0x0,
      [⟨31, 31, .wo⟩, ⟨26, 24, .rw⟩, ⟨12, 0, .rw⟩]⟩,
   ⟨"PLB_MAINT_STAT", 0x41C00090, 8, 0x4, 1, 0x0, 32, 0x0,
      [⟨31, 31, .ro⟩, ⟨30, 28, .ro⟩, ⟨27, 24, .ro⟩, ⟨23, 20, .ro⟩, ⟨15, 0, .ro⟩]⟩,
   ⟨"PLB_GPIO_STAT", 0x41C00100, 1, 0x0, 1, 0x0, 32, 0x0,
      [⟨31, 0, .w1c⟩]⟩,
   ⟨"PLB_THERM", 0x41C00108, 1, 0x0, 1, 0x0, 32, 0x0,
      [⟨31, 31, .ro⟩, ⟨30, 30, .ro⟩, ⟨19, 0, .ro⟩]⟩,
   ⟨"PLB_SAFE_CNT", 0x41C00204, 16, 0x4, 1, 0x0, 32, 0x0,
      [⟨31, 0, .rc⟩]⟩,
   ⟨"PLB_CLR_DENY_CNT", 0x41C00280, 1, 0x0, 1, 0x0, 32, 0x0,
      [⟨31, 0, .rc⟩]⟩]

def regsPlb1 : List RegSpec :=
  [⟨"PLB_MAINT_DENY_CNT", 0x41C002A0, 8, 0x4, 1, 0x0, 32, 0x0,
      [⟨31, 0, .rc⟩]⟩,
   ⟨"PLB_GPIO_FAULT_CNT", 0x41C002C0, 1, 0x0, 1, 0x0, 32, 0x0,
      [⟨31, 0, .rc⟩]⟩,
   ⟨"PLB_THERM_WARN_CNT", 0x41C002C4, 1, 0x0, 1, 0x0, 32, 0x0,
      [⟨31, 0, .rc⟩]⟩,
   ⟨"PLB_THERM_ALERT_CNT", 0x41C002C8, 1, 0x0, 1, 0x0, 32, 0x0,
      [⟨31, 0, .rc⟩]⟩,
   ⟨"PLB_LOG_DROP_CNT", 0x41C002CC, 1, 0x0, 1, 0x0, 32, 0x0,
      [⟨31, 0, .rc⟩]⟩,
   ⟨"PLB_WR_DENY_CNT", 0x41C002D0, 1, 0x0, 1, 0x0, 32, 0x0,
      [⟨31, 0, .rc⟩]⟩,
   ⟨"PLB_SENSOR_EXCL_CNT", 0x41C002D4, 1, 0x0, 1, 0x0, 32, 0x0,
      [⟨31, 0, .rc⟩]⟩]

def regsPlb : List RegSpec := regsPlb0 ++ regsPlb1

def regsTile0 : List RegSpec :=
  [⟨"TILE_STAT", 0x42000000, 192, 0x1000, 1, 0x0, 32, 0x0,
      [⟨31, 30, .ro⟩, ⟨29, 24, .ro⟩, ⟨20, 10, .ro⟩, ⟨7, 0, .ro⟩]⟩,
   ⟨"TILE_CP_STAT", 0x42000004, 192, 0x1000, 1, 0x0, 32, 0x0,
      [⟨31, 30, .ro⟩, ⟨29, 24, .ro⟩, ⟨20, 10, .ro⟩]⟩,
   ⟨"TILE_EXC_CNT", 0x42000010, 192, 0x1000, 1, 0x0, 32, 0x0,
      [⟨31, 0, .rc⟩]⟩,
   ⟨"TILE_UNHANDLED_CNT", 0x42000014, 192, 0x1000, 1, 0x0, 32, 0x0,
      [⟨31, 0, .rc⟩]⟩,
   ⟨"TILE_CP_ERR_CNT", 0x42000018, 192, 0x1000, 1, 0x0, 32, 0x0,
      [⟨31, 0, .rc⟩]⟩,
   ⟨"TILE_STEND_IGN_CNT", 0x4200001C, 192, 0x1000, 1, 0x0, 32, 0x0,
      [⟨31, 0, .rc⟩]⟩,
   ⟨"TILE_STOP_CNT", 0x42000020, 192, 0x1000, 1, 0x0, 32, 0x0,
      [⟨31, 0, .rc⟩]⟩]

def regsTile : List RegSpec := regsTile0

/-- Every register of the device but the configuration space and the CXL component registers. -/
def regTable : List RegSpec :=
  regsDev ++ regsPwr ++ regsClk ++ regsTb ++ regsCmp ++ regsNoc ++ regsMem ++ regsDma ++ regsCce ++ regsMtx ++ regsSdc ++ regsLane ++ regsFh ++ regsHx ++ regsNvm ++ regsPlb ++ regsTile

/-- The address of instance (i, j) of a register. -/
def RegSpec.addr (r : RegSpec) (i j : Nat) : Nat := r.base + i * r.s1 + j * r.s2

/-- Whether `a` is the address of some instance of `r`, the register's first byte. -/
def RegSpec.covers (r : RegSpec) (a : Nat) : Bool :=
  if a < r.base then false
  else
    let o := a - r.base
    if r.s1 = 0 then o == 0
    else if r.s2 = 0 then o % r.s1 == 0 && o / r.s1 < r.n1
    else o / r.s1 < r.n1 && o % r.s1 % r.s2 == 0 && o % r.s1 / r.s2 < r.n2

/-- The blocks' base addresses and tables (Table 18-2). -/
def regBlocks : List (Nat × Nat × List RegSpec) :=
  [(0x40000000, 0x40100000, regsDev),
   (0x40100000, 0x40200000, regsPwr),
   (0x40200000, 0x40300000, regsClk),
   (0x40300000, 0x40400000, regsTb),
   (0x40400000, 0x40500000, regsCmp),
   (0x40500000, 0x40600000, regsNoc),
   (0x40600000, 0x40800000, regsMem),
   (0x40800000, 0x40A00000, regsDma),
   (0x40A00000, 0x40C00000, regsCce),
   (0x40C00000, 0x40E00000, regsMtx),
   (0x40E00000, 0x41000000, regsSdc),
   (0x41000000, 0x41040000, regsLane),
   (0x41040000, 0x41400000, regsFh),
   (0x41400000, 0x41800000, regsHx),
   (0x41800000, 0x41C00000, regsNvm),
   (0x41C00000, 0x42000000, regsPlb),
   (0x42000000, 0x44000000, regsTile)]

/-- The register whose first byte lies at `a`, if any (R421: none elsewhere). -/
def regAt (a : Nat) : Option RegSpec :=
  regBlocks.findSome? fun (lo, hi, rs) => if lo ≤ a ∧ a < hi then rs.find? (·.covers a) else none

/-- The reset value of the register at `a` (R425); 0 where no register stands. -/
def regReset (a : Nat) : Nat :=
  match regAt a with
  | some r => r.reset
  | none => 0

end Sys2Proof.Machine
end

