-- ==== Sys2Proof/Machine/State.lean ====
section
/-! DEFINITION. The state of the SX9064 as plain data: Meridian's counter, the register file, the banks, the cores, the
Compass unit, the queues and engines, the loaded image, the flash and fuses, the pins, and the queue of commands. -/

namespace Sys2Proof.Machine

/-! ### The loaded image (Tables 16-3 to 16-31) -/

/-- One segment of a cost function: breakpoint, value and Q16.16 slope (R23). -/
structure Seg where
  x : Nat
  y : Int
  s : Int
  deriving DecidableEq, Repr

/-- A flag binding (Table 16-27). -/
structure FlagBind where
  source : Nat
  arg0 : Nat
  arg1 : Nat
  arg2 : Nat
  deriving DecidableEq, Repr

/-- A handover entry of a stage (Table 16-26): the new owner is fixed, or the instance booked for a class. -/
structure Handover where
  bank : Nat
  byClass : Bool
  owner : Nat
  deriving DecidableEq, Repr

/-- A stage entry of a template (Table 16-26). -/
structure StageT where
  cls : Nat
  post : Bool
  hxInst : Nat
  descArg : Nat
  relOff : Nat
  dlOff : Nat
  evMask : Nat
  selfCancel : Nat
  flags : List FlagBind
  base : Int
  f0 : List Seg
  f1 : List Seg
  f2 : List Seg
  handover : List Handover
  oboByClass : Bool
  obo : Nat
  deriving DecidableEq, Repr

/-- A template (Tables 16-25 and 02-2). -/
structure Template where
  dl : Bool
  extraPasses : Nat
  profileMask : Nat
  jobDlOff : Nat
  pMin : List Nat
  pMax : List Nat
  carrierSet : Nat
  cands : List (List Nat)
  stages : List StageT
  deriving DecidableEq, Repr

/-- A context entry (Table 16-21). -/
structure CtxT where
  enabled : Bool
  mu : Nat
  ecp : Bool
  grouped : Bool
  lg : Nat
  initProfile : Nat
  profiles : Nat
  toff : Nat
  taOff : Nat
  deriving DecidableEq, Repr

/-- A carrier entry (Table 16-22). -/
structure CarrierT where
  bound : Bool
  dss : Bool
  nrHalf : Bool
  dcSkip : Bool
  deriving DecidableEq, Repr

/-- A chain entry (Table 16-23). -/
structure ChainT where
  bound : Bool
  tx : Bool
  ctx : Nat
  stream : Nat
  fLine : Nat
  deriving DecidableEq, Repr

/-- A port entry (Table 16-18). -/
structure PortT where
  type : Nat
  fec : Nat
  cpriVer : Nat
  vlanEn : Bool
  srcMac : Nat
  vlanTci : Nat
  deriving DecidableEq, Repr

/-- A PTP port entry (Table 16-14) and the port's transparent-clock forwarding port (Table 16-13). -/
structure PtpPortT where
  logDelayReq : Int
  logSync : Int
  masterOnly : Bool
  en : Bool
  localPriority : Nat
  tcFwd : Nat
  deriving DecidableEq, Repr

/-- A stream entry (Table 16-19). -/
structure StreamT where
  port : Nat
  stream : Nat
  dl : Bool
  bfp : Bool
  iqWidth : Nat
  eaxc : Nat
  contBits : Nat
  carrier : Nat
  nprb : Nat
  prbBytes : Nat
  cap : Nat
  tAdvU : Nat
  tAdvC : Nat
  txWin : Nat
  rxStart : Int
  rxEnd : Int
  ringBank : Nat
  ringSlots : Nat
  ringStride : Nat
  symPerBank : Nat
  areaOff : Nat
  dstMac : Nat
  deriving DecidableEq, Repr

/-- A GPIO entry (Table 16-15). -/
structure GpioT where
  dir : Nat
  init : Nat
  safe : Nat
  deriving DecidableEq, Repr

/-- A guaranteed range of a requester (Table 16-28). -/
structure RangeT where
  who : Nat
  flow : Nat
  retFlow : Nat
  first : Nat
  last : Nat
  deriving DecidableEq, Repr

/-- The entry of a DSP stage: its TVEC and entry address (Table 16-29). -/
structure EntryT where
  template : Nat
  stage : Nat
  tvec : Nat
  entry : Nat
  deriving DecidableEq, Repr

/-- What the running image holds beyond the registers it is loaded into. -/
structure Image where
  present : Bool
  secVer : Nat
  signed : Bool
  -- board section
  refclk : Nat
  pec : Bool
  pmbAddr : Nat
  tunePwrup : Nat
  subsysId : Nat
  voutNom : Nat
  voutWin : List Nat
  hxMinRate : Nat
  hxMinWidth : Nat
  hxCap : Nat
  graceMs : Nat
  eq : List (List Nat)
  -- clock and time
  seCand : List Nat
  ptpDomain : Nat
  ptpMac : Bool
  priority2 : Nat
  ptpPorts : SMap PtpPortT
  -- pads
  gpio : SMap GpioT
  safeWord : Option Nat
  safeNLock : Bool
  -- power policy
  upstream : Nat
  retainCmp : Bool
  retainSdc : Bool
  clSleepEn : Nat
  backoffMs : Nat
  -- fronthaul map
  ports : SMap (Option PortT)
  streams : List StreamT
  -- carriers and profiles
  ctx : SMap CtxT
  lgUsed : Nat
  lgMu : SMap Nat
  carriers : SMap CarrierT
  chains : SMap ChainT
  profWords : SMap Word
  -- templates
  classB : List Nat
  classF : List Nat
  templates : SMap (Option Template)
  -- NoC tables
  reqPrio : SMap Nat
  ranges : List RangeT
  -- memory and code map
  home : SMap Nat
  tileCode : SMap Nat
  entries : List EntryT
  deriving DecidableEq, Repr

/-! ### The banks -/

/-- One entry of a block's correction tracker (R228). -/
structure TrkEntry where
  word : Nat
  count : Nat
  wb : Bool
  deriving DecidableEq, Repr

/-- A block's scrubber: when its lap started, the lines checked per bank, whether a bank was skipped, and the corrected
write-backs that wait for an idle cycle, each with whether the tracker's count 8 asked for it (R226 to R228). -/
structure Scrub where
  lapStart : Nat
  pos : SMap Nat
  skipped : Bool
  writeBacks : List (Nat × Bool)
  deriving DecidableEq, Repr

/-- The banks of the device, by internal byte address or by 64-bit word index (address / 8). -/
structure Banks where
  /-- the stored bytes -/
  bytes : SMap Byte
  /-- words stored poisoned (R222) -/
  poison : SMap Bool
  /-- flipped cells of a word: data bits [63:0], check bits [79:64] -/
  flips : SMap (BitVec 80)
  /-- stuck cells of a word's data: mask and level -/
  stuckMask : SMap DWord
  stuckLevel : SMap DWord
  /-- the old owner of a bank in handover, by global bank number (R211) -/
  oldOwner : SMap (Option Nat)
  /-- words directed to a spare word (R230) -/
  spare : SMap Bool
  /-- entry n of block c's tracker at 32c + n -/
  tracker : SMap (Option TrkEntry)
  scrub : SMap Scrub
  deriving DecidableEq, Repr

/-! ### Gelvipa and Zelfa cores -/

/-- An operand address generator (R82). -/
structure AddrGen where
  base : Word
  index : Word
  step : Word
  len : Word
  mode : Word
  deriving DecidableEq, Repr

/-- A coprocessor operation issued and not yet complete: its code, its error, where its result goes, the bytes and
whether a poisoned word was read (R93 to R96). -/
structure CpOp where
  code : Nat
  err : Nat
  dst : Nat
  bytes : List Byte
  poison : Bool
  deriving DecidableEq, Repr

/-- A core: Gelvipa core of a tile with its vector unit and coprocessor, or a Zelfa core (R76 to R139, R400 to R403). -/
structure Core where
  /-- 0 idle, 1 running, 2 halted by R103, 3 debug halt (TILE_STAT) -/
  state : Nat
  /-- the state a debug halt left (R429) -/
  haltedFrom : Nat
  /-- a debug halt that waits for the end of a REP sequence (R87) -/
  haltPend : Bool
  pc : Word
  g : SMap Word
  gPoison : BitVec 32
  tvec : Word
  epc : Word
  ecause : Word
  eval : Word
  ien : Word
  lc : Word
  ls : Word
  le : Word
  rcnt : Word
  ag0 : AddrGen
  ag1 : AddrGen
  ag2 : AddrGen
  dw : SMap Word
  v : SMap VReg
  vPoison : SMap (BitVec 16)
  masks : SMap VReg
  vsat : Bool
  rm : BitVec 2
  vstart : BitVec 11
  vl : BitVec 11
  vtype : BitVec 4
  vseg : BitVec 11
  vxcause : BitVec 4
  cpBusy : Option CpOp
  cpValid : Bool
  cpOp : BitVec 8
  cpErr : BitVec 4
  cpDonePend : Bool
  inHandler : Bool
  /-- a REP sequence under way: the repetitions left and the REP's address, and how many of them the next command carries
  out (0: all) before a budget stop can end the sequence (R87) -/
  rep : Option (Nat × Word)
  repPart : Nat
  /-- an MTC that the next instruction does not yet see, and, while an instruction is under way, the one that takes effect
  at its end unless the instruction writes the CSR itself (R84) -/
  mtc : Option (Nat × Word)
  mtcHeld : Option (Nat × Word)
  /-- the stage the core runs or ran last, with its selection edge and its budget (R105) -/
  job : Nat
  stage : Nat
  selEdge : Nat
  budget : Nat
  /-- Zelfa: ZIEN, the latched ZCYCLE_HI and the edge of its start (Table 16-32) -/
  zien : Word
  zcycleHi : Word
  startEdge : Nat
  deriving DecidableEq, Repr

/-! ### Compass -/

inductive StageState where
  | pending | ready | running | done | stopped | withdrawn
  deriving DecidableEq, Repr

/-- One stage of an accepted job (R56 to R63). -/
structure Stage where
  st : StageState
  cls : Nat
  inst : Nat
  q : Nat
  cost : Nat
  lo : Nat
  hi : Nat
  /-- ledger fragments: bin and amount, latest bin first (R28) -/
  frags : List (Nat × Nat)
  flags : BitVec 32
  absent : BitVec 32
  readyEdge : Nat
  selEdge : Nat
  deriving DecidableEq, Repr

/-- A job in flight (R72). -/
structure Job where
  tag : Word
  jq : Nat
  cq : Nat
  irq : Bool
  templateNo : Nat
  t : Template
  w : Nat
  carrier : Nat
  params : List Nat
  args : List Word
  inAddr : Nat
  inLen : Nat
  outAddr : Nat
  outLen : Nat
  flowEn : Bool
  flow : Nat
  seq : Nat
  tg : Nat
  order : Nat
  stages : List Stage
  /-- the COMPLETE record has been issued -/
  recorded : Bool
  /-- closed early -/
  closed : Bool
  /-- the final stage has completed (R66) -/
  begun : Bool
  faultSeen : Bool
  overrunSeen : Bool
  cancelSeen : Bool
  missingSeen : Bool
  missStage : Nat
  missFlags : BitVec 32
  /-- the edge count of the first release at a missing-input point (R36) -/
  missTick : Nat
  results : SMap Word
  /-- the stage whose SETRES set each RESULT last (R107) -/
  resultBy : SMap Nat
  outWritten : Nat
  clipped : Bool
  /-- the cancel that selected the job and the dispatchers its closing has reached (R41, R64) -/
  cancelId : Option Nat
  reached : BitVec 5
  /-- the bin in which one HX_BW 0 unit stays booked for the record (R338) -/
  recBin : Option Nat
  /-- banks the job's handover lists moved and that have not returned (R214) -/
  moved : List Nat
  deriving DecidableEq, Repr

/-- An item of an ordered flow: its handle, sequence number and guaranteed time; a hole keeps its place (R67). -/
structure FlowItem where
  seq : Nat
  handle : Nat
  tg : Nat
  waiting : Bool
  hole : Bool
  deriving DecidableEq, Repr

/-- An ordered flow (R67, R70). -/
structure Flow where
  head : Nat
  tail : Nat
  dirValid : Bool
  dl : Bool
  items : List FlowItem
  /-- the parity bit stored with the flow (R71) -/
  parity : Bool
  deriving DecidableEq, Repr

/-- A cancel whose acknowledgement has not been issued (R41). -/
structure CancelRec where
  id : Nat
  cq : Nat
  tag : Word
  mask : Word
  ack : Bool
  matched : Nat
  /-- the selected jobs: handle and admission order -/
  sel : List (Nat × Nat)
  deriving DecidableEq, Repr

structure Compass where
  jobs : SMap (Option Job)
  /-- handles never yet given since the free queue was set up, then the freed ones in order (R72) -/
  fresh : Nat
  freed : List Nat
  order : Nat
  flows : SMap Flow
  /-- the fill of calendar q's bin, at q × 4,096 + bin mod 4,096 (R25) -/
  cal : SMap Nat
  /-- calendar words whose stored parity the environment has broken (Table 17-1, LEDGER; log 8) -/
  calBad : SMap Bool
  /-- what occupies instance q: job handle and stage index -/
  running : SMap (Option (Nat × Nat))
  /-- waiting-time counts: bucket k of instance q at 16q + k (R74) -/
  hist : SMap Nat
  /-- units occupied in the current 1 ms window by stages that have ended, and in the last completed window (CMP_BUSY) -/
  busy : SMap Nat
  busyLast : SMap Nat
  cancels : List CancelRec
  cancelNo : Nat
  /-- records fetched and not yet taken, with their job queue -/
  inbox : List (Nat × BitVec 1024)
  lastJq : Nat
  /-- record intake is held by a power request -/
  held : Bool
  deriving DecidableEq, Repr

/-! ### Fronthaul -/

/-- A launch entry held by a port (Table 12-4), in push order. -/
structure LqEntry where
  order : Nat
  job : Nat
  kind : Nat
  stream : Nat
  len : Nat
  launch : Nat
  payload : Nat
  eligible : Bool
  armed : Bool
  deriving DecidableEq, Repr

/-- A stream's symbol while it is being received: the PRBs written, one bit each, whether it is complete, and whether the
bank that holds it has been handed over (R281, R282). -/
structure RxSym where
  prbs : Nat
  complete : Bool
  handed : Bool
  deriving DecidableEq, Repr

/-! ### Sample-domain chains -/

/-- A chain's state between stages (R185 to R204). -/
structure Chain where
  /-- the next expected line index (R194) -/
  nextIdx : Nat
  /-- the next RUN starts with a synchronising reset (R196) -/
  needSync : Bool
  /-- input samples, and for TX line samples produced, since the last synchronising reset -/
  count : Nat
  outs : Nat
  /-- position of the next resampler output, in 2^-28 input samples (R188) -/
  pos : Nat
  /-- the half-band stages' delay lines in processing order, each latest first (R187) -/
  lines : List (List Sample)
  /-- the resampler's delay line, latest first (R188) -/
  hist : List Sample
  /-- invalid outputs still to come (R197) -/
  fillLeft : Nat
  bankB : Bool
  /-- a running fade: target, length, next output -/
  fade : Option (Bool × Nat × Nat)
  /-- a swap request that starts at the next resampler output when no fade runs -/
  queued : Option (Bool × Nat)
  /-- the latest valid output samples since the estimators restarted, latest first, at most 1,024 (R199) -/
  valid : List Word
  deriving DecidableEq, Repr

/-! ### Orthogon -/

/-- An outstanding reservation of a requester (R244, R245). -/
structure Resv where
  who : Ident
  tag : Nat
  injected : Nat
  /-- router and local port of the requester -/
  rtr : Nat
  port : Nat
  /-- which of the requesters that share the identity -/
  sub : Nat
  /-- what it asked for: a write or a read, the address and the length -/
  write : Bool
  addr : Nat
  len : Nat
  deriving DecidableEq, Repr

/-- What a response has left in a requester's buffer: STATUS, or none for an error completion, and the read data with their
poison (R245 to R247). -/
structure Taken where
  who : Ident
  port : Nat
  tag : Nat
  status : Option Nat
  data : List (Byte × Bool)
  deriving DecidableEq, Repr

/-- A packet under way through a router input: its output port, the flits still to come, its flit header and its
requester (R242, R248). -/
structure FlitPath where
  out : Nat
  left : Nat
  hdr : BitVec 56
  src : Nat
  deriving DecidableEq, Repr

/-- A flit that waits at a router: its input and output, header and lanes, the cycle it came in, and whether it gave its slot
to an old-epoch flit (R242, R254). -/
structure WaitFlit where
  inp : Nat
  out : Nat
  hdr : BitVec 56
  lanes : BitVec 512
  since : Nat
  deferred : Bool
  deriving DecidableEq, Repr

structure Noc where
  /-- `ticks` at the common edge after root-PLL lock, from which slots count (R241) -/
  base : Nat
  /-- wheel entries at (router × 16 + port) × 256 + slot -/
  wheelAct : SMap Word
  wheelSh : SMap Word
  wheelOld : SMap Word
  brgOld : List Nat
  resv : List Resv
  /-- timed-out requester tags whose response is discarded -/
  expired : List Resv
  /-- an input that resynchronises after a bad flit header, at router × 16 + port (R248) -/
  resync : SMap Bool
  /-- packets under way, at ((router × 16 + port) × 4 + VC) × 4,096 + FLOW -/
  paths : SMap (Option FlitPath)
  /-- flits that wait, by router (R242) -/
  wait : SMap (List WaitFlit)
  /-- the input whose packet is under way, at (router × 16 + output) × 4 + VC -/
  hold : SMap (Option Nat)
  /-- the input served last, at router × 16 + output -/
  served : SMap Nat
  /-- one more than the last cycle in which an output has sent, at router × 16 + output -/
  sent : SMap Nat
  /-- responses that requesters have taken -/
  taken : List Taken
  /-- `ticks` at the last shadow write, commit or end of a drain (R253) -/
  markAt : Nat
  /-- the tick of each uncorrectable flit error of a mesh link in the last millisecond (R407) -/
  ueAt : SMap (List Nat)
  deriving DecidableEq, Repr

/-! ### Cluster DMA -/

/-- A held START (R269). -/
structure HeldStart where
  obo : Ident
  job : Option (Nat × Nat)
  ctrl : Nat
  dropped : Bool
  deriving DecidableEq, Repr

/-- The block a channel moves (R259, R263): source, destination, length and what follows it. -/
structure DmaBlock where
  src : Nat
  dst : Nat
  len : Nat
  side : Bool
  int : Bool
  fin : Bool
  deriving DecidableEq, Repr

/-- A destination router a channel has written since its last write-back: the transfer's first byte written there, and the
last line written, with the host's answer to its translation (R265, R336). -/
structure DmaRtr where
  rtr : Nat
  first : Nat
  last : Nat
  len : Nat
  trans : Bool
  deriving DecidableEq, Repr

/-- A channel's state beyond its registers. -/
structure DmaCh where
  /-- bytes written since START, and what was written since the last returned write-back reads (R265, R268) -/
  moved : Nat
  wrote : List DmaRtr
  /-- destinations whose bytes are not yet confirmed, in the order written -/
  tail : List (Nat × Nat)
  /-- an END has been met since START (R264) -/
  metEnd : Bool
  /-- the bus error this channel met: its address and the bytes that stay counted (R268) -/
  fail : Option (Nat × Nat)
  obo : Ident
  /-- the job latched at START, by its handle and its admission order (R52, R261) -/
  job : Option (Nat × Nat)
  srcPtr : Nat
  dstPtr : Nat
  entry : Nat
  /-- COUNT at the last list fetch, all 16 bits (R271) -/
  seen : Nat
  block : Option DmaBlock
  held : Option HeldStart
  deriving DecidableEq, Repr

/-! ### Meridian and the servo -/

structure Meridian where
  sec : Nat
  /-- CLK_TB edge in the second, 0 to 491,519,999 -/
  edge : Nat
  /-- CLK_TB edges since reset, whatever Meridian's value -/
  ticks : Nat
  /-- CLK_TB edges counted in RUN and IDLE: the time base of scrubber laps (R227) -/
  runTicks : Nat
  counting : Bool
  dapSec : Nat
  dapFrac : Nat
  /-- SEC requested by TB_SET (R303) -/
  setSec : Option Nat
  /-- one more than the edge count at which a COMMIT was armed: context n at n, lock group g at 64 + g (R327) -/
  armed : SMap Nat
  deriving DecidableEq, Repr

/-- The servo (R311 to R315): phase errors in 2^-16 ns, frequencies in 2^-47 × 10^-15. -/
structure Servo where
  i : Int
  y : Int
  yHold : Int
  hist : List Int
  good : Nat
  bad : Nat
  ptp : Option Int
  pps : Option Int
  tod : Option Int
  agePtp : Nat
  agePps : Nat
  ageTod : Nat
  timerRun : Bool
  timerStart : Nat
  lockedTicks : Nat
  holdSavedAt : Option Nat
  lastTick : Option Nat
  /-- the latest PPS_IN edge: ticks and the captured time in 2^-16 ns -/
  lastPps : Option (Nat × Nat)
  /-- code applied to TUNE_OUT (R320) -/
  dacOut : Nat
  /-- edge count at which the last PPS_OUT pulse rose (R316) -/
  ppsRise : Option Nat
  /-- the first second for which PPS_OUT rises since TIME_VALID became 1 (R316) -/
  ppsFrom : Nat
  /-- edge count of the latest change of CODE, and CODE before that edge (R321) -/
  codeNew : Option (Nat × Nat)
  /-- the fractional words of the root PLL and of the 16 lane-group PLLs, less their nominal values, in 10^-15 (R313) -/
  pll : List Int
  /-- the second that the last time-of-day message named (R318) -/
  todSent : Option Nat
  deriving DecidableEq, Repr

/-! ### Engines -/

/-- A lock of a HARQ port: SB_ADDR, the length of the descriptor's soft buffers, and the calendar index that holds it (R159). -/
structure SbLock where
  addr : Nat
  len : Nat
  inst : Nat
  deriving DecidableEq, Repr

structure Engines where
  /-- an accelerator's or chain's descriptor has written its status and its stage may complete (R146), by calendar index -/
  done : SMap Bool
  /-- an engine that cannot run its descriptor (R145), by calendar index -/
  halted : SMap Bool
  /-- the HARQ port's locks, by sector (R159) -/
  locks : SMap (List SbLock)
  deriving DecidableEq, Repr

/-- A received PTP event message with its receive stamp in 2^-16 ns, and whether time was valid (R308, R329). -/
structure PtpRx where
  port : Nat
  type : Nat
  stamp : Int
  valid : Bool
  body : List Byte
  deriving DecidableEq, Repr

/-- IQ that fills a CPRI stream's containers from a basic frame on (R277, R287). -/
structure CpriSpan where
  stream : Nat
  first : Nat
  samples : List Byte
  deriving DecidableEq, Repr

structure Fronthaul where
  lq : SMap (List LqEntry)
  order : Nat
  /-- the symbol under reception of stream i and uplink symbol n of its context, at i × 2^56 + n -/
  rx : SMap RxSym
  /-- SEQ_ID of the next message of a stream and message type (R278), at 4 × stream index + KIND -/
  seq : SMap Nat
  /-- edge count at which a port last received a U-plane or C-plane frame (R298) -/
  lastRx : SMap (Option Nat)
  /-- eCPRI type 2 messages that wait for a Zelfa core: port and payload -/
  rtc : List (Nat × List Byte)
  /-- PTP messages that wait for a Zelfa core -/
  ptp : List PtpRx
  /-- record time at which a port's wire is free (R287) -/
  free : SMap Nat
  /-- lock stages of Table 12-6 that a lane has gained -/
  locks : SMap Nat
  /-- the latest pattern injection of a lane (R296): 0 for one bit or the length of a burst, and the edge count of its
  write -/
  inj : SMap (Option (Nat × Nat))
  /-- edge count at which a lane's pattern began (R295) -/
  gen : SMap Nat
  /-- C&M and vendor-specific words that a CPRI link holds for a Zelfa core (R276): port, kind and bytes -/
  cm : List (Nat × Nat × List Byte)
  /-- the spans of IQ that a CPRI link's containers carry, the latest first (R277, R287) -/
  cpri : SMap (List CpriSpan)
  /-- the stamp of the latest hyperframe start that a CPRI link has received, and of the latest it has sent, in 2^-16 ns
  (R304) -/
  hyperRx : SMap (Option Int)
  hyperTx : SMap (Option Int)
  deriving DecidableEq, Repr

/-- An entry of the translation cache (R336): the page's address and size, and whether it may be written. -/
structure AtsEntry where
  base : Nat
  size : Nat
  writable : Bool
  deriving DecidableEq, Repr

/-- An HX_BW 1 stage whose read lines have not all been written (R339): its job's handle and admission order, the stage, the
mover's on-behalf identity, and its lines, each with whether its request was issued. -/
structure HxRead where
  job : Nat
  order : Nat
  stage : Nat
  obo : Ident
  lines : List (HxUnit × Bool)
  deriving DecidableEq, Repr

/-- The CXL port beyond its registers (R330 to R349). -/
structure HostPort where
  /-- configuration space by byte offset of each 32-bit word (Table 14-2) -/
  cfg : SMap Word
  dlActive : Bool
  perst : Bool
  /-- configuration requests complete normally (Table 14-4, step 5) -/
  ready : Bool
  /-- a loss was declared and the link has not returned -/
  lost : Bool
  graceStart : Option Nat
  /-- event vectors that fell due while the link was lost (R347) -/
  pendEvt : List Nat
  ats : List AtsEntry
  reads : List HxRead
  deriving DecidableEq, Repr

/-- A vote on an entry to SLEEP or DEEP (R358 to R361). -/
structure Vote where
  /-- Table 15-3 code of the mode entered: 1 DEEP or 2 SLEEP -/
  target : Nat
  /-- the cluster of a cluster's own entry -/
  cluster : Option Nat
  /-- the voter stage that is asked (Table 15-6) -/
  stage : Nat
  wakeMs : Nat
  /-- record time at which the vote began -/
  start : Nat
  deriving DecidableEq, Repr

/-- The power stage (R353, R368). -/
inductive StagePhase where
  | off | rising | halfSlew | good
  deriving DecidableEq, Repr

structure Power where
  stage : StagePhase
  /-- clusters whose exit from SLEEP has started (R355) -/
  waking : BitVec 24
  vote : Option Vote
  /-- back-off after a refused entry: its first edge and its length in ms (R360) -/
  backoff : Option (Nat × Nat)
  /-- the wake timer: its first edge and its length in ms -/
  wakeTimer : Option (Nat × Nat)
  /-- a warm wake from DEEP is under way; false: its banks and registers are restored (R364) -/
  wake : Option Bool
  /-- reason of a wake that arrived while a vote from SLEEP ran (R361) -/
  pendWake : Option Nat
  /-- a wake failure to be reported on return to a powered mode (Table 14-3, R416) -/
  wakeFailed : Bool
  /-- the start through LOAD that a restored VIN causes (R352) -/
  restart : Option Nat
  /-- edge since which VIN is inside its window -/
  vinSince : Option Nat
  /-- no further PMBus transaction until the next LOAD (R370) -/
  pmbGone : Bool
  /-- the margin applied: 0 nominal, 1 low, 2 high -/
  margin : Nat
  deriving DecidableEq, Repr

/-- An operation that the flash has been given and has not completed: chip select, address and bytes. -/
structure FlashOp where
  cs : Nat
  addr : Nat
  len : Nat
  deriving DecidableEq, Repr

structure Nvm where
  /-- flash bytes at chip select × 2^28 + offset -/
  flash : SMap Byte
  ops : List FlashOp
  /-- SEQ of the last journal record (Table 16-11) -/
  seq : Nat
  areaSeq : Nat
  /-- records that wait for the end of a compaction (R388) -/
  wait : List (BitVec 512)
  /-- a compaction refused with MAINT_CONFLICT that starts when the conflicting activity ends (R388) -/
  compactDue : Bool
  /-- customer key hash fuses, LOCK, and the rollback counter (R379, R380) -/
  keyHash : BitVec 384
  locked : Bool
  rollback : Nat
  deriving DecidableEq, Repr

structure Plumb where
  /-- doubts raised in this step and not yet acted on, oldest first (R407) -/
  raised : List Nat
  /-- consecutive readings above 105 °C, and the last junction temperature in 1/16 °C (R406) -/
  hot : Nat
  tj : Int
  /-- edges at which fault-log records were written in the last second (R416) -/
  logTicks : List Nat
  /-- edge at which the last LOAD ended -/
  loadEnd : Nat
  /-- the fault-log record of a PFAIL entry that is written if VIN recovers (R416) -/
  pfailLog : Option (BitVec 512)
  /-- running maintenance activities and their targets (R415) -/
  running : List (Nat × Nat)
  /-- edge of each Zelfa watchdog's last restart (R405) -/
  kicks : SMap Nat
  /-- Zelfa interrupt sources that an event has made pending (Table 16-33) -/
  latch : BitVec 12
  deriving DecidableEq, Repr

/-- The test access port (R427 to R431): the instruction, its data registers, and the flash bridge's command bytes. -/
structure Jtag where
  ir : Byte
  /-- boundary-scan register: one cell for each pin that R427 leaves in it, in the order of Table 19-3 -/
  bsr : BitVec 60
  /-- DAP_ACC as the next Capture-DR loads it (Table 18-6), and whether it holds the result of an access not yet captured -/
  acc : BitVec 128
  fresh : Bool
  bridge : BitVec 24
  /-- by chip select: bytes of the flash command under way, and whether it has been ended without being sent (R431) -/
  sent : SMap (List Byte)
  withheld : SMap Bool
  deriving DecidableEq, Repr

/-- What the pad hold latches of R365 hold: GPIO levels, GPIO output enables and FAULT_N. -/
structure PadLatch where
  gpio : BitVec 32
  gpioEn : BitVec 32
  faultN : Bool
  deriving DecidableEq, Repr

structure Pins where
  /-- input levels, true: high -/
  safeN : Bool
  thermAlertN : Bool
  /-- REFCLK is present -/
  refclk : Bool
  /-- FAULT_N is driven high -/
  faultN : Bool
  /-- GPIO levels and high-impedance bits as the firmware left them -/
  gpio : BitVec 32
  gpioZ : BitVec 32
  /-- GPIO at their safe levels (Table 17-3) -/
  gpioSafe : Bool
  /-- the pads as entry to DEEP latched them (R365) -/
  latch : PadLatch
  deriving DecidableEq, Repr

/-- What the device sends out, in the model's own words: the log of a run, latest first. -/
inductive Output where
  /-- a write to host memory, each byte with its poison mark (R18, R222, R341) -/
  | hostWrite (addr : Nat) (bytes : List (Byte × Bool))
  /-- an MSI-X message (R346) -/
  | msix (vector : Nat) (addr : Nat) (data : Nat)
  /-- a frame is sent on an Ethernet port: message type, destination and source address, VLAN tag, eAxC ID, SEQ_ID and
  eCPRI payload (R278, R283, R287) -/
  | frame (port type dst src : Nat) (vlan : Option Nat) (eaxc seq : Nat) (payload : List Byte)
  /-- an entry's samples fill a CPRI stream's containers, `width` bits from bit `pos` of the IQ part of each basic frame, from
  basic frame `first` on (R277, R287) -/
  | cpriSend (port stream launch first pos width : Nat) (samples : List Byte)
  /-- an eCPRI type 5 message: Request or Response, its identifier, stamp and compensation value (R280) -/
  | delayMsg (port : Nat) (response : Bool) (id : Nat) (stamp : Int) (compensation : Nat)
  /-- a PTP message: type, originTimestamp of the device's own one-step event messages, correctionField and body (R307,
  R308) -/
  | ptp (port type : Nat) (origin : Option Int) (correction : Nat) (body : List Byte)
  /-- PPS_OUT rises, at a time in 2^-16 ns, for a number of µs (R316) -/
  | ppsPulse (at_ : Int) (width : Nat)
  /-- a time-of-day message leaves by TOD_TX (R318) -/
  | tod (bytes : List Byte)
  /-- a CPRI link's containers carry zero IQ for an entry's span (R288) -/
  | cpriZero (port : Nat) (stream : Nat) (launch : Nat)
  /-- a PMBus write: command code and data (Table 15-11) -/
  | pmbus (code : Nat) (data : Nat)
  /-- a read of the host through BAR0 or BAR2 is answered; `status` 0 clean data, 1 the CXL.mem poison indication, 2 a
  poisoned completion, 3 an Unsupported Request completion (R334, Table 09-6) -/
  | hostRsp (data : List Byte) (status : Nat)
  /-- a configuration request is completed: with Retry Status, or with a data word (R349) -/
  | cfgRsp (retry : Bool) (data : Word)
  /-- nine SCL clocks and a STOP (R370) -/
  | pmbusRecover
  /-- a flit leaves a router by an output port (R242, R247) -/
  | flit (router : Nat) (port : Nat) (hdr : BitVec 56) (lanes : BitVec 512)
  /-- the credit of a flit that an input has discarded goes back to its sender (R248) -/
  | credit (router : Nat) (port : Nat)
  /-- a response packet is sent: flit header, packet header and payload with its poison (R238) -/
  | nocRsp (hdr : BitVec 56) (pkt : BitVec 256) (data : List (Byte × Bool))
  /-- a Chord packet is delivered: its nodes, packet header and payload (R251) -/
  | chord (src dest : Nat) (pkt : BitVec 256) (payload : List Byte)
  /-- a JTAG data register is shifted out: its length and the captured value (R427 to R431) -/
  | tdo (bits : Nat) (value : Nat)
  /-- the boundary-scan register drives the pins (R430) -/
  | pinsDriven (levels : BitVec 60)
  deriving DecidableEq, Repr

/-- The state of the SX9064 and its queue of commands. -/
structure State where
  /-- commands that wait, first in, first out -/
  pending : List Instr
  /-- the model's own log of what left the device, latest first -/
  out : List Output
  /-- the model's own counter of free values taken -/
  freeCtr : Nat
  /-- registers by internal address, each in its low bits (R417) -/
  regs : SMap DWord
  time : Meridian
  servo : Servo
  banks : Banks
  /-- core t of tile t; 192 + z for Zelfa core z -/
  cores : SMap Core
  cmp : Compass
  img : Image
  eng : Engines
  chains : SMap Chain
  /-- coefficient e of bank b of chain n at (2n + b) × 12,288 + e (R190) -/
  coef : SMap (BitVec 18)
  coefPoison : SMap Bool
  noc : Noc
  dma : SMap DmaCh
  fh : Fronthaul
  host : HostPort
  pwr : Power
  nvm : Nvm
  plb : Plumb
  jtag : Jtag
  pins : Pins
  deriving DecidableEq, Repr

/-- Why an access ends the run. No command of this block raises one: every operand is typed to the range the spec gives,
and every address that names nothing is answered ERR_DECODE (R418). -/
inductive Fault where
  /-- never raised; safe -/
  | none
  deriving DecidableEq, Repr

/-- Why a command is not carried out. -/
inductive Refusal where
  /-- the command has no meaning in the model yet; raised by the dispatcher alone; safe -/
  | notModelled (mnemonic : String)
  deriving DecidableEq, Repr

/-! ### Reset: the start of LOAD after power-up (R417, R425, Table 15-3) -/

/-- No image has been loaded. -/
def Image.empty : Image :=
  { present := false, secVer := 0, signed := false, refclk := 0, pec := false, pmbAddr := 0, tunePwrup := 0, subsysId := 0,
    voutNom := 0, voutWin := [], hxMinRate := 0, hxMinWidth := 0, hxCap := 0, graceMs := 0, eq := [], seCand := [],
    ptpDomain := 0, ptpMac := false, priority2 := 0, ptpPorts := [], gpio := [], safeWord := none, safeNLock := false,
    upstream := 0, retainCmp := false, retainSdc := false, clSleepEn := 0, backoffMs := 0, ports := [], streams := [],
    ctx := [], lgUsed := 0, lgMu := [], carriers := [], chains := [], profWords := [], classB := [], classF := [],
    templates := [], reqPrio := [], ranges := [], home := [], tileCode := [], entries := [] }

def Banks.reset : Banks :=
  { bytes := [], poison := [], flips := [], stuckMask := [], stuckLevel := [], oldOwner := [], spare := [], tracker := [],
    scrub := [] }

def Compass.reset : Compass :=
  { jobs := [], fresh := 0, freed := [], order := 0, flows := [], cal := [], running := [], hist := [], busy := [],
    busyLast := [], cancels := [], cancelNo := 0, inbox := [], lastJq := 63, held := false, calBad := [] }

def Noc.reset : Noc :=
  { base := 0, wheelAct := [], wheelSh := [], wheelOld := [], brgOld := [], resv := [], expired := [], resync := [], paths := [],
    wait := [], hold := [], served := [], sent := [], taken := [], markAt := 0, ueAt := [] }

def Meridian.reset : Meridian :=
  { sec := 0, edge := 0, ticks := 0, runTicks := 0, counting := false, dapSec := 0, dapFrac := 0, setSec := none,
    armed := [] }

def Servo.reset : Servo :=
  { i := 0, y := 0, yHold := 0, hist := [], good := 0, bad := 0, ptp := none, pps := none, tod := none,
    agePtp := 255, agePps := 255, ageTod := 255, timerRun := false, timerStart := 0, lockedTicks := 0, holdSavedAt := none,
    lastTick := none, lastPps := none, dacOut := 0, ppsRise := none, ppsFrom := 0, codeNew := none, pll := List.replicate 17 0,
    todSent := none }

def HostPort.reset : HostPort :=
  { cfg := [], dlActive := false, perst := false, ready := false, lost := false, graceStart := none, pendEvt := [],
    ats := [], reads := [] }

def Power.reset : Power :=
  { stage := .good, waking := 0, vote := none, backoff := none, wakeTimer := none, wake := none, pendWake := none,
    wakeFailed := false, restart := none, vinSince := none, pmbGone := false, margin := 0 }

def Nvm.reset : Nvm :=
  { flash := [], ops := [], seq := 0, areaSeq := 0, wait := [], compactDue := false, keyHash := 0, locked := false,
    rollback := 0 }

def Plumb.reset : Plumb :=
  { raised := [], hot := 0, tj := 0, logTicks := [], loadEnd := 0, pfailLog := none, running := [],
    kicks := [], latch := 0 }

def Jtag.reset : Jtag :=
  { ir := 1, bsr := 0, acc := 0, fresh := false, bridge := 0, sent := [], withheld := [] }

def Pins.reset : Pins :=
  { safeN := true, thermAlertN := true, refclk := true, faultN := true, gpio := 0, gpioZ := BitVec.ofNat 32 0xFFFFFFFF,
    gpioSafe := false, latch := ⟨0, 0, true⟩ }

def Fronthaul.reset : Fronthaul :=
  { lq := [], order := 0, rx := [], seq := [], lastRx := [], rtc := [], ptp := [], free := [], locks := [], inj := [],
    gen := [], cm := [], cpri := [], hyperRx := [], hyperTx := [] }

/-- The device at the start of LOAD after power-up: every register at its reset value, memory zero, nothing queued. -/
def State.reset : State :=
  { pending := [], out := [], freeCtr := 0, regs := [], time := Meridian.reset, servo := Servo.reset, banks := Banks.reset,
    cores := [], cmp := Compass.reset, img := Image.empty, eng := { done := [], halted := [], locks := [] }, chains := [],
    coef := [], coefPoison := [], noc := Noc.reset, dma := [], fh := Fronthaul.reset,
    host := HostPort.reset, pwr := Power.reset, nvm := Nvm.reset, plb := Plumb.reset, jtag := Jtag.reset,
    pins := Pins.reset }

end Sys2Proof.Machine
end

