-- ==== Sys2Proof/Machine/Ops.lean ====
section
/-! DEFINITION. The named operations every meaning is written with: reading and writing a register or one of its fields,
counting, logging what leaves the device, taking a free value, and bit fields of records and byte strings. -/

namespace Sys2Proof.Machine

/-- What a register that nothing has written reads as: its reset value (R417). -/
def regDflt (a : Nat) : DWord := BitVec.ofNat 64 (regReset a)

def State.reg (s : State) (a : Nat) : DWord := SMap.get regDflt s.regs a

def State.setReg (s : State) (a : Nat) (v : DWord) : State := { s with regs := SMap.set regDflt s.regs a v }

/-- Insert before the first entry that does not come earlier. -/
def insertBy {α : Type} (le : α → α → Bool) (x : α) : List α → List α
  | [] => [x]
  | y :: l => if le x y then x :: y :: l else y :: insertBy le x l

/-- The list in order; entries that tie keep theirs. -/
def sortBy {α : Type} (le : α → α → Bool) : List α → List α
  | [] => []
  | x :: l => insertBy le x (sortBy le l)

/-- The field's value within a register (R3). -/
def Fld.get (f : Fld) (v : DWord) : Nat := bitsOf v.toNat f.hi f.lo

/-- The register with one field replaced; the value wraps to the field's width. -/
def Fld.put (f : Fld) (v : DWord) (x : Nat) : DWord :=
  BitVec.ofNat 64 (v.toNat - Fld.get f v * 2 ^ f.lo + x % 2 ^ (f.hi + 1 - f.lo) * 2 ^ f.lo)

def State.fget (s : State) (a : Nat) (f : Fld) : Nat := Fld.get f (s.reg a)

def State.fset (s : State) (a : Nat) (f : Fld) (x : Nat) : State := s.setReg a (Fld.put f (s.reg a) x)

def State.flag (s : State) (a : Nat) (f : Fld) : Bool := s.fget a f != 0

/-- A bit field as a signed number. -/
def State.fgetS (s : State) (a : Nat) (f : Fld) : Int :=
  let w := f.hi + 1 - f.lo
  let x := s.fget a f
  if 2 ^ (w - 1) ≤ x then (x : Int) - 2 ^ w else x

/-- A counter register rises by n and saturates at 0xFFFF_FFFF. -/
def State.countBy (s : State) (a n : Nat) : State :=
  s.setReg a (BitVec.ofNat 64 (min ((s.reg a).toNat + n) 0xFFFFFFFF))

def State.count (s : State) (a : Nat) : State := s.countBy a 1

def State.countIf (s : State) (b : Bool) (a : Nat) : State := if b then s.count a else s

/-- Log what leaves the device. -/
def State.emit (s : State) (o : Output) : State := { s with out := o :: s.out }

/-- The pads are latched: what the domain behind them drives does not reach the balls (R365). -/
def State.padsHeld (s : State) : Bool := s.flag Addr.pwrPadCtrl Fld.pwrPadCtrlHeld

/-- Log what leaves the device by a pad that R365 latches. -/
def State.emitPad (s : State) (o : Output) : State := if s.padsHeld then s else s.emit o

/-- A free value of w bits for each caller (the spec leaves it open), and the state with the counter advanced. -/
def State.free (s : State) (w : Nat) : BitVec w × State :=
  ((Config.freeWord s.freeCtr).setWidth w, { s with freeCtr := s.freeCtr + 1 })

/-- A free choice below n. -/
def State.freeBelow (s : State) (n : Nat) : Nat × State :=
  (Config.freeNat s.freeCtr % n, { s with freeCtr := s.freeCtr + 1 })

/-- Apply a step to each element in turn. -/
def State.each {α : Type} (s : State) (l : List α) (f : State → α → State) : State := l.foldl f s

/-- n bytes of a value, least significant first (R3). -/
def leBytes (n v : Nat) : List Byte := (List.range n).map fun k => BitVec.ofNat 8 (v / 256 ^ k)

/-- The value of little-endian bytes. -/
def leVal : List Byte → Nat
  | [] => 0
  | b :: l => b.toNat + 256 * leVal l

/-- Bits [hi:lo] of the field at byte offset `off` of a record held as one number. -/
def recF (r : Nat) (off hi lo : Nat) : Nat := bitsOf r (8 * off + hi) (8 * off + lo)

/-- A field placed in a record under construction. -/
def recP (off lo v : Nat) : Nat := v * 2 ^ (8 * off + lo)

/-- Signed value of the low w bits. -/
def signed (w x : Nat) : Int := if 2 ^ (w - 1) ≤ x % 2 ^ w then (x % 2 ^ w : Nat) - (2 ^ w : Nat) else (x % 2 ^ w : Nat)

/-- Two's complement of an integer in w bits. -/
def unsigned (w : Nat) (x : Int) : Nat := (x % (2 ^ w : Nat)).toNat

def ceilDiv (a b : Nat) : Nat := (a + b - 1) / b

/-! ### Modes (Table 15-3) -/

def Mode.off : Nat := 0
def Mode.deep : Nat := 1
def Mode.sleep : Nat := 2
def Mode.idle : Nat := 3
def Mode.run : Nat := 4
def Mode.load : Nat := 5
def Mode.safe : Nat := 6
def Mode.service : Nat := 7

def State.mode (s : State) : Nat := s.fget Addr.pwrMode Fld.pwrModeMode

/-- The root PLL is locked (R13). -/
def State.locked (s : State) : Bool := s.flag Addr.clkStat Fld.clkStatLocked

end Sys2Proof.Machine
end

