-- ==== Sys2Proof/Machine/Time.lean ====
section
/-! DEFINITION. Meridian's counting (R300, R301), record time and bins (R25), and the symbol and slot boundaries of the
carrier contexts (R325, R326). -/

namespace Sys2Proof.Machine

/-- CLK_TB edges in one second (R301). -/
def edgesPerSec : Nat := 491520000

/-- Time in the second at edge e, in 2^-16 ns: 133,333, 133,333 and 133,334 in turn (R301). -/
def edgeFrac (e : Nat) : Nat := e / 3 * 400000 + e % 3 * 133333

def Meridian.ns (m : Meridian) : Nat := edgeFrac m.edge / 65536
def Meridian.frac (m : Meridian) : Nat := edgeFrac m.edge % 65536

/-- Record time (R25). -/
def Meridian.recTime (m : Meridian) : Nat := m.sec * 1000000000 + m.ns

/-- Meridian in 2^-16 ns since the epoch. -/
def Meridian.fine (m : Meridian) : Nat := m.sec * 65536000000000 + edgeFrac m.edge

def State.now (s : State) : Nat := s.time.recTime

/-- The absolute bin of a record time (R25). -/
def binOf (t : Nat) : Nat := t * 2 / 15625

def State.bin (s : State) : Nat := binOf s.now

/-- The first edge within a second at or after r ns of it. -/
def edgeAt (r : Nat) : Nat :=
  let u := r * 65536
  let k := u / 400000
  let x := u % 400000
  3 * k + (if x = 0 then 0 else if x ≤ 133333 then 1 else if x ≤ 266666 then 2 else 3)

/-- The count of edges since the epoch at the first edge at or after record time t. -/
def edgesAt (t : Nat) : Nat := t / 1000000000 * edgesPerSec + edgeAt (t % 1000000000)

def Meridian.edges (m : Meridian) : Nat := m.sec * edgesPerSec + m.edge

/-- Meridian counts on by n edges (R301); SEC has 48 bits (R300). -/
def Meridian.advance (m : Meridian) (n : Nat) : Meridian :=
  let e := m.edges + n
  { m with sec := e / edgesPerSec % 2 ^ 48, edge := e % edgesPerSec, ticks := m.ticks + n }

/-- Meridian takes another value that counting reaches (R303). -/
def State.setMeridian (s : State) (sec edge : Nat) : State :=
  { s with time := { s.time with sec := sec % 2 ^ 48, edge := edge } }

/-! ### Carrier contexts -/

/-- Start of downlink symbol l in its half-subframe, in ns from the half-subframe's start (R325). -/
def symOffset (mu : Nat) (ecp : Bool) (l : Nat) : Nat :=
  let tau := if ecp then l * 2560 * 16 else if l = 0 then 0 else l * 2192 * 64 / 2 ^ mu + 1024
  tau * 1000000000 / 1966080000

/-- Symbols of a slot (R325). -/
def symPerSlot (ecp : Bool) : Nat := if ecp then 12 else 14

/-- Symbols of a half-subframe: half a slot at 15 kHz, 2^(mu-1) slots above. -/
def symPerHalf (mu : Nat) (ecp : Bool) : Nat := symPerSlot ecp * 2 ^ mu / 2

/-- The symbols that have started u ns into a half-subframe, less one: the symbol under way. -/
def symIndexIn (mu : Nat) (ecp : Bool) (u : Nat) : Nat :=
  ((List.range (symPerHalf mu ecp)).filter fun l => symOffset mu ecp l ≤ u).length - 1

/-- Number of the downlink symbol under way at record time t since the context's epoch. -/
def symAt (c : CtxT) (t : Nat) : Nat :=
  let x := t + c.toff
  x / 500000 * symPerHalf c.mu c.ecp + symIndexIn c.mu c.ecp (x % 500000)

/-- Record time at which downlink symbol k since the context's epoch starts; the offset comes off last. -/
def symStart (c : CtxT) (k : Nat) : Int :=
  let n := symPerHalf c.mu c.ecp
  ((k / n * 500000 + symOffset c.mu c.ecp (k % n) : Nat) : Int) - c.toff

/-- Number of the downlink slot under way at t since the context's epoch; a 15 kHz slot is two half-subframes. -/
def slotAt (c : CtxT) (t : Nat) : Nat := symAt c t / symPerSlot c.ecp

/-- Record time of the start of downlink slot k since the context's epoch. -/
def slotStart (c : CtxT) (k : Nat) : Int := symStart c (k * symPerSlot c.ecp)

/-- Record time of the next downlink slot boundary after t (R326). -/
def nextSlot (c : CtxT) (t : Nat) : Nat := (slotStart c (slotAt c t + 1)).toNat

/-- Record time t is the start of a downlink symbol, to the nanosecond (R284). -/
def isSymStart (c : CtxT) (t : Nat) : Bool := symStart c (symAt c t) == (t : Int)

/-- The first uplink symbol that starts at or after t: uplink boundaries are the downlink ones less TA_OFF (R325). -/
def firstUlSym (c : CtxT) (t : Nat) : Nat :=
  let d := t + c.taOff
  if isSymStart c d then symAt c d else symAt c d + 1

/-- The frame number (R326). -/
def sfnAt (c : CtxT) (t : Nat) : Nat := (t + c.toff) / 10000000 % 1024

/-- The slot in its frame (R326). -/
def slotInFrame (c : CtxT) (t : Nat) : Nat := slotAt c t % (10 * 2 ^ c.mu)

/-- A context the image does not enable. -/
def CtxT.none : CtxT :=
  { enabled := false, mu := 0, ecp := false, grouped := false, lg := 0, initProfile := 0, profiles := 0, toff := 0,
    taOff := 0 }

def State.ctx (s : State) (n : Nat) : CtxT := SMap.get (fun _ => CtxT.none) s.img.ctx n

end Sys2Proof.Machine
end

