-- ==== Sys2Proof/Machine/Events.lean ====
section
/-! DEFINITION. Events toward the host and Plumb: MSI-X messages (R346, R347), event vectors (Table 14-3), completion-queue
records (R341, R344, R345, R47), the check of the host window (R335), and raising a doubt (R407). -/

namespace Sys2Proof.Machine

/-- The link is up (R347). -/
def State.linkUp (s : State) : Bool := s.flag Addr.hxLinkStat Fld.hxLinkStatUp

/-! ### Configuration space: the words the port's behaviour rests on (PRESUMED layouts of the PCIe standard) -/

/-- The header of an extended capability: its ID, its version and the offset of the next. -/
def extCap (id ver next : Nat) : Word := BitVec.ofNat 32 (id + ver * 2 ^ 16 + next * 2 ^ 20)

/-- Table 14-2: the header, then each capability at its offset, chained in the table's order. -/
def cfgWords : List (Nat × Word) :=
  [(0x000, 0x90641F6A), (0x004, 0x00100000), (0x008, 0x12000000), (0x010, 0x00000004), (0x018, 0x0000000C),
   (0x02C, 0x00001F6A), (0x034, 0x00000040),
   (0x040, 0x00035001), (0x044, 0x00000008),
   (0x050, 0x004F7011), (0x054, 0x01410000), (0x058, 0x01411000),
   (0x070, 0x00020010),
   (0x100, extCap 0x0001 2 0x140), (0x140, extCap 0x0003 1 0x150), (0x150, extCap 0x000F 1 0x160), (0x154, 0x00000020),
   (0x160, extCap 0x0019 1 0x190), (0x190, extCap 0x0025 1 0x1A0), (0x1A0, extCap 0x0026 1 0x1D0),
   (0x1D0, extCap 0x002A 1 0x200), (0x200, extCap 0x0031 1 0x240),
   (0x240, extCap 0x0023 1 0x280), (0x244, 0x03C21E98), (0x248, 0x00170000),
   (0x280, extCap 0x0023 1 0x2C0), (0x284, 0x02021E98), (0x288, 0x00000007),
   (0x2C0, extCap 0x0023 1 0), (0x2C4, 0x01401E98), (0x2C8, 0x00000008), (0x2CC, 0x01420100)]

def cfgDflt (o : Nat) : Word := ((cfgWords.find? fun e => e.1 == o).map (·.2)).getD 0

def State.cfgWord (s : State) (o : Nat) : Nat := (SMap.get cfgDflt s.host.cfg o).toNat

/-- Bus Master Enable. -/
def State.busMaster (s : State) : Bool := bitOf (s.cfgWord 0x004) 2
/-- Memory Space Enable. -/
def State.memSpace (s : State) : Bool := bitOf (s.cfgWord 0x004) 1
def State.msixEnable (s : State) : Bool := bitOf (s.cfgWord 0x050) 31
def State.msixFuncMask (s : State) : Bool := bitOf (s.cfgWord 0x050) 30
/-- The function is in D3hot. -/
def State.d3hot (s : State) : Bool := bitsOf (s.cfgWord 0x044) 1 0 == 3
def State.atsEnable (s : State) : Bool := bitOf (s.cfgWord 0x154) 31

/-! ### MSI-X -/

def Fld.pendBit (v : Nat) : Fld := ⟨v % 64, v % 64⟩

/-- Send the message of vector v, or hold it in the Pending Bit Array while it is masked; nothing while MSI-X is off. -/
def State.sendMsix (s : State) (v : Nat) : State :=
  if !s.msixEnable then s
  else if s.msixFuncMask || s.flag (Addr.hxMsixData v) Fld.hxMsixDataMask then
    s.fset (Addr.hxMsixPba (v / 64)) (Fld.pendBit v) 1
  else s.emit (.msix v (s.fget (Addr.hxMsixAddr v) Fld.hxMsixAddrAddr * 4)
    (s.fget (Addr.hxMsixData v) Fld.hxMsixDataData))

/-- Messages of vectors 0 to 63 that fall due while the link is lost are dropped (R347). -/
def State.sendQueueVector (s : State) (q : Nat) : State := if s.linkUp then s.sendMsix q else s

def Fld.cause (v : Nat) : Fld := ⟨v, v⟩

/-- Event v of Table 14-3 (vector 64 + v): a cause already set sends nothing more (R346); while the link is lost the
message waits (R347). -/
def State.hostEvent (s : State) (v : Nat) : State :=
  if s.flag Addr.hxEvtCause (Fld.cause v) then s
  else
    let s := s.fset Addr.hxEvtCause (Fld.cause v) 1
    if s.linkUp then s.sendMsix (64 + v) else { s with host := { s.host with pendEvt := v :: s.host.pendEvt } }

def Evt.safe : Nat := 0
def Evt.mode : Nat := 1
def Evt.refused : Nat := 2
def Evt.therm : Nat := 3
def Evt.plumb : Nat := 4
def Evt.memory : Nat := 5
def Evt.noc : Nat := 6
def Evt.fhDown : Nat := 7
def Evt.servo : Nat := 8
def Evt.cqOvf : Nat := 9
def Evt.dbErr : Nat := 10
def Evt.linkBack : Nat := 11
def Evt.journal : Nat := 12
def Evt.maint : Nat := 13

/-! ### The host window -/

/-- Every byte of [h, h + n) lies in one enabled window with the permission (R335). -/
def State.windowOk (s : State) (write : Bool) (h n : Nat) : Bool :=
  (List.range 16).any fun k =>
    s.flag (Addr.hxWinBase k) Fld.hxWinBaseEn
      && s.flag (Addr.hxWinBase k) (if write then Fld.hxWinBaseWr else Fld.hxWinBaseRd)
      && decide (s.fget (Addr.hxWinBase k) Fld.hxWinBaseAddr * 4096 ≤ h)
      && decide (h + n ≤ (s.fget (Addr.hxWinLimit k) Fld.hxWinLimitAddr + 1) * 4096)

/-- The host page that holds every byte of a request is in the translation cache with the permission (R336). -/
def State.atsHit (s : State) (write : Bool) (h n : Nat) : Bool :=
  s.host.ats.any fun e => decide (e.base ≤ h ∧ h + n ≤ e.base + e.size) && (e.writable || !write)

/-- A translation that succeeds enters the cache, which holds 512 entries (R336). -/
def State.atsAdd (s : State) (write : Bool) (h n : Nat) : State :=
  let size := if h % 4096 + n ≤ 4096 then 4096 else 1073741824
  let e : AtsEntry := { base := h / size * size, size := size, writable := write }
  { s with host := { s.host with ats := (e :: s.host.ats).take 512 } }

/-- A request to host memory is issued, or refused: the link is lost, no window holds it, or its translation, where the
cache does not hold it, fails (R335, R336, R347). -/
def State.hostReq (s : State) (write : Bool) (h n : Nat) (transOk : Bool) : Bool × State :=
  if !s.linkUp then (false, s)
  else if !s.windowOk write h n then (false, s.count Addr.hxWinErrCnt)
  else if !s.atsEnable || s.atsHit write h n then (true, s)
  else if !transOk then (false, s.count Addr.hxAtsFailCnt)
  else (true, s.atsAdd write h n)

/-- A request of the queue engine, 64 or 128 bytes of a ring (R336): whether a translation that the cache does not hold
succeeds is the host's. -/
def State.queueReq (s : State) (write : Bool) (h n : Nat) : Bool × State :=
  s.hostReq write h n (Config.atsOk h s.time.ticks)

/-! ### Completion queues -/

/-- Write a 64-byte record to completion queue q; `sig` says whether its vector is sent after it (R344 to R347, R47). -/
def State.issueRecord (s : State) (q : Nat) (record : Nat) (sig : Bool) : State :=
  let cfg := Addr.hxCqCfg q
  let st := Addr.hxCqStat q
  if !s.flag cfg Fld.hxCqCfgEn then s.count Addr.cmpNocqCnt
  else if !s.linkUp then s.count Addr.hxLdRecDropCnt
  else
    let size := s.fget cfg Fld.hxCqCfgSize
    let tail := s.fget st Fld.hxCqStatIndex
    let phase := s.fget st Fld.hxCqStatPhase
    if (tail + 1) % size = s.fget (Addr.hxCqHead q) Fld.hxCqHeadIndex then
      ((s.count Addr.hxCqOvfCnt).fset st Fld.hxCqStatOvf 1).hostEvent Evt.cqOvf
    else
      let h := s.fget (Addr.hxCqBase q) Fld.hxCqBaseAddr + 64 * tail
      let (ok, s) := s.queueReq true h 64
      if !ok then s
      else
        let s := s.emit (.hostWrite h ((leBytes 64 (record + recP 1 0 phase)).map fun b => (b, false)))
        let s := s.fset st Fld.hxCqStatIndex ((tail + 1) % size)
        let s := if tail + 1 = size then s.fset st Fld.hxCqStatPhase (1 - phase) else s
        if sig then s.sendQueueVector q else s

/-! ### Doubts -/

/-- A doubt of Table 17-1 arises; it is acted on at the end of the command (R407). -/
def State.doubt (s : State) (reason : Nat) : State := { s with plb := { s.plb with raised := s.plb.raised ++ [reason] } }

def Doubt.vin : Nat := 0x01
def Doubt.thermal : Nat := 0x02
def Doubt.clkNoref : Nat := 0x03
def Doubt.clkLock : Nat := 0x04
def Doubt.timeHold : Nat := 0x05
def Doubt.wdt : Nat := 0x06
def Doubt.lockstep : Nat := 0x07
def Doubt.ledger : Nat := 0x08
def Doubt.ueCrit : Nat := 0x09
def Doubt.chordUe : Nat := 0x0A
def Doubt.meshLink : Nat := 0x0B
def Doubt.imgFail : Nat := 0x0C
def Doubt.pmbFail : Nat := 0x0D
def Doubt.pwrDomain : Nat := 0x0E
def Doubt.hostLost : Nat := 0x0F
def Doubt.safeN : Nat := 0x10

end Sys2Proof.Machine
end

