-- ==== Sys2Proof/Machine/Mem.lean ====
section
/-! DEFINITION. The internal address space (R417 to R419), bank ownership and handover (R207 to R214), check codes, poison
and the correction tracker (R218 to R223, R226 to R230, R453), and byte reads and writes over the banks. -/

namespace Sys2Proof.Machine

/-! ### Addresses and banks -/

/-- Memory of Table 18-1: the bank of an address, as block × 256 + bank index of that block. -/
def bankOf (a : Nat) : Option Nat :=
  if a < 0x6000000 then
    let t := a / 0x80000
    some (t / 8 * 256 + 8 * (t % 8) + a / 0x10000 % 8)
  else if 0x10000000 ≤ a ∧ a < 0x1C000000 then
    let o := a - 0x10000000
    some (o / 0x800000 * 256 + 64 + o / 0x10000 % 128)
  else if 0x20000000 ≤ a ∧ a < 0x21000000 then some (24 * 256 + a / 0x10000 % 256)
  else none

/-- Address of a bank's first byte. -/
def bankBase (key : Nat) : Nat :=
  let c := key / 256
  let i := key % 256
  if c = 24 then 0x20000000 + i * 0x10000
  else if i < 64 then (8 * c + i / 8) * 0x80000 + i % 8 * 0x10000
  else 0x10000000 + c * 0x800000 + (i - 64) * 0x10000

/-- The bank exists (R205, Table 01-1). -/
def bankValid (key : Nat) : Bool := key / 256 < 24 && key % 256 < 192 || key / 256 == 24

/-- A global bank number as block × 256 + bank index (R390). -/
def globalBank (n : Nat) : Nat :=
  if n < 1536 then n / 64 * 256 + n % 64
  else if n < 4608 then (n - 1536) / 128 * 256 + 64 + (n - 1536) % 128
  else 24 * 256 + (n - 4608)

/-- What an internal address names (Table 18-1, R419). -/
inductive Target where
  | mem (a : Nat)
  | bitSet (a : Nat)
  | bitClr (a : Nat)
  | reg (a : Nat)
  | host (h : Nat)
  | none
  deriving DecidableEq, Repr

def target (a : Nat) : Target :=
  if (bankOf a).isSome then .mem a
  else if 0x40000000 ≤ a ∧ a < 0x44000000 then .reg a
  else if 0x080000000000 ≤ a ∧ a < 0x0C0000000000 then
    if (bankOf (a - 0x080000000000)).isSome then .bitSet (a - 0x080000000000) else .none
  else if 0x0C0000000000 ≤ a ∧ a < 0x100000000000 then
    if (bankOf (a - 0x0C0000000000)).isSome then .bitClr (a - 0x0C0000000000) else .none
  else if 0x100000000000 ≤ a ∧ a < 0x200000000000 then .host (a - 0x100000000000)
  else .none

/-- An access answered ERR_DECODE is counted (R418). -/
def State.errDecode (s : State) : State := s.count Addr.devAddrErrCnt

/-! ### Identities and owners -/

def Ident.code (i : Ident) : Nat := i.kind * 4096 + i.index
def Ident.system : Ident := ⟨0, 0⟩
def Ident.tile (t : Nat) : Ident := ⟨1, t⟩
def Ident.dma (c : Nat) : Ident := ⟨2, c⟩
def Ident.acc (n : Nat) : Ident := ⟨3, n⟩
def Ident.sdc (n : Nat) : Ident := ⟨4, n⟩
def Ident.host : Ident := ⟨5, 0⟩
def Ident.mover : Ident := ⟨5, 1⟩
def Ident.bist (c : Nat) : Ident := ⟨6, c⟩
def Ident.scrubber : Ident := ⟨7, 0⟩
def Ident.dap : Ident := ⟨7, 0xFFF⟩
def Ident.harq (sector : Nat) : Ident := ⟨3, 560 + sector⟩
def Ident.framer (g : Nat) : Ident := ⟨3, 568 + g⟩

def identOf (code : Nat) : Ident := ⟨code / 4096, code % 4096⟩

/-- An identity that MEM_OWNER accepts (Table 09-2, R210). -/
def Ident.ownable (i : Ident) : Bool :=
  match i.kind with
  | 0 => i.index == 0
  | 1 => i.index < 192
  | 2 => i.index ≤ 24
  | 3 => (384 ≤ i.index && i.index ≤ 551) || (560 ≤ i.index && i.index ≤ 563) || (568 ≤ i.index && i.index ≤ 575)
  | 4 => i.index < 128
  | 5 => i.index ≤ 1
  | 6 => i.index ≤ 24
  | _ => false

def ownerReg (key : Nat) : Nat := Addr.memOwner (key / 256) (key % 256)
def cfgReg (key : Nat) : Nat := Addr.memBankCfg (key / 256) (key % 256)

/-- The owner last written (MEM_OWNER). -/
def State.owner (s : State) (key : Nat) : Ident :=
  ⟨s.fget (ownerReg key) Fld.memOwnerKind, s.fget (ownerReg key) Fld.memOwnerIndex⟩

def State.pendingHandover (s : State) (key : Nat) : Bool := s.flag (ownerReg key) Fld.memOwnerPending

/-! ### Words -/

def noByte : Nat → Byte := fun _ => 0
def noFlag : Nat → Bool := fun _ => false
def noFlips : Nat → BitVec 80 := fun _ => 0
def noMask : Nat → DWord := fun _ => 0

def State.byte (s : State) (a : Nat) : Byte := SMap.get noByte s.banks.bytes a

/-- The 64 stored bits of word w (address / 8). -/
def State.word (s : State) (w : Nat) : DWord :=
  BitVec.ofNat 64 (leVal ((List.range 8).map fun k => s.byte (8 * w + k)))

def State.poisoned (s : State) (w : Nat) : Bool := SMap.get noFlag s.banks.poison w

/-- The memory's canonical form: addresses strictly rising, and no entry equal to what an unlisted address reads as. -/
def Banks.wf (b : Banks) : Bool := SMap.wf noByte b.bytes && SMap.wf noFlag b.poison && SMap.wf noFlips b.flips

def Banks.setByte (b : Banks) (a : Nat) (v : Byte) : Banks := { b with bytes := SMap.set noByte b.bytes a v }
def Banks.setPoison (b : Banks) (w : Nat) (p : Bool) : Banks := { b with poison := SMap.set noFlag b.poison w p }
def Banks.setFlips (b : Banks) (w : Nat) (f : BitVec 80) : Banks := { b with flips := SMap.set noFlips b.flips w f }

def Banks.setWord (b : Banks) (w : Nat) (v : DWord) : Banks :=
  (List.range 8).foldl (fun b k => b.setByte (8 * w + k) (BitVec.ofNat 8 (v.toNat / 256 ^ k))) b

/-- A stored word takes a value, its poison and correct check bits. -/
def State.putWord (s : State) (w : Nat) (v : DWord) (p : Bool) : State :=
  { s with banks := ((s.banks.setWord w v).setPoison w p).setFlips w 0 }

/-- Cells that differ from what was stored: flipped cells, and cells stuck at the other level, which a spare word replaces
(R230). -/
def State.errMask (s : State) (w : Nat) : BitVec 80 :=
  SMap.get noFlips s.banks.flips w
    ||| (if SMap.get noFlag s.banks.spare w then 0 else
      (SMap.get noMask s.banks.stuckMask w &&& (s.word w ^^^ SMap.get noMask s.banks.stuckLevel w)).setWidth 80)

def popcount80 (x : BitVec 80) : Nat := ((List.range 80).filter fun k => x.getLsbD k).length

/-- What a check finds in a word (Table 09-5, R453). -/
inductive Check where
  | clean | correctable | uncorrectable | beyond
  deriving DecidableEq, Repr

/-- The check code that protects word w: DECTED for a spare word (R230), else the bank's. -/
def State.code (s : State) (key w : Nat) : Nat :=
  if SMap.get noFlag s.banks.spare w then 2 else s.fget (cfgReg key) Fld.memBankCfgCode

def State.check (s : State) (key w : Nat) : Check :=
  let m := s.errMask w
  match s.code key w with
  | 0 =>
    if m = 0 then .clean
    else if (List.range 8).any fun k =>
      (popcount80 (m &&& BitVec.ofNat 80 (0xFF * 256 ^ k)) + (if m.getLsbD (64 + k) then 1 else 0)) % 2 == 1
    then .uncorrectable
    else if m &&& BitVec.ofNat 80 (2 ^ 72 - 1) = 0 then .clean else .beyond
  | 1 =>
    let n := popcount80 (m &&& BitVec.ofNat 80 (2 ^ 72 - 1))
    if n = 0 then .clean else if n = 1 then .correctable else if n = 2 then .uncorrectable else .beyond
  | _ =>
    let n := popcount80 m
    if n = 0 then .clean else if n ≤ 2 then .correctable else if n = 3 then .uncorrectable else .beyond

/-- The bits as the cells hold them. -/
def State.rawWord (s : State) (w : Nat) : DWord := s.word w ^^^ (s.errMask w).setWidth 64

/-! ### The correction tracker (R228, R229) -/

def noTrk : Nat → Option TrkEntry := fun _ => none
def noScrub : Nat → Scrub := fun _ => { lapStart := 0, pos := [], skipped := false, writeBacks := [] }

def State.scrub (s : State) (c : Nat) : Scrub := SMap.get noScrub s.banks.scrub c
def State.setScrub (s : State) (c : Nat) (x : Scrub) : State :=
  { s with banks := { s.banks with scrub := SMap.set noScrub s.banks.scrub c x } }

def State.trk (s : State) (c n : Nat) : Option TrkEntry := SMap.get noTrk s.banks.tracker (32 * c + n)
def State.setTrk (s : State) (c n : Nat) (e : Option TrkEntry) : State :=
  { s with banks := { s.banks with tracker := SMap.set noTrk s.banks.tracker (32 * c + n) e } }

/-- The entry that holds word w. -/
def State.trkFind (s : State) (c w : Nat) : Option Nat :=
  (List.range 32).find? fun n => (s.trk c n).any fun e => e.word == w

/-- A place for a new entry: the lowest free one, or the entry with the lowest count, which is evicted. -/
def State.trkPlace (s : State) (c : Nat) : Nat × State :=
  match (List.range 32).find? fun n => (s.trk c n).isNone with
  | some n => (n, s)
  | none =>
    let cnt := fun n => ((s.trk c n).map (·.count)).getD 0
    let n := (List.range 32).foldl (fun best n => if cnt n < cnt best then n else best) 0
    (n, s.count (Addr.memTrkEvictCnt c))

/-- Word number within its bank. -/
def wordInBank (w : Nat) : Nat := w % 8192

/-- A correction of word w of bank `key` is tracked. -/
def State.trackCorrection (s : State) (key w : Nat) : State :=
  let c := key / 256
  match s.trkFind c w with
  | none =>
    let (n, s) := s.trkPlace c
    s.setTrk c n (some ⟨w, 1, false⟩)
  | some n =>
    match s.trk c n with
    | none => s
    | some e =>
      if e.wb then
        let s := (s.setTrk c n none).count (Addr.memRemapCandCnt c)
        let s :=
          if s.flag (Addr.memRemapCand c) Fld.memRemapCandValid then s.fset (Addr.memRemapCand c) Fld.memRemapCandOvf 1
          else
            ((s.fset (Addr.memRemapCand c) Fld.memRemapCandValid 1).fset (Addr.memRemapCand c) Fld.memRemapCandBank
              (key % 256)).fset (Addr.memRemapCand c) Fld.memRemapCandWord (wordInBank w)
        s.hostEvent Evt.memory
      else if e.count < 7 then s.setTrk c n (some { e with count := e.count + 1 })
      else
        let s := s.setTrk c n (some { e with count := 8 })
        let x := s.scrub c
        if x.writeBacks.any fun p => p.1 == w && p.2 then s
        else s.setScrub c { x with writeBacks := x.writeBacks ++ [(w, true)] }

/-- A write by a requester other than the scrubber frees the word's entry and drops a write-back that waits for it. -/
def State.noteWrite (s : State) (key w : Nat) : State :=
  let c := key / 256
  let s := match s.trkFind c w with
    | none => s
    | some n => s.setTrk c n none
  let x := s.scrub c
  if x.writeBacks.any fun p => p.1 == w then
    s.setScrub c { x with writeBacks := x.writeBacks.filter fun p => p.1 != w }
  else s

/-- A correctable error was found by a read (R220). -/
def State.noteCorrected (s : State) (key w : Nat) : State :=
  (s.count (Addr.memCeCnt (key / 256))).trackCorrection key w

/-- MEM_ERR_LOG with VALID set. -/
def memErrWord (code bank word : Nat) (who : Ident) : DWord :=
  BitVec.ofNat 64 (2 ^ 63 + code * 2 ^ 60 + bank * 2 ^ 44 + word * 2 ^ 31 + who.kind * 2 ^ 12 + who.index)

/-- An uncorrectable error was found (R221, R224): counted, logged, event 69, and a doubt in a CRIT bank. -/
def State.noteUncorrectable (s : State) (key w : Nat) (who : Ident) : State :=
  let c := key / 256
  let log := Addr.memErrLog c
  let s := s.count (Addr.memUeCnt c)
  let s :=
    if s.flag log Fld.memErrLogValid then s.fset log Fld.memErrLogOvf 1
    else
      s.setReg log (memErrWord (s.fget (cfgReg key) Fld.memBankCfgCode) (key % 256) (wordInBank w) who)
  let s := s.hostEvent Evt.memory
  if s.flag (cfgReg key) Fld.memBankCfgCrit then s.doubt Doubt.ueCrit else s

/-- Read word w: its data and its poison mark. Beyond what the code detects the outcome is one of R453's three. -/
def State.readWord (s : State) (key w : Nat) (who : Ident) : (DWord × Bool) × State :=
  if s.poisoned w then ((s.word w, true), s)
  else
    match s.check key w with
    | .clean => ((s.word w, false), s)
    | .correctable => ((s.word w, false), s.noteCorrected key w)
    | .uncorrectable => ((s.rawWord w, true), s.noteUncorrectable key w who)
    | .beyond =>
      let (k, s) := s.freeBelow 3
      if k = 0 then ((s.rawWord w, false), s)
      else if k = 1 then
        let (d, s) := s.free 64
        ((d, false), s.noteCorrected key w)
      else ((s.rawWord w, true), s.noteUncorrectable key w who)

/-- The bytes of `new` where the mask says so, else those of `old`. -/
def mergeBytes (old new : DWord) (mask : BitVec 8) : DWord :=
  BitVec.ofNat 64 (leVal ((List.range 8).map fun k =>
    BitVec.ofNat 8 ((if mask.getLsbD k then new.toNat else old.toNat) / 256 ^ k)))

/-- Check bits flipped in the bytes a PAR8 write does not touch. -/
def keepFlips (f : BitVec 80) (mask : BitVec 8) : BitVec 80 :=
  f &&& ~~~ ((List.range 8).foldl (fun m k => if mask.getLsbD k then
    m ||| BitVec.ofNat 80 (0xFF * 256 ^ k) ||| BitVec.ofNat 80 (2 ^ (64 + k)) else m) 0)

/-- Write the masked bytes of word w (R219, R222); `p` is the data's poison. -/
def State.writeWord (s : State) (key w : Nat) (who : Ident) (new : DWord) (mask : BitVec 8) (p : Bool) : State :=
  if mask = 0 then s
  else
    let wasPoison := s.poisoned w
    if mask = 0xFF then (s.putWord w new p).noteWrite key w
    else if s.code key w = 0 then
      let f := keepFlips (SMap.get noFlips s.banks.flips w) mask
      let s := s.putWord w (mergeBytes (s.word w) new mask) (p || wasPoison)
      { s with banks := s.banks.setFlips w f } |>.noteWrite key w
    else
      let ((old, bad), s) := s.readWord key w who
      (s.putWord w (mergeBytes old new mask) (p || bad || wasPoison)).noteWrite key w

/-- A bit-set or bit-clear alias write: one read-modify-write (R217). -/
def State.aliasWord (s : State) (key w : Nat) (who : Ident) (set : Bool) (new : DWord) (mask : BitVec 8) (p : Bool) :
    State :=
  let ((old, bad), s) := s.readWord key w who
  let bits := mergeBytes 0 new mask
  let v := if set then old ||| bits else old &&& ~~~ bits
  (s.putWord w v (p || bad)).noteWrite key w

/-! ### Ownership (R208, R209) -/

/-- A bank accepts a request: an identity equals the owner, SYSTEM in LOAD, or the debug access port. -/
def State.accepts (s : State) (key : Nat) (ids : List Ident) : Bool :=
  ids.any fun i => i == s.owner key || i == Ident.dap || (i == Ident.system && s.mode == Mode.load)

/-- The write-backs that wait for words of a bank are dropped: the words have been written (R226). -/
def State.dropWriteBacks (s : State) (key : Nat) : State :=
  let x := s.scrub (key / 256)
  let b := bankBase key / 8
  s.setScrub (key / 256) { x with writeBacks := x.writeBacks.filter fun p => !(b ≤ p.1 && p.1 < b + 8192) }

/-- Every word of a bank becomes zero, clean and unpoisoned (R231). Whether that frees the words' tracker entries, as a
requester's write does (R228), the spec leaves open: they stay (DESIGN CHOICE, log 65). -/
def State.initBank (s : State) (key : Nat) : State :=
  let b := bankBase key
  { s with banks := { s.banks with
      bytes := SMap.clearRange s.banks.bytes b (b + 0x10000)
      poison := SMap.clearRange s.banks.poison (b / 8) (b / 8 + 8192)
      flips := SMap.clearRange s.banks.flips (b / 8) (b / 8 + 8192) } }.dropWriteBacks key

/-- A new lap of block c's scrubber starts; its timer counts edges in RUN and IDLE only (R227). -/
def State.newLap (s : State) (c : Nat) : State :=
  s.setScrub c { s.scrub c with lapStart := s.time.runTicks, pos := [], skipped := false }

def noOwner : Nat → Option Nat := fun _ => none

/-- Step 4 of the bank's handover runs (R212). -/
def State.handoverClears (s : State) (key : Nat) : Bool :=
  s.flag (cfgReg key) Fld.memBankCfgClrHo || (identOf ((SMap.get noOwner s.banks.oldOwner key).getD 0)).kind == 6

/-- Steps 3 to 5 of Table 09-3: the clear if R212 asks for it, then the new owner is served. -/
def State.completeHandover (s : State) (key : Nat) : State :=
  if !s.pendingHandover key then s
  else
    let s := if s.handoverClears key then s.initBank key else s
    let s := (s.fset (ownerReg key) Fld.memOwnerPending 0).fset (ownerReg key) Fld.memOwnerClearing 0
    let s := { s with banks := { s.banks with oldOwner := SMap.set noOwner s.banks.oldOwner key none } }
    s.count (Addr.memHoCnt (key / 256))

/-- MEM_OWN_ERR_LOG with VALID set. -/
def ownErrWord (write : Bool) (bank : Nat) (who : Ident) : DWord :=
  BitVec.ofNat 64 (2 ^ 31 + (if write then 2 ^ 30 else 0) + bank * 2 ^ 16 + who.kind * 2 ^ 12 + who.index)

/-- A refused request is counted, and the first since the log was cleared is recorded (R209). -/
def State.noteOwnErr (s : State) (key : Nat) (ids : List Ident) (write : Bool) : State :=
  let c := key / 256
  let log := Addr.memOwnErrLog c
  let who := ids.headD Ident.system
  let s := s.count (Addr.memOwnErrCnt c)
  if s.flag log Fld.memOwnErrLogValid then s
  else s.setReg log (ownErrWord write (key % 256) who)

/-- The fence domain of a bank's block (R255). -/
def bankDomain (key : Nat) : Nat := if key / 256 = 24 then 29 else key / 256

/-- The bank's domain is fenced: asleep, or about to be (R232, R256). -/
def State.bankFenced (s : State) (key : Nat) : Bool := s.flag (Addr.nocFenceStat (bankDomain key)) Fld.nocFenceStatFenced

/-- A request to a fenced domain is answered TARGET_ASLEEP, or dropped where it is a posted write: one of a DMA engine, a
framer or an engine (R239, R256). -/
def State.noteAsleep (s : State) (ids : List Ident) (write : Bool) : State :=
  let k := (ids.headD Ident.system).kind
  s.count (if write && 2 ≤ k && k ≤ 4 then Addr.nocFenceDropCnt else Addr.nocFenceRejCnt)

/-- A request reaches a bank: answered TARGET_ASLEEP behind a fence, refused under R209, or accepted; a new owner's request
stalls until its handover completes (R211), so the handover completes first. -/
def State.letIn (s : State) (key : Nat) (ids : List Ident) (write : Bool) : Bool × State :=
  if s.bankFenced key then (false, s.noteAsleep ids write)
  else if s.accepts key ids then
    if s.pendingHandover key && (ids.any fun i => i == s.owner key) then (true, s.completeHandover key) else (true, s)
  else (false, s.noteOwnErr key ids write)

/-! ### Byte reads and writes -/

/-- The words that the range [a, a + n) touches. -/
def wordsOf (a n : Nat) : List Nat := if n = 0 then [] else (List.range ((a + n - 1) / 8 + 1 - a / 8)).map (a / 8 + ·)

/-- The banks that the range touches; `none` where it leaves memory. -/
def banksOf (a n : Nat) : List (Option Nat) :=
  if n = 0 then [] else (List.range ((a + n - 1) / 0x10000 + 1 - a / 0x10000)).map fun k => bankOf ((a / 0x10000 + k) * 0x10000)

/-- Every byte lies in a bank that accepts the requester. -/
def State.owns (s : State) (ids : List Ident) (a n : Nat) : Bool :=
  (banksOf a n).all fun b => match b with
    | some key => s.accepts key ids
    | none => false

/-- The word's bytes in [a, a + n). -/
def maskOf (a n w : Nat) : BitVec 8 :=
  BitVec.ofNat 8 ((List.range 8).foldl (fun m k => if a ≤ 8 * w + k ∧ 8 * w + k < a + n then m + 2 ^ k else m) 0)

/-- Read n bytes within memory, whatever the owner; each byte with the poison of its word. -/
def State.readMem (s : State) (who : Ident) (a n : Nat) : List (Byte × Bool) × State :=
  (wordsOf a n).foldl (fun (acc : List (Byte × Bool) × State) w =>
    match bankOf (8 * w) with
    | none => acc
    | some key =>
      let ((v, p), s) := acc.2.readWord key w who
      (acc.1 ++ ((List.range 8).filter fun k => (maskOf a n w).getLsbD k).map fun k =>
        (BitVec.ofNat 8 (v.toNat / 256 ^ k), p), s)) ([], s)

/-- Write bytes within memory, whatever the owner. -/
def State.writeMem (s : State) (who : Ident) (a : Nat) (data : List (Byte × Bool)) : State :=
  (wordsOf a data.length).foldl (fun s w =>
    match bankOf (8 * w) with
    | none => s
    | some key =>
      let at' := fun k => data.getD (8 * w + k - a) (0, false)
      let m := maskOf a data.length w
      let v := leVal ((List.range 8).map fun k => if m.getLsbD k then (at' k).1 else 0)
      s.writeWord key w who (BitVec.ofNat 64 v) m ((List.range 8).any fun k => m.getLsbD k && (at' k).2)) s

/-- Write through an alias. -/
def State.aliasMem (s : State) (who : Ident) (set : Bool) (a : Nat) (data : List (Byte × Bool)) : State :=
  (wordsOf a data.length).foldl (fun s w =>
    match bankOf (8 * w) with
    | none => s
    | some key =>
      let at' := fun k => data.getD (8 * w + k - a) (0, false)
      let m := maskOf a data.length w
      let v := leVal ((List.range 8).map fun k => if m.getLsbD k then (at' k).1 else 0)
      s.aliasWord key w who set (BitVec.ofNat 64 v) m ((List.range 8).any fun k => m.getLsbD k && (at' k).2)) s

/-- The clean bytes without marks. -/
def clean (l : List Byte) : List (Byte × Bool) := l.map fun b => (b, false)

/-- Some byte of what was read is poisoned. -/
def anyPoison (l : List (Byte × Bool)) : Bool := l.any (·.2)

def bytesOf (l : List (Byte × Bool)) : List Byte := l.map (·.1)

/-- Admission of a request to every bank of a range in turn; the first refusal ends it. -/
def State.admitRange (s : State) (ids : List Ident) (write : Bool) (a n : Nat) : Bool × State :=
  (banksOf a n).foldl (fun (acc : Bool × State) b =>
    if !acc.1 then acc
    else match b with
      | none => (false, acc.2.errDecode)
      | some key => acc.2.letIn key ids write) (true, s)

/-- A requester's read of a memory range: the bytes, or nothing where a bank refuses (R209) or nothing is there (R418). -/
def State.readBank (s : State) (ids : List Ident) (a n : Nat) : Option (List (Byte × Bool)) × State :=
  let (ok, s) := s.admitRange ids false a n
  if ok then
    let (d, s) := s.readMem (ids.headD Ident.system) a n
    (some d, s)
  else (none, s)

/-- A requester's write of a memory range; answers whether it was accepted. -/
def State.writeBank (s : State) (ids : List Ident) (a : Nat) (data : List (Byte × Bool)) : Bool × State :=
  let (ok, s) := s.admitRange ids true a data.length
  if ok then (true, s.writeMem (ids.headD Ident.system) a data) else (false, s)

/-! ### Handover (R210 to R212) -/

/-- Who writes a MEM_OWNER; `dispatcher` is Compass. -/
inductive OwnerWriter where
  | zelfa (z : Nat)
  | dispatcher
  | owner (i : Ident)
  | other
  deriving DecidableEq, Repr

/-- The write is accepted on every ground but that of a same-cycle write (R210). -/
def State.ownerWriteOk (s : State) (key : Nat) (who : OwnerWriter) (new : Ident) : Bool :=
  let cur := s.owner key
  let busy := s.pendingHandover key || s.flag (ownerReg key) Fld.memOwnerClearing
  let allowed := match who with
    | .zelfa _ => true
    | .dispatcher => new.kind != 6
    | .owner i => new.kind != 6 &&
        (if i.kind = 5 then cur.kind == 5 && (new.kind == 5 || new.kind == 0) else i == cur)
    | .other => false
  allowed && Ident.ownable new && !busy

/-- The order of priority among writers of one cycle (R210). -/
def OwnerWriter.rank : OwnerWriter → Nat
  | .zelfa z => z
  | .dispatcher => 16
  | .owner _ => 17
  | .other => 18

/-- An accepted write starts the handover; one that names the current owner changes nothing (R211, R212). -/
def State.startHandover (s : State) (key : Nat) (new : Ident) : State :=
  let cur := s.owner key
  if cur = new then s
  else
    let s := { s with banks := { s.banks with oldOwner := SMap.set noOwner s.banks.oldOwner key (some (Ident.code cur)) } }
    ((s.fset (ownerReg key) Fld.memOwnerKind new.kind).fset (ownerReg key) Fld.memOwnerIndex new.index).fset
      (ownerReg key) Fld.memOwnerPending 1

/-- One cycle's writes of one MEM_OWNER: exactly one acceptable write is applied, every other one is refused and counted
once (R210). -/
def State.ownerWrites (s : State) (key : Nat) (ws : List (OwnerWriter × Ident)) : State :=
  let ok := ws.filter fun w => s.ownerWriteOk key w.1 w.2
  let deny := fun (s : State) n => s.countBy (Addr.memOwnDenyCnt (key / 256)) n
  match ok with
  | [] => deny s ws.length
  | w :: l =>
    let best := l.foldl (fun b x => if x.1.rank < b.1.rank then x else b) w
    deny (s.startHandover key best.2) (ws.length - 1)

end Sys2Proof.Machine
end

