-- ==== Sys2Proof/Machine/FhQueue.lean ====
section
/-! DEFINITION. The launch queues of the fronthaul ports: holding, withdrawing and safe content (R283, R285, R288). -/

namespace Sys2Proof.Machine

def noEntries : Nat → List LqEntry := fun _ => []

/-- The entries port p holds, in push order. -/
def State.lq (s : State) (p : Nat) : List LqEntry := SMap.get noEntries s.fh.lq p

/-- The queue changes; FH_PORT_STAT.ARMED shows the entries armed and not yet sent. -/
def State.setLq (s : State) (p : Nat) (l : List LqEntry) : State :=
  { s with fh := { s.fh with lq := SMap.set noEntries s.fh.lq p l } }.fset (Addr.fhPortStat p) Fld.fhPortStatArmed
    (l.filter LqEntry.armed).length

/-- The image's entry of port p, if the port is used (Table 16-18). -/
def State.portT (s : State) (p : Nat) : Option PortT := SMap.get (fun _ => none) s.img.ports p

/-- A type 0 port is a CPRI link (Table 12-2). -/
def PortT.isCpri (t : PortT) : Bool := t.type == 0

def State.isCpri (s : State) (p : Nat) : Bool := (s.portT p).any PortT.isCpri

/-! ### CPRI containers (R276, R277) -/

/-- The basic frame under way at record time t: one lasts 1 / 3.84 MHz. -/
def basicFrame (t : Nat) : Nat := t * 384 / 100000

/-- The first basic frame at or after record time t (R287). -/
def basicFrameFrom (t : Nat) : Nat := ceilDiv (t * 384) 100000

def noSpans : Nat → List CpriSpan := fun _ => []
def State.cpriSpans (s : State) (p : Nat) : List CpriSpan := SMap.get noSpans s.fh.cpri p

/-- Safe content for an entry: no frame on Ethernet, zero IQ on CPRI (R288). -/
def State.safeContent (s : State) (p : Nat) (e : LqEntry) : State :=
  if s.isCpri p then s.emit (.cpriZero p e.stream e.launch) else s

/-- Withdraw the entries of port p that `f` names: safe content for each, counted in FH_WITHDRAWN_CNT (R285, R287). -/
def State.withdrawOn (s : State) (p : Nat) (f : LqEntry → Bool) : State :=
  let gone := (s.lq p).filter f
  let s := s.setLq p ((s.lq p).filter fun e => !f e)
  (s.each gone fun s e => s.safeContent p e).countBy (Addr.fhWithdrawnCnt p) gone.length

/-- Withdraw entries on every port. -/
def State.withdrawAll (s : State) (f : LqEntry → Bool) : State := s.each (List.range 64) fun s p => s.withdrawOn p f

/-- A job's entries become eligible (R285). -/
def State.makeEligible (s : State) (h : Nat) : State :=
  s.each (List.range 64) fun s p =>
    if (s.lq p).any fun e => e.job == h then
      s.setLq p ((s.lq p).map fun e => if e.job = h then { e with eligible := true } else e)
    else s

end Sys2Proof.Machine
end

