-- ==== Sys2Proof/Machine/EngineDesc.lean ====
section
/-! DEFINITION. Instances and calendar indices (Table 03-1), and the engines' descriptors: their fields, their ranges, the
areas they touch and the checks before any input is read (R140 to R146, R162, R193, Tables 06-1 to 06-5, 07-1 to 07-10,
08-3). -/

namespace Sys2Proof.Machine

/-! ### Instances -/

/-- First calendar index of each class (Table 03-1). -/
def classBase (cls : Nat) : Nat := [0, 192, 384, 400, 448, 464, 488, 504, 520, 552, 680, 744].getD cls 0

def calIndex (cls inst : Nat) : Nat := classBase cls + inst

/-- The class of calendar index q. -/
def classOf (q : Nat) : Nat := ((List.range 12).filter fun c => classBase c ≤ q).length - 1

def instOf (q : Nat) : Nat := q - classBase (classOf q)

/-- The identity an instance of a class has as a bank's owner (Table 09-2). -/
def instIdent (cls inst : Nat) : Ident :=
  if cls ≤ 1 then Ident.tile inst
  else if cls ≤ 8 then Ident.acc (calIndex cls inst)
  else if cls = 9 then Ident.sdc inst
  else if cls = 10 then Ident.framer (inst / 8)
  else Ident.mover

/-- Accelerator instances of a class per sector (Table 01-2). -/
def perSector (cls : Nat) : Nat := [1, 1, 4, 12, 4, 6, 4, 4, 8].getD cls 1

/-- The sector of an accelerator instance. -/
def sectorOf (q : Nat) : Nat := instOf q / perSector (classOf q)

/-- The status register of an accelerator instance. -/
def instStat (q : Nat) : Nat :=
  match classOf q with
  | 2 => Addr.mtxInstStat (instOf q)
  | 7 => Addr.fftInstStat (instOf q)
  | 8 => Addr.praInstStat (instOf q)
  | _ => Addr.cceInstStat (q - 400)

def stopCnt (cls : Nat) : Nat :=
  match cls with
  | 2 => Addr.mtxStopCnt | 7 => Addr.fftStopCnt | 8 => Addr.praStopCnt | 9 => Addr.sdcStopCnt | _ => Addr.cceStopCnt

def haltCnt (cls : Nat) : Nat :=
  match cls with
  | 2 => Addr.mtxHaltCnt | 7 => Addr.fftHaltCnt | 8 => Addr.praHaltCnt | 9 => Addr.sdcHaltCnt | _ => Addr.cceHaltCnt

def paramCnt (cls : Nat) : Nat :=
  match cls with
  | 2 => Addr.mtxParamErrCnt | 7 => Addr.fftParamErrCnt | 8 => Addr.praParamErrCnt | 9 => Addr.sdcParamErrCnt
  | _ => Addr.cceParamErrCnt

def accessCnt (cls : Nat) : Nat :=
  match cls with
  | 2 => Addr.mtxAccessErrCnt | 7 => Addr.fftAccessErrCnt | 8 => Addr.praAccessErrCnt | 9 => Addr.sdcAccessErrCnt
  | _ => Addr.cceAccessErrCnt

def descCnt (cls : Nat) : Nat :=
  match cls with
  | 2 => Addr.mtxDescCnt | 7 => Addr.fftDescCnt | 8 => Addr.praDescCnt | 9 => Addr.sdcDescCnt | k => Addr.cceDescCnt k

/-! ### Descriptor fields -/

abbrev Desc := Nat

def Desc.op (d : Desc) : Nat := recF d 0x00 7 0
def Desc.version (d : Desc) : Nat := recF d 0x01 7 0
def Desc.flag (d : Desc) (i : Nat) : Bool := recF d 0x02 i i == 1
def Desc.inAddr (d : Desc) : Nat := recF d 0x08 63 0
def Desc.outAddr (d : Desc) : Nat := recF d 0x10 63 0
/-- SB_ADDR of a coding descriptor, AUX_ADDR of a receive descriptor, LINE_IDX of a chain's. -/
def Desc.auxAddr (d : Desc) : Nat := recF d 0x18 63 0
def Desc.statusAddr (d : Desc) : Nat := recF d 0x20 63 0
def Desc.cInit (d : Desc) : Nat := recF d 0x04 30 0

-- Coding (Tables 06-2 to 06-4)
def Desc.scr (d : Desc) : Bool := Desc.flag d 0
def Desc.combine (d : Desc) : Bool := Desc.flag d 1
def Desc.sbEn (d : Desc) : Bool := Desc.flag d 2
def Desc.etEn (d : Desc) : Bool := Desc.flag d 3
def Desc.tbCrcEn (d : Desc) : Bool := Desc.flag d 4
def Desc.tbCrc16 (d : Desc) : Bool := Desc.flag d 5
def Desc.ilv (d : Desc) : Bool := Desc.flag d 6
def Desc.bg (d : Desc) : Nat := recF d 0x28 15 15
def Desc.zk (d : Desc) : Nat := recF d 0x28 12 0
def Desc.iterCap (d : Desc) : Nat := recF d 0x2A 7 0
def Desc.qm (d : Desc) : Nat := recF d 0x2B 7 4
def Desc.rv (d : Desc) : Nat := recF d 0x2B 1 0
def Desc.blocks (d : Desc) : Nat := recF d 0x2C 15 0
def Desc.c0 (d : Desc) : Nat := recF d 0x2E 15 0
def Desc.e0 (d : Desc) : Nat := recF d 0x30 23 0
def Desc.e1 (d : Desc) : Nat := recF d 0x34 23 0
def Desc.nCb (d : Desc) : Nat := recF d 0x38 23 0
def Desc.fill (d : Desc) : Nat := recF d 0x3C 15 0
def Desc.pN (d : Desc) : Nat := recF d 0x28 15 0
def Desc.pK (d : Desc) : Nat := recF d 0x2A 15 0
def Desc.pE (d : Desc) : Nat := recF d 0x2C 15 0
def Desc.pCrc (d : Desc) : Nat := recF d 0x2E 1 0
def Desc.pNpc (d : Desc) : Nat := recF d 0x2F 1 0

/-- Rate-matched bits of code block c: E0 for the leading C0 blocks, else E1. -/
def Desc.eOf (d : Desc) (c : Nat) : Nat := if c < Desc.c0 d then Desc.e0 d else Desc.e1 d

/-- Bits per code block before coding: 22 Z or 10 Z for LDPC (Table 06-5), the code-block size for turbo. -/
def Desc.kOf (d : Desc) : Nat :=
  if Desc.op d = 5 then Desc.zk d else if Desc.bg d = 0 then 22 * Desc.zk d else 10 * Desc.zk d

/-- Length of the transport-block CRC (R148). -/
def Desc.lTb (d : Desc) : Nat :=
  if !Desc.tbCrcEn d then 0 else if Desc.tbCrc16 d && Desc.op d != 5 then 16 else 24

/-- Information bits of one code block, its CRC24B and fillers excluded. -/
def Desc.cbInfo (d : Desc) : Nat := Desc.kOf d - Desc.fill d - (if 1 < Desc.blocks d then 24 else 0)

/-- Bits of the transport block without its CRC (R148). -/
def Desc.tbBits (d : Desc) : Nat := Desc.blocks d * Desc.cbInfo d - Desc.lTb d

def Desc.eSum (d : Desc) : Nat :=
  let c := Desc.blocks d
  let a := min c (Desc.c0 d)
  a * Desc.e0 d + (c - a) * Desc.e1 d

def Desc.pCrcLen (d : Desc) : Nat := [24, 11, 6].getD (Desc.pCrc d) 24
def Desc.pParity (d : Desc) : Nat := if Desc.pNpc d = 0 then 0 else 3

/-- Lines of one code block's soft buffer (R157). -/
def Desc.sbLines (d : Desc) : Nat := 1 + ceilDiv (Desc.nCb d) 128

-- Receive (Tables 07-1, 07-4, 07-7, 07-10)
def Desc.count (d : Desc) : Nat := recF d 0x04 15 0
def Desc.carrier (d : Desc) : Nat := recF d 0x06 8 0
def Desc.fN (d : Desc) : Nat := recF d 0x28 15 0
def Desc.fNsc (d : Desc) : Nat := recF d 0x2A 15 0
def Desc.fNcp (d : Desc) : Nat := recF d 0x2C 15 0
def Desc.fNcp0 (d : Desc) : Nat := recF d 0x2E 15 0
def Desc.fWoff (d : Desc) : Nat := recF d 0x30 15 0
def Desc.fStreams (d : Desc) : Nat := recF d 0x32 7 0
def Desc.fAgcTgt (d : Desc) : Int := signed 8 (recF d 0x33 7 0)
def Desc.fHalf (d : Desc) : Bool := Desc.flag d 0
def Desc.fDcSkip (d : Desc) : Bool := Desc.flag d 1
def Desc.fAgc (d : Desc) : Bool := Desc.flag d 2
def Desc.fCpest (d : Desc) : Bool := Desc.flag d 3
def Desc.mA (d : Desc) : Nat := recF d 0x28 7 0
def Desc.mL (d : Desc) : Nat := recF d 0x29 7 0
def Desc.mNre (d : Desc) : Nat := recF d 0x2A 15 0
def Desc.mGrp (d : Desc) : Nat := recF d 0x2C 15 0
def Desc.mTaps (d : Desc) : Nat := recF d 0x2E 7 0
def Desc.mDsep (d : Desc) : Nat := recF d 0x2F 7 0
def Desc.mSp (d : Desc) : Nat := recF d 0x30 7 0
def Desc.mNres (d : Desc) : Nat := recF d 0x31 7 0
def Desc.mCplen (d : Desc) : Nat := recF d 0x32 15 0
def Desc.mScs (d : Desc) : Nat := recF d 0x34 15 0
def Desc.mPhstep (d : Desc) : Nat := recF d 0x36 15 0
def Desc.mSym0 (d : Desc) : Nat := recF d 0x38 7 0
def Desc.mSref (d : Desc) : Nat := recF d 0x39 7 0
def Desc.mIrc (d : Desc) : Bool := Desc.flag d 0
def Desc.mDl (d : Desc) : Bool := Desc.flag d 1
def Desc.rLra (d : Desc) : Nat := recF d 0x28 15 0
def Desc.rNcs (d : Desc) : Nat := recF d 0x2A 15 0
def Desc.rA (d : Desc) : Nat := recF d 0x2C 7 0
def Desc.rRep (d : Desc) : Nat := recF d 0x2D 7 0
def Desc.rWlen (d : Desc) : Nat := recF d 0x2E 15 0
def Desc.rPbase (d : Desc) : Nat := recF d 0x30 7 0

/-- The inverse DFT size of a sequence length (Table 07-10). -/
def praNi (lra : Nat) : Nat := if lra = 139 then 256 else if lra = 1151 then 2048 else 1024
/-- The zone length ZL (R182). -/
def Desc.rZl (d : Desc) : Nat :=
  if Desc.rNcs d = 0 then praNi (Desc.rLra d) else Desc.rNcs d * praNi (Desc.rLra d) / Desc.rLra d
/-- Preambles per root (R182). -/
def Desc.rP (d : Desc) : Nat := if Desc.rNcs d = 0 then 1 else Desc.rLra d / Desc.rNcs d

-- Chains (Table 08-3)
def Desc.sNin (d : Desc) : Nat := recF d 0x04 31 0
def Desc.sOutMax (d : Desc) : Nat := recF d 0x28 31 0
def Desc.sTarget (d : Desc) : Bool := recF d 0x2C 0 0 == 1

/-! ### Areas -/

def roundUp64 (n : Nat) : Nat := ceilDiv n 64 * 64

/-- Bytes of a matrix block (R172). -/
def blockBytes (rows cols : Nat) : Nat := roundUp64 (16 + 4 * (rows * cols))

def Desc.groups (d : Desc) : Nat :=
  if Desc.op d = 0x20 then ceilDiv (Desc.mNre d) (max 1 (Desc.mGrp d / max 1 (Desc.mSp d)))
  else ceilDiv (Desc.mNre d) (max 1 (Desc.mGrp d))

/-- Bytes of a weight block with its SINR line. -/
def Desc.weightBytes (d : Desc) : Nat := blockBytes (Desc.mL d) (Desc.mA d) + 64
def Desc.sicBytes (d : Desc) : Nat := Desc.weightBytes d + blockBytes (Desc.mL d) (Desc.mL d)

/-- Bytes of one stream's input symbols with their cyclic prefixes (R164). -/
def Desc.fStreamIn (d : Desc) : Nat :=
  4 * (Desc.fNcp0 d + Desc.fN d + (Desc.count d - 1) * (Desc.fNcp d + Desc.fN d))

def Desc.inLen (d : Desc) : Nat :=
  let n := Desc.count d
  let res := 4 * n * Desc.mNre d
  match Desc.op d with
  | 0x01 | 0x05 => Desc.eSum d
  | 0x02 => ceilDiv (Desc.tbBits d) 8
  | 0x03 => Desc.pE d
  | 0x04 => ceilDiv (Desc.pK d - Desc.pCrcLen d - Desc.pParity d) 8
  | 0x10 => Desc.fStreams d * Desc.fStreamIn d
  | 0x11 | 0x12 => Desc.fStreams d * n * Desc.fNsc d * 4
  | 0x20 => res * (Desc.mA d * Desc.mL d)
  | 0x21 | 0x23 | 0x25 => n * blockBytes (Desc.mA d) (Desc.mL d)
  | 0x22 => n * blockBytes (Desc.mA d) (Desc.mA d)
  | 0x24 => res * (if Desc.mDl d then Desc.mL d else Desc.mA d)
  | 0x26 => roundUp64 (res * Desc.mA d) + res * Desc.mL d
  | 0x30 => 4 * (Desc.rRep d * Desc.rA d * Desc.rLra d)
  | 0x40 => 4 * Desc.sNin d
  | _ => 4 * 12288

def Desc.outLen (d : Desc) : Nat :=
  let n := Desc.count d
  let res := 4 * n * Desc.mNre d
  match Desc.op d with
  | 0x01 | 0x05 => ceilDiv (Desc.tbBits d) 8
  | 0x02 => ceilDiv (Desc.eSum d) 8
  | 0x03 => ceilDiv (Desc.pK d - Desc.pCrcLen d - Desc.pParity d) 8
  | 0x04 => ceilDiv (Desc.pE d) 8
  | 0x10 | 0x12 => Desc.fStreams d * n * Desc.fNsc d * 4
  | 0x11 => Desc.fStreams d * Desc.fStreamIn d
  | 0x20 => Desc.groups d * blockBytes (Desc.mA d) (Desc.mL d)
  | 0x21 => n * Desc.weightBytes d
  | 0x22 => n * blockBytes (Desc.mA d) (Desc.mA d)
  | 0x23 => n * (blockBytes (Desc.mA d) (Desc.mL d) + blockBytes (Desc.mL d) (Desc.mL d))
  | 0x24 => res * (if Desc.mDl d then Desc.mA d else Desc.mL d)
  | 0x25 => n * Desc.sicBytes d
  | 0x26 => res * Desc.mL d
  | 0x30 => 8 * min (n * Desc.rP d) (64 - Desc.rPbase d)
  | 0x40 => 4 * Desc.sOutMax d
  | _ => 0

/-- Bytes of the soft buffers (R157), or of the auxiliary area of a receive descriptor. -/
def Desc.auxLen (d : Desc) : Nat :=
  let n := Desc.count d
  match Desc.op d with
  | 0x01 | 0x05 => if Desc.sbEn d then 64 * Desc.blocks d * Desc.sbLines d else 0
  | 0x10 | 0x12 => if Desc.fAgc d then 64 + n * Desc.fStreams d else 0
  | 0x20 => 4 * Desc.mTaps d
  | 0x21 => if Desc.mIrc d then n * blockBytes (Desc.mA d) (Desc.mNres d) else 0
  | 0x24 => Desc.groups d *
      (if Desc.mDl d then blockBytes (Desc.mA d) (Desc.mL d) + 64 else Desc.weightBytes d)
  | 0x25 => 64 * n
  | 0x26 => Desc.groups d * Desc.sicBytes d
  | 0x30 => 2 * n
  | _ => 0

/-! ### Ranges (PARAM) -/

/-- The 51 lifting sizes of TS 38.212 Table 5.3.2-1 (PRESUMED from the standard the spec names). -/
def isLifting (z : Nat) : Bool :=
  2 ≤ z && z ≤ 384 && [2, 3, 5, 7, 9, 11, 13, 15].any fun a => (List.range 8).any fun j => a * 2 ^ j == z

/-- The 188 turbo block sizes of TS 36.212 Table 5.1.3-3 (PRESUMED from the standard the spec names). -/
def isTurboK (k : Nat) : Bool :=
  (40 ≤ k && k ≤ 512 && k % 8 == 0) || (512 < k && k ≤ 1024 && k % 16 == 0) || (1024 < k && k ≤ 2048 && k % 32 == 0)
    || (2048 < k && k ≤ 6144 && k % 64 == 0)

/-- No bit of the byte ranges is set: (offset, high bit, low bit). -/
def Desc.zeros (d : Desc) (l : List (Nat × Nat × Nat)) : Bool := l.all fun p => recF d p.1 p.2.1 p.2.2 == 0

def alignedAddr (a : Nat) : Bool := a % 64 == 0 && a < 2 ^ 48

def between (lo x hi : Nat) : Bool := lo ≤ x && x ≤ hi

/-- The fields of a coding descriptor lie where Tables 06-1 to 06-5 have them; a flag its OP does not take is 0 (log 58). -/
def Desc.codeOk (d : Desc) : Bool :=
  let op := Desc.op d
  let c := Desc.blocks d
  let k := Desc.kOf d
  let z := Desc.zk d
  let qm := Desc.qm d
  let eOk := fun e => between qm e 16777215 && e % qm == 0
  Desc.zeros d [(0x02, 15, 8), (0x04, 31, 31), (0x28, 14, 13), (0x2B, 3, 2), (0x30, 31, 24), (0x34, 31, 24),
    (0x38, 31, 24), (0x3E, 15, 0)]
  && (if op = 5 then [2, 4, 6, 8].contains qm else [1, 2, 4, 6, 8].contains qm)
  && (if op = 5 then isTurboK z else isLifting z)
  && (op == 2 || between 1 (Desc.iterCap d) (if op = 5 then 8 else 32))
  && between 1 c 256 && between 1 (Desc.c0 d) c
  && eOk (Desc.e0 d) && (Desc.c0 d == c || eOk (Desc.e1 d))
  && (if op = 5 then between (k + 4) (Desc.nCb d) (3 * (k + 4))
      else between k (Desc.nCb d) ((if Desc.bg d = 0 then 66 else 50) * z) && Desc.fill d < Desc.nCb d)
  && between 0 (Desc.fill d + (if 1 < c then 24 else 0) + 1) k
  && (op != 2 || !(Desc.sbEn d || Desc.combine d || Desc.etEn d) && Desc.iterCap d == 0)
  && (op != 5 || !Desc.tbCrc16 d && Desc.bg d == 0) && !Desc.flag d 7
  && (Desc.sbEn d || Desc.auxAddr d == 0)

def Desc.polarOk (d : Desc) : Bool :=
  Desc.zeros d [(0x02, 15, 8), (0x02, 5, 1), (0x04, 31, 31), (0x2E, 7, 2), (0x2F, 7, 2), (0x32, 111, 0)]
  && Desc.auxAddr d == 0
  && [32, 64, 128, 256, 512, 1024].contains (Desc.pN d)
  && Desc.pCrc d ≤ 2 && Desc.pNpc d ≤ 2
  && between (Desc.pCrcLen d + 1) (Desc.pK d + Desc.pParity d) (Desc.pN d) && Desc.pCrcLen d + 1 ≤ Desc.pK d
  && between (Desc.pK d) (Desc.pE d) 8192

def Desc.fftOk (d : Desc) : Bool :=
  let op := Desc.op d
  let n := Desc.fN d
  let t := recF d 0x33 7 0
  Desc.zeros d [(0x02, 15, 4), (0x06, 15, 9), (0x3C, 31, 0)]
  && between 1 (Desc.count d) 14
  && [128, 256, 512, 1024, 1536, 2048, 3072, 4096].contains n
  && between 12 (Desc.fNsc d) n && Desc.fNsc d % 12 == 0
  && Desc.fNcp d ≤ n / 4 && Desc.fNcp0 d ≤ n / 4
  && (if op = 0x10 then Desc.fWoff d ≤ min (Desc.fNcp d) (Desc.fNcp0 d) else Desc.fWoff d == 0)
  && between 1 (Desc.fStreams d) 64
  && between 196 t 254
  && (!Desc.fHalf d || op != 0x12) && (!Desc.fDcSkip d || op == 0x11) && (!Desc.fAgc d || op != 0x11)
  && (!Desc.fCpest d || op == 0x10) && (Desc.fAgc d == (Desc.auxAddr d != 0))

/-- The MATRIX fields an operation uses; the others must be 0 (Table 07-7). -/
def Desc.matrixOk (d : Desc) : Bool :=
  let op := Desc.op d
  let uses := fun (ops : List Nat) => ops.contains op
  let fld := fun (used : Bool) (x lo hi : Nat) => if used then between lo x hi else x == 0
  let cef := op == 0x20
  let app := uses [0x24, 0x26]
  Desc.zeros d [(0x02, 15, 2), (0x06, 15, 9), (0x3A, 47, 0)]
  && (if cef then between 1 (Desc.count d) 2 else 1 ≤ Desc.count d)
  && between 1 (Desc.mA d) 64
  && (if op = 0x23 then between 1 (Desc.mL d) (Desc.mA d) else fld (op != 0x22) (Desc.mL d) 1 16)
  && fld (cef || app) (Desc.mNre d) 1 3300
  && fld (cef || app) (Desc.mGrp d) 12 3300 && Desc.mGrp d % 12 == 0
  && fld cef (Desc.mTaps d) 1 23 && (!cef || Desc.mTaps d % 2 == 1)
  && (if cef then if Desc.count d = 2 then between 1 (Desc.mDsep d) 13 else Desc.mDsep d == 0 else Desc.mDsep d == 0)
  && fld cef (Desc.mSp d) 1 6
  && fld (op == 0x21 && Desc.mIrc d) (Desc.mNres d) 1 255
  && fld cef (Desc.mCplen d) 0 65535
  && (if cef then [15, 30, 60, 120].contains (Desc.mScs d) else Desc.mScs d == 0)
  && fld app (Desc.mPhstep d) 0 65535 && fld app (Desc.mSym0 d) 0 13 && fld app (Desc.mSref d) 0 13
  && (!Desc.mIrc d || op == 0x21) && (!Desc.mDl d || op == 0x24)
  && (!(uses [0x22, 0x23] || op == 0x21 && !Desc.mIrc d) || Desc.auxAddr d == 0)

def Desc.praOk (d : Desc) : Bool :=
  Desc.zeros d [(0x02, 15, 0), (0x06, 15, 9), (0x31, 119, 0)]
  && [139, 571, 839, 1151].contains (Desc.rLra d)
  && between 1 (Desc.count d) 64
  && Desc.rNcs d < Desc.rLra d && between 1 (Desc.rA d) 16 && between 1 (Desc.rRep d) 12
  && between 1 (Desc.rWlen d) (Desc.rZl d) && Desc.rPbase d ≤ 63

def Desc.sdcOk (d : Desc) : Bool :=
  let run := Desc.op d == 0x40
  Desc.zeros d [(0x02, 15, 0), (0x2C, 7, 1), (0x2D, 151, 0)]
  && (if run then between 1 (Desc.sNin d) 131072 && between 1 (Desc.sOutMax d) 1048576 && !Desc.sTarget d
        && (Desc.auxAddr d < 2 ^ 48 || Desc.auxAddr d == 2 ^ 64 - 1)
      else Desc.sNin d == 0 && Desc.outAddr d == 0 && Desc.auxAddr d == 0 && Desc.sOutMax d == 0)

/-- The operations of a class (R142, R162, R193). -/
def classOps (cls : Nat) : List Nat :=
  match cls with
  | 2 => [0x20, 0x21, 0x22, 0x23, 0x24, 0x25, 0x26]
  | 3 => [0x01] | 4 => [0x02] | 5 => [0x03, 0x04] | 6 => [0x05]
  | 7 => [0x10, 0x11, 0x12] | 8 => [0x30] | 9 => [0x40, 0x41]
  | _ => []

/-- The descriptor passes the PARAM check of a class. Every address, SB_ADDR and AUX_ADDR included, lies in the 48-bit space
(DESIGN CHOICE, log 62). -/
def Desc.paramOk (d : Desc) (cls : Nat) : Bool :=
  (classOps cls).contains (Desc.op d) && Desc.version d == 1
  && alignedAddr (Desc.inAddr d) && alignedAddr (Desc.outAddr d) && Desc.statusAddr d < 2 ^ 48
  && (cls == 9 || alignedAddr (Desc.auxAddr d))
  && (match cls with
      | 2 => Desc.matrixOk d
      | 3 | 4 | 6 => Desc.codeOk d
      | 5 => Desc.polarOk d
      | 7 => Desc.fftOk d
      | 8 => Desc.praOk d
      | 9 => Desc.sdcOk d
      | _ => false)

/-- Two byte ranges overlap. -/
def overlaps (a b : Nat × Nat) : Bool := a.2 != 0 && b.2 != 0 && a.1 < b.1 + b.2 && b.1 < a.1 + a.2

/-- Two of the areas overlap (R144). -/
def anyOverlap : List (Nat × Nat) → Bool
  | [] => false
  | a :: l => l.any (overlaps a) || anyOverlap l

/-- The identity through which a descriptor's soft buffer or auxiliary area is reached (R141, R162). -/
def auxIdent (q : Nat) : Ident :=
  if classOf q = 3 ∨ classOf q = 6 then Ident.harq (sectorOf q) else instIdent (classOf q) (instOf q)

/-- R144's checks in order: 1 PARAM, 2 ACCESS, 3 OVERLAP, 0 none. -/
def State.descCheck (s : State) (q : Nat) (at' : Nat) (d : Desc) : Nat :=
  let me := instIdent (classOf q) (instOf q)
  if !Desc.paramOk d (classOf q) then 1
  else if !(s.owns [me] (Desc.inAddr d) (Desc.inLen d) && s.owns [me] (Desc.outAddr d) (Desc.outLen d)
      && s.owns [auxIdent q] (Desc.auxAddr d) (Desc.auxLen d)) then 2
  else if anyOverlap [(at', 64), (Desc.inAddr d, Desc.inLen d), (Desc.outAddr d, Desc.outLen d),
      (Desc.statusAddr d, 64), (Desc.auxAddr d, Desc.auxLen d)] then 3
  else 0

/-! ### Undefined areas and aborts -/

/-- The bytes of [a, a + n) take free values (data and poison the spec calls undefined). -/
def State.freeFill (s : State) (a n : Nat) : State :=
  (wordsOf a n).foldl (fun s w =>
    match bankOf (8 * w) with
    | none => s
    | some _ =>
      let (d, s) := s.free 64
      let (p, s) := s.freeBelow 2
      s.putWord w (mergeBytes (s.word w) d (maskOf a n w)) (p == 1)) s

/-- The sector's HARQ locks. -/
def noLocks : Nat → List SbLock := fun _ => []
def State.locks (s : State) (sector : Nat) : List SbLock := SMap.get noLocks s.eng.locks sector
def State.setLocks (s : State) (sector : Nat) (l : List SbLock) : State :=
  { s with eng := { s.eng with locks := SMap.set noLocks s.eng.locks sector l } }

/-- The instance's HARQ lock is released (R146, R159). -/
def State.unlock (s : State) (q : Nat) : State :=
  if classOf q = 3 ∨ classOf q = 6 then
    let k := sectorOf q
    s.setLocks k ((s.locks k).filter fun l => l.inst != q)
  else s

def State.engineDone (s : State) (q : Nat) : Bool := SMap.get noFlag s.eng.done q
def State.setEngineDone (s : State) (q : Nat) (b : Bool) : State :=
  { s with eng := { s.eng with done := SMap.set noFlag s.eng.done q b } }

def State.engineHalted (s : State) (q : Nat) : Bool := SMap.get noFlag s.eng.halted q
def State.setEngineHalted (s : State) (q : Nat) (b : Bool) : State :=
  { s with eng := { s.eng with halted := SMap.set noFlag s.eng.halted q b } }

def Chain.init : Chain :=
  { nextIdx := 0, needSync := true, count := 0, outs := 0, pos := 0, lines := [], hist := [], fillLeft := 0, bankB := false, fade := none,
    queued := none, valid := [] }

def State.chain (s : State) (n : Nat) : Chain := SMap.get (fun _ => Chain.init) s.chains n
def State.setChain (s : State) (n : Nat) (c : Chain) : State :=
  { s with chains := SMap.set (fun _ => Chain.init) s.chains n c }

/-- Every chain's next RUN starts with a synchronising reset: after an exit from SLEEP (R196). -/
def State.resyncChains (s : State) : State :=
  s.each (s.chains.map (·.1)) fun s n => s.setChain n { s.chain n with needSync := true }

/-! ### A descriptor under way -/

/-- The instance, the job and stage it runs, its selection and the descriptor. -/
structure EngRun where
  q : Nat
  h : Nat
  k : Nat
  tag : Nat
  d : Desc
  sel : Nat
  deriving DecidableEq, Repr

def EngRun.me (x : EngRun) : Ident := instIdent (classOf x.q) (instOf x.q)

/-- The pieces of [a, a + n), one for each bank it touches. -/
def pieces (a n : Nat) : List (Nat × Nat) :=
  if n = 0 then [] else (List.range ((a + n - 1) / 0x10000 + 1 - a / 0x10000)).map fun k =>
    let b := max a ((a / 0x10000 + k) * 0x10000)
    (b, min (a + n) ((a / 0x10000 + k + 1) * 0x10000) - b)

/-- An engine's read: a pending handover to it completes first (R211), and a bank behind a fence answers with every byte
poisoned (R256). -/
def State.engRead (s : State) (who : Ident) (a n : Nat) : List (Byte × Bool) × State :=
  (pieces a n).foldl (fun (acc : List (Byte × Bool) × State) p =>
    let (ok, s) := acc.2.admitRange [who] false p.1 p.2
    if ok then
      let (l, s) := s.readMem who p.1 p.2
      (acc.1 ++ l, s)
    else (acc.1 ++ List.replicate p.2 (0, true), s)) ([], s)

/-- An engine's write; what goes to a bank behind a fence is dropped (R256). -/
def State.engWrite (s : State) (who : Ident) (a : Nat) (data : List (Byte × Bool)) : State :=
  s.each (pieces a data.length) fun s p =>
    let (ok, s) := s.admitRange [who] true p.1 p.2
    if ok then s.writeMem who p.1 ((data.drop (p.1 - a)).take p.2) else s

end Sys2Proof.Machine
end

