-- ==== Sys2Proof/Machine/CodeMath.lean ====
section
/-! DEFINITION. The bit-level procedures of the channel codes that the spec takes from TS 38.212 and TS 36.212: packing,
scrambling, interleaving, rate matching and the polar construction (R147 to R154), computed; their tables are those of the
standards the spec names (PRESUMED, log 61). -/

namespace Sys2Proof.Machine

/-! ### Bits and soft values -/

/-- The bits of a packed stream, the first in bit 7 of byte 0 (R147). -/
def unpackBits (l : List Byte) (n : Nat) : List Bool :=
  (List.range n).map fun i => (l.getD (i / 8) 0).getLsbD (7 - i % 8)

def packByte (l : List Bool) (i : Nat) : Byte :=
  BitVec.ofNat 8 ((List.range 8).foldl (fun a b => 2 * a + (if l.getD (8 * i + b) false then 1 else 0)) 0)

def packBits (l : List Bool) : List Byte := (List.range (ceilDiv l.length 8)).map (packByte l)

def sat127 (x : Int) : Int := max (-127) (min 127 x)

/-- An LLR clipped to ±31 (R147). -/
def llrOf (b : Byte) : Int := max (-31) (min 31 b.toInt)

def clipped (l : List (Byte × Bool)) : Bool := l.any fun b => 31 < b.1.toInt.natAbs

/-- A list read in another order: place k holds what stood at `f k`. -/
def pick {α : Type} (l : List α) (d : α) (f : Nat → Nat) : List α := (List.range l.length).map fun k => l.getD (f k) d

/-- Bits scrambled, and LLRs descrambled: inverted where the sequence is 1 (R149, R152). -/
def scrambleBits (g l : List Bool) : List Bool := List.zipWith (· != ·) g l
def descramble (g : List Bool) (l : List Int) : List Int := List.zipWith (fun b x => if b then -x else x) g l

/-- Offset of block c's LLRs or encoded bits in the descriptor's stream. -/
def Desc.eOff (d : Desc) (c : Nat) : Nat :=
  let a := min c (Desc.c0 d)
  a * Desc.e0 d + (c - a) * Desc.e1 d

/-- The scrambling bits of code block c: the sequence runs across code blocks, and is 0 with SCR = 0. -/
def Desc.scrambling (d : Desc) (off n : Nat) : List Bool :=
  if Desc.scr d then goldFrom (Desc.cInit d) off n else List.replicate n false

/-- Bit interleaving of TS 38.212 clause 5.4.2.2: f[i + jQ] = e[i · E/Q + j]. -/
def bitInterleave (q : Nat) (l : List Bool) : List Bool := pick l false fun k => k % q * (l.length / q) + k / q

/-- Its inverse on soft values. -/
def bitDeinterleave (q : Nat) (l : List Int) : List Int :=
  pick l 0 fun p => p / (l.length / q) + p % (l.length / q) * q

/-! ### Rate matching through a circular buffer (TS 38.212 clause 5.4.2.1, TS 36.212 clause 5.1.4.1) -/

/-- Column permutation of the turbo code's sub-block interleavers (TS 36.212 Table 5.1.4-1). -/
def turboCols : List Nat :=
  [0, 16, 8, 24, 4, 20, 12, 28, 2, 18, 10, 26, 6, 22, 14, 30, 1, 17, 9, 25, 5, 21, 13, 29, 3, 19, 11, 27, 7, 23, 15, 31]

/-- Rows of the sub-block interleavers. -/
def turboRows (k : Nat) : Nat := ceilDiv (k + 4) 32

/-- The stream and the index in it of position i of the turbo code's buffer; an index below 0 is a dummy. -/
def turboSource (k i : Nat) : Nat × Int :=
  let r := turboRows k
  let kp := 32 * r
  let y := fun j => turboCols.getD (j / r) 0 + 32 * (j % r)
  let at' := fun (y : Nat) => (y : Int) - (kp - (k + 4) : Nat)
  if i < kp then (0, at' (y i))
  else if (i - kp) % 2 = 0 then (1, at' (y ((i - kp) / 2)))
  else (2, at' ((y ((i - kp) / 2) + 1) % kp))

/-- Position i of the circular buffer holds a filler bit: one of the F last systematic bits of an LDPC block, or one of
the F first bits of a turbo block in the first two streams. -/
def Desc.fillerPos (d : Desc) (i : Nat) : Bool :=
  let k := Desc.kOf d
  let f := Desc.fill d
  if Desc.op d = 5 then
    let (st, x) := turboSource k i
    decide (st < 2) && decide (0 ≤ x) && decide (x < f)
  else decide (k - f - 2 * Desc.zk d ≤ i) && decide (i < k - 2 * Desc.zk d)

/-- Position i is never transmitted: a filler, or a dummy of a sub-block interleaver. -/
def Desc.nullPos (d : Desc) (i : Nat) : Bool :=
  Desc.fillerPos d i || (Desc.op d == 5 && decide ((turboSource (Desc.kOf d) i).2 < 0))

/-- The start of redundancy version RV (TS 38.212 Table 5.4.2.1-2; TS 36.212 clause 5.1.4.1.2). -/
def Desc.k0 (d : Desc) : Nat :=
  let n := Desc.nCb d
  let z := Desc.zk d
  if Desc.op d = 5 then
    let r := turboRows (Desc.kOf d)
    r * (2 * ceilDiv n (8 * r) * Desc.rv d + 2)
  else if Desc.bg d = 0 then [0, 17, 33, 56].getD (Desc.rv d) 0 * n / (66 * z) * z
  else [0, 13, 25, 43].getD (Desc.rv d) 0 * n / (50 * z) * z

/-- The positions that are sent, in the order in which bit selection meets them from k0. -/
def Desc.selection (d : Desc) : List Nat :=
  ((List.range (Desc.nCb d)).map fun j => (Desc.k0 d + j) % Desc.nCb d).filter fun i => !Desc.nullPos d i

/-- Bits selected from a buffer, going round it. -/
def selectBits (sel : List Nat) (e : Nat) (buf : List Bool) : List Bool :=
  (List.range e).map fun k => buf.getD (sel.getD (k % sel.length) 0) false

/-- Every m-th value from place r on adds, saturating at ±127, in order. -/
def addEvery (l : List Int) (m r : Nat) : Int :=
  ((List.range l.length).filter fun k => k % m == r).foldl (fun a k => sat127 (a + l.getD k 0)) 0

/-- Bit selection undone (R149, step 4): repeats add, what is not received is 0. -/
def deselect (sel : List Nat) (n : Nat) (l : List Int) : List Int :=
  (List.range n).map fun i =>
    let r := sel.findIdx (· == i)
    if r < sel.length then addEvery l sel.length r else 0

/-- The circular buffer of code block c from its clipped LLRs (R149, steps 2 to 4). -/
def Desc.softBuffer (d : Desc) (c : Nat) (llr : List Int) : List Int :=
  let l := descramble (Desc.scrambling d (Desc.eOff d c) llr.length) llr
  let l := if Desc.ilv d then bitDeinterleave (Desc.qm d) l else l
  (deselect (Desc.selection d) (Desc.nCb d) l).mapIdx fun i x => if Desc.fillerPos d i then 127 else x

/-! ### LDPC and turbo decoding -/

/-- Bits of an LDPC code word, its first 2 Z systematic bits included. -/
def Desc.ldpcBits (d : Desc) : Nat := (if Desc.bg d = 0 then 68 else 52) * Desc.zk d

/-- The parity bits of a systematic part. -/
def Desc.parity (d : Desc) (sys : List Bool) : List Bool :=
  (List.range (Desc.ldpcBits d - Desc.kOf d)).map (Config.ldpcParity (Desc.bg d) (Desc.zk d) sys)

/-- The decoder's hard decisions after a number of iterations: an LDPC code word, or a turbo block as one constituent
decoder has it. -/
def Desc.hard (d : Desc) (soft : List Int) (iters : Nat) (second : Bool) : List Bool :=
  if Desc.op d = 5 then (List.range (Desc.kOf d)).map (Config.turboHard (Desc.kOf d) soft iters second)
  else (List.range (Desc.ldpcBits d)).map (Config.ldpcHard (Desc.bg d) (Desc.zk d) soft iters)

/-- The syndrome is all zero: the word is a code word, its parity part the one its systematic part has. For a turbo code,
the two constituent decoders agree. -/
def Desc.agrees (d : Desc) (soft : List Int) (iters : Nat) : Bool :=
  let w := Desc.hard d soft iters false
  if Desc.op d = 5 then w == Desc.hard d soft iters true
  else w.drop (Desc.kOf d) == Desc.parity d (w.take (Desc.kOf d))

/-- Bits the decoder yields for one code block, its CRC24B included: without fillers, which end an LDPC block and begin a
turbo block. -/
def Desc.decoded (d : Desc) (soft : List Int) (iters : Nat) : List Bool :=
  let w := (Desc.hard d soft iters Config.turboSecond).take (Desc.kOf d)
  if Desc.op d = 5 then w.drop (Desc.fill d) else w.take (Desc.kOf d - Desc.fill d)

/-- The transport-block CRC of a bit string that ends with it is zero. -/
def Desc.tbCheck (d : Desc) (l : List Bool) : Bool :=
  if Desc.tbCrc16 d && Desc.op d != 5 then crc16p l == 0 else crc24a l == 0

/-- The check of a code block (Table 06-6). -/
def Desc.cbCheck (d : Desc) (soft : List Int) (iters : Nat) : Bool :=
  let bits := Desc.decoded d soft iters
  if 1 < Desc.blocks d then crc24b bits == 0
  else if Desc.tbCrcEn d then Desc.tbCheck d bits
  else Desc.agrees d soft iters

/-- Early termination stops after this iteration: a zero syndrome (R150), or a turbo block that passes its check (R154). -/
def Desc.stops (d : Desc) (soft : List Int) (iters : Nat) : Bool :=
  if Desc.op d = 5 then Desc.cbCheck d soft iters else Desc.agrees d soft iters

/-- Iterations run on a block, and whether early termination ended it: at the first that stops, else at ITER_CAP. One that
first stops at ITER_CAP counts as ended by it (DEDUCED, log 61). -/
def Desc.iters (d : Desc) (soft : List Int) : Nat × Bool :=
  match ((List.range (Desc.iterCap d)).map (· + 1)).find? (Desc.stops d soft) with
  | some n => if Desc.etEn d then (n, true) else (Desc.iterCap d, false)
  | none => (Desc.iterCap d, false)

/-! ### LDPC encoding (R152) -/

/-- The transport block with its CRC attached. -/
def Desc.withTbCrc (d : Desc) (tb : List Bool) : List Bool :=
  if !Desc.tbCrcEn d then tb
  else if Desc.tbCrc16 d then tb ++ msbBits 16 (crc16p tb)
  else tb ++ msbBits 24 (crc24a tb)

/-- The systematic part of code block c: its share of the bits, its CRC24B and its fillers. -/
def Desc.systematic (d : Desc) (bits : List Bool) (c : Nat) : List Bool :=
  let n := Desc.cbInfo d
  let l := (bits.drop (c * n)).take n
  (if 1 < Desc.blocks d then l ++ msbBits 24 (crc24b l) else l) ++ List.replicate (Desc.fill d) false

/-- The rate-matched bits of code block c of a transport block with its CRC. -/
def Desc.encoded (d : Desc) (bits : List Bool) (c : Nat) : List Bool :=
  let sys := Desc.systematic d bits c
  let e := Desc.eOf d c
  let l := selectBits (Desc.selection d) e (sys.drop (2 * Desc.zk d) ++ Desc.parity d sys)
  let l := if Desc.ilv d then bitInterleave (Desc.qm d) l else l
  scrambleBits (Desc.scrambling d (Desc.eOff d c) e) l

/-! ### Polar codes (TS 38.212 clauses 5.3.1 and 5.4.1) -/

/-! Indices by rising reliability (TS 38.212 Table 5.3.1.2-1). -/

def polarRel0 : List Nat :=
  [0, 1, 2, 4, 8, 16, 32, 3, 5, 64, 9, 6, 17, 10, 18, 128, 12, 33, 65, 20, 256, 34, 24, 36, 7, 129, 66, 512, 11, 40, 68, 130,
    19, 13, 48, 14, 72, 257, 21, 132, 35, 258, 26, 513, 80, 37, 25, 22, 136, 260, 264, 38, 514, 96, 67, 41, 144, 28, 69, 42, 516, 49, 74, 272]
  ++ [160, 520, 288, 528, 192, 544, 70, 44, 131, 81, 50, 73, 15, 320, 133, 52, 23, 134, 384, 76, 137, 82, 56, 27, 97, 39, 259, 84, 138, 145, 261, 29,
    43, 98, 515, 88, 140, 30, 146, 71, 262, 265, 161, 576, 45, 100, 640, 51, 148, 46, 75, 266, 273, 517, 104, 162, 53, 193, 152, 77, 164, 768, 268, 274]
  ++ [518, 54, 83, 57, 521, 112, 135, 78, 289, 194, 85, 276, 522, 58, 168, 139, 99, 86, 60, 280, 89, 290, 529, 524, 196, 141, 101, 147, 176, 142, 530, 321,
    31, 200, 90, 545, 292, 322, 532, 263, 149, 102, 105, 304, 296, 163, 92, 47, 267, 385, 546, 324, 208, 386, 150, 153, 165, 106, 55, 328, 536, 577, 548, 113]
  ++ [154, 79, 269, 108, 578, 224, 166, 519, 552, 195, 270, 641, 523, 275, 580, 291, 59, 169, 560, 114, 277, 156, 87, 197, 116, 170, 61, 531, 525, 642, 281, 278,
    526, 177, 293, 388, 91, 584, 769, 198, 172, 120, 201, 336, 62, 282, 143, 103, 178, 294, 93, 644, 202, 592, 323, 392, 297, 770, 107, 180, 151, 209, 284, 648]

def polarRel1 : List Nat :=
  [94, 204, 298, 400, 608, 352, 325, 533, 155, 210, 305, 547, 300, 109, 184, 534, 537, 115, 167, 225, 326, 306, 772, 157, 656, 329, 110, 117, 212, 171, 776, 330,
    226, 549, 538, 387, 308, 216, 416, 271, 279, 158, 337, 550, 672, 118, 332, 579, 540, 389, 173, 121, 553, 199, 784, 179, 228, 338, 312, 704, 390, 174, 554, 581]
  ++ [393, 283, 122, 448, 353, 561, 203, 63, 340, 394, 527, 582, 556, 181, 295, 285, 232, 124, 205, 182, 643, 562, 286, 585, 299, 354, 211, 401, 185, 396, 344, 586,
    645, 593, 535, 240, 206, 95, 327, 564, 800, 402, 356, 307, 301, 417, 213, 568, 832, 588, 186, 646, 404, 227, 896, 594, 418, 302, 649, 771, 360, 539, 111, 331]
  ++ [214, 309, 188, 449, 217, 408, 609, 596, 551, 650, 229, 159, 420, 310, 541, 773, 610, 657, 333, 119, 600, 339, 218, 368, 652, 230, 391, 313, 450, 542, 334, 233,
    555, 774, 175, 123, 658, 612, 341, 777, 220, 314, 424, 395, 673, 583, 355, 287, 183, 234, 125, 557, 660, 616, 342, 316, 241, 778, 563, 345, 452, 397, 403, 207]
  ++ [674, 558, 785, 432, 357, 187, 236, 664, 624, 587, 780, 705, 126, 242, 565, 398, 346, 456, 358, 405, 303, 569, 244, 595, 189, 566, 676, 361, 706, 589, 215, 786,
    647, 348, 419, 406, 464, 680, 801, 362, 590, 409, 570, 788, 597, 572, 219, 311, 708, 598, 601, 651, 421, 792, 802, 611, 602, 410, 231, 688, 653, 248, 369, 190]

def polarRel2 : List Nat :=
  [364, 654, 659, 335, 480, 315, 221, 370, 613, 422, 425, 451, 614, 543, 235, 412, 343, 372, 775, 317, 222, 426, 453, 237, 559, 833, 804, 712, 834, 661, 808, 779,
    617, 604, 433, 720, 816, 836, 347, 897, 243, 662, 454, 318, 675, 618, 898, 781, 376, 428, 665, 736, 567, 840, 625, 238, 359, 457, 399, 787, 591, 678, 434, 677]
  ++ [349, 245, 458, 666, 620, 363, 127, 191, 782, 407, 436, 626, 571, 465, 681, 246, 707, 350, 599, 668, 790, 460, 249, 682, 573, 411, 803, 789, 709, 365, 440, 628,
    689, 374, 423, 466, 793, 250, 371, 481, 574, 413, 603, 366, 468, 655, 900, 805, 615, 684, 710, 429, 794, 252, 373, 605, 848, 690, 713, 632, 482, 806, 427, 904]
  ++ [414, 223, 663, 692, 835, 619, 472, 455, 796, 809, 714, 721, 837, 716, 864, 810, 606, 912, 722, 696, 377, 435, 817, 319, 621, 812, 484, 430, 838, 667, 488, 239,
    378, 459, 622, 627, 437, 380, 818, 461, 496, 669, 679, 724, 841, 629, 351, 467, 438, 737, 251, 462, 442, 441, 469, 247, 683, 842, 738, 899, 670, 783, 849, 820]
  ++ [728, 928, 791, 367, 901, 630, 685, 844, 633, 711, 253, 691, 824, 902, 686, 740, 850, 375, 444, 470, 483, 415, 485, 905, 795, 473, 634, 744, 852, 960, 865, 693,
    797, 906, 715, 807, 474, 636, 694, 254, 717, 575, 913, 798, 811, 379, 697, 431, 607, 489, 866, 723, 486, 908, 718, 813, 476, 856, 839, 725, 698, 914, 752, 868]

def polarRel3 : List Nat :=
  [819, 814, 439, 929, 490, 623, 671, 739, 916, 463, 843, 381, 497, 930, 821, 726, 961, 872, 492, 631, 729, 700, 443, 741, 845, 920, 382, 822, 851, 730, 498, 880,
    742, 445, 471, 635, 932, 687, 903, 825, 500, 846, 745, 826, 732, 446, 962, 936, 475, 853, 867, 637, 907, 487, 695, 746, 828, 753, 854, 857, 504, 799, 255, 964]
  ++ [909, 719, 477, 915, 638, 748, 944, 869, 491, 699, 754, 858, 478, 968, 383, 910, 815, 976, 870, 917, 727, 493, 873, 701, 931, 756, 860, 499, 731, 823, 922, 874,
    918, 502, 933, 743, 760, 881, 494, 702, 921, 501, 876, 847, 992, 447, 733, 827, 934, 882, 937, 963, 747, 505, 855, 924, 734, 829, 965, 938, 884, 506, 749, 945]
  ++ [966, 755, 859, 940, 830, 911, 871, 639, 888, 479, 946, 750, 969, 508, 861, 757, 970, 919, 875, 862, 758, 948, 977, 923, 972, 761, 877, 952, 495, 703, 935, 978,
    883, 762, 503, 925, 878, 735, 993, 885, 939, 994, 980, 926, 764, 941, 967, 886, 831, 947, 507, 889, 984, 751, 942, 996, 971, 890, 509, 949, 973, 1000, 892, 950]
  ++ [863, 759, 1008, 510, 979, 953, 763, 974, 954, 879, 981, 982, 927, 995, 765, 956, 887, 985, 997, 986, 943, 891, 998, 766, 511, 988, 1001, 951, 1002, 893, 975, 894,
    1009, 955, 1004, 1010, 957, 983, 958, 987, 1012, 999, 1016, 767, 989, 1003, 990, 1005, 959, 1011, 1013, 895, 1006, 1014, 1017, 1018, 991, 1020, 1007, 1015, 1019, 1021, 1022, 1023]

/-- The indices below n, the least reliable first. -/
def polarOrder (n : Nat) : List Nat := (polarRel0 ++ polarRel1 ++ polarRel2 ++ polarRel3).filter (· < n)

/-- Bits put into the encoder, CRC included: K counts the parity-check bits too (DEDUCED from R148, log 61). -/
def Desc.pInfo (d : Desc) : Nat := Desc.pK d - Desc.pParity d

/-- Sub-block interleaver pattern (TS 38.212 Table 5.4.1.1-1). -/
def polarSub : List Nat :=
  [0, 1, 2, 4, 3, 5, 6, 7, 8, 16, 9, 17, 10, 18, 11, 19, 12, 20, 13, 21, 14, 22, 15, 23, 24, 25, 26, 28, 27, 29, 30, 31]

/-- J(i) of the sub-block interleaver. -/
def polarJ (n i : Nat) : Nat := polarSub.getD (32 * i / n) 0 * (n / 32) + i % (n / 32)

/-- Rate matching below N punctures, rather than shortens, at K/E up to 7/16. -/
def Desc.punctures (d : Desc) : Bool := 16 * Desc.pInfo d ≤ 7 * Desc.pE d

/-- Indices frozen by the rate matching (clause 5.4.1.1). -/
def Desc.preFrozen (d : Desc) : List Nat :=
  let n := Desc.pN d
  let e := Desc.pE d
  if n ≤ e then []
  else if Desc.punctures d then
    (List.range (n - e)).map (polarJ n)
      ++ List.range (if 3 * n ≤ 4 * e then ceilDiv (3 * n - 2 * e) 4 else ceilDiv (9 * n - 4 * e) 16)
  else (List.range (n - e)).map fun i => polarJ n (e + i)

/-- The indices that carry information and parity-check bits, the least reliable first. -/
def Desc.polarInfo (d : Desc) : List Nat :=
  let l := (polarOrder (Desc.pN d)).filter fun i => !(Desc.preFrozen d).contains i
  l.drop (l.length - Desc.pK d)

def popcountNat (x : Nat) : Nat := ((List.range 10).filter fun i => bitOf x i).length

/-- The parity-check indices: the least reliable ones, and with n_PC^wm = 1 the most reliable one of least row weight. -/
def Desc.polarPc (d : Desc) : List Nat :=
  let l := Desc.polarInfo d
  match Desc.pNpc d with
  | 0 => []
  | 1 => l.take 3
  | _ =>
    match l.drop 3 with
    | [] => l.take 2
    | i :: r => l.take 2 ++ [r.foldl (fun b x => if popcountNat x ≤ popcountNat b then x else b) i]

/-- The bits u: information bits in index order, and parity-check bits from a cyclic register of length 5. -/
def polarU (n : Nat) (info pc : List Nat) (c : List Bool) : List Bool :=
  ((List.range n).foldl (fun (a : List Bool × List Bool × List Bool) i =>
    let (u, y, c) := a
    let y := y.drop 1 ++ y.take 1
    let y0 := y.headD false
    if !info.contains i then (u ++ [false], y, c)
    else if pc.contains i then (u ++ [y0], y, c)
    else
      let b := c.headD false
      (u ++ [b], (y0 != b) :: y.drop 1, c.drop 1)) ([], List.replicate 5 false, c)).1

/-- The coded bits d = u G. -/
def polarCode (u : List Bool) : List Bool :=
  (List.range u.length).map fun j =>
    (u.mapIdx fun i b => b && i &&& j == j).foldl (· != ·) false

/-- Which bit of y is rate-matched bit k. -/
def Desc.polarSel (d : Desc) (k : Nat) : Nat :=
  let n := Desc.pN d
  let e := Desc.pE d
  if n ≤ e then k % n else if Desc.punctures d then k + n - e else k

/-- The order in which coded-bit interleaving reads E bits: a triangle filled by rows, read by columns (clause 5.4.1.3). -/
def triangleOrder (e : Nat) : List Nat :=
  let t := ((List.range 129).find? fun t => e ≤ t * (t + 1) / 2).getD 0
  ((List.range t).map fun j => (List.range (t - j)).map fun i => i * t - i * (i - 1) / 2 + j).flatten.filter (· < e)

/-- Remainders that the 140 information bits of the longest block leave in CRC24C. -/
def polarCrcOf (i : Nat) : Nat := crc24c ((List.range 140).map (· == i))

/-- The input interleaver of 164 bits (TS 38.212 Table 5.3.1.1-1): each CRC bit follows the information bits it covers. -/
def polarIlvMax : List Nat :=
  let col := (List.range 140).map polarCrcOf
  ((List.range 24).foldl (fun (a : List Nat × List Nat) j =>
    let take := a.2.filter fun i => bitOf (col.getD i 0) (23 - j)
    (a.1 ++ take ++ [140 + j], a.2.filter fun i => !take.contains i)) ([], List.range 140)).1

/-- The bit that place k of the interleaved input takes; the standard gives no pattern above 164 bits, where it is free. -/
def polarIlv (n : Nat) : List Nat :=
  if n ≤ 164 then (polarIlvMax.filter (164 - n ≤ ·)).map (· - (164 - n)) else (List.range n).map (Config.polarIlv n)

/-- The CRC of a payload, CRC_XOR applied to its last 16 bits; to all bits of a shorter CRC (DEDUCED, log 61). -/
def Desc.polarCrc (d : Desc) (l : List Bool) : List Bool :=
  let w := Desc.pCrcLen d
  let r := match Desc.pCrc d with
    | 0 => crc24c l
    | 1 => crcBits 11 0x621 l
    | _ => crcBits 6 0x21 l
  msbBits w (r ^^^ (recF d 0x30 15 0 % 2 ^ w))

/-- The rate-matched bits of a payload (R153, forward). -/
def Desc.polarEncoded (d : Desc) (l : List Bool) : List Bool :=
  let n := Desc.pN d
  let c := l ++ Desc.polarCrc d l
  let c := if Desc.ilv d then (polarIlv c.length).map fun i => c.getD i false else c
  let x := polarCode (polarU n (Desc.polarInfo d) (Desc.polarPc d) c)
  let e := (List.range (Desc.pE d)).map fun k => x.getD (polarJ n (Desc.polarSel d k)) false
  let f := if Desc.flag d 7 then (triangleOrder (Desc.pE d)).map fun i => e.getD i false else e
  scrambleBits (Desc.scrambling d 0 (Desc.pE d)) f

/-- The mother code's soft values (R153, in reverse): repeats add as in R149, punctured bits are 0, shortened ones +127. -/
def Desc.polarSoft (d : Desc) (llr : List Int) : List Int :=
  let n := Desc.pN d
  let e := Desc.pE d
  let l := descramble (Desc.scrambling d 0 e) llr
  let l := if Desc.flag d 7 then
      let o := triangleOrder e
      (List.range e).map fun i => l.getD (o.findIdx (· == i)) 0
    else l
  let y := fun i =>
    if n ≤ e then addEvery l n i
    else if Desc.punctures d then (if i < n - e then 0 else l.getD (i - (n - e)) 0)
    else if i < e then l.getD i 0 else 127
  (List.range n).map fun j => y (((List.range n).find? fun i => polarJ n i == j).getD 0)

/-- The input bits of path p of the list decoder. -/
def Desc.polarPath (d : Desc) (soft : List Int) (p : Nat) : List Bool :=
  let n := Desc.pInfo d
  let c := (List.range n).map (Config.polarPath (Desc.polarInfo d) (Desc.polarPc d) soft p)
  if Desc.ilv d then (List.range n).map fun i => c.getD ((polarIlv n).findIdx (· == i)) false else c

/-- The most likely of some paths: the least metric, a tie to the lower index. -/
def mostLikely (m : Nat → Int) : List Nat → Option Nat
  | [] => none
  | p :: l => some (l.foldl (fun b q => if m q < m b then q else b) p)

/-- The decoder's bits without their CRC, and whether it passes: of the 8 paths the most likely that passes, else the most
likely (R153). -/
def Desc.polarDecoded (d : Desc) (soft : List Int) : List Bool × Bool :=
  let a := Desc.pInfo d - Desc.pCrcLen d
  let path := Desc.polarPath d soft
  let ok := fun p => (path p).drop a == Desc.polarCrc d ((path p).take a)
  let m := fun p => Config.polarMetric (Desc.polarInfo d) (Desc.polarPc d) soft p
  match mostLikely m ((List.range 8).filter ok) with
  | some p => ((path p).take a, true)
  | none => ((path ((mostLikely m (List.range 8)).getD 0)).take a, false)

end Sys2Proof.Machine
end

