-- ==== Sys2Proof/Machine/Harq.lean ====
section
/-! DEFINITION. The HARQ soft buffers and their locks, and one code block of an LDPC or turbo decode (R149, R154, R157 to
R161). -/

namespace Sys2Proof.Machine

/-! ### Stored values (R157, R158) -/

/-- The address of block c's soft buffer. -/
def Desc.sbAddr (d : Desc) (c : Nat) : Nat := Desc.auxAddr d + 64 * (c * Desc.sbLines d)

/-- The stored value of a 4-bit code; −8 is read as −7. -/
def sbCode (code shift : Nat) : Int := max (-7) (signed 4 code) * 2 ^ shift

/-- What a stored block holds for a descriptor: its values, or that it is lost or does not match. -/
inductive Stored where
  | values (l : List Int)
  | lost
  | mismatch
  deriving DecidableEq, Repr

/-- The engine reads block c's stored values. -/
def State.sbRead (s : State) (x : EngRun) (c : Nat) : Stored × State :=
  let d := x.d
  let (l, s) := s.engRead (auxIdent x.q) (Desc.sbAddr d c) (64 * Desc.sbLines d)
  let h := leVal ((bytesOf l).take 64)
  let data := (bytesOf l).drop 64
  if anyPoison l || recF h 0 7 0 != 0xA5 then (.lost, s)
  else if recF h 1 7 7 != Desc.bg d || recF h 2 12 0 != Desc.zk d || recF h 4 23 0 != Desc.nCb d then (.mismatch, s)
  else
    (.values ((List.range (Desc.nCb d)).map fun i =>
      sbCode ((data.getD (i / 2) 0).toNat / 16 ^ (i % 2) % 16) (recF h 1 2 0)), s)

/-- The smallest SHIFT that holds every value (R158). -/
def sbShift (l : List Int) : Nat :=
  ((List.range 6).find? fun k => l.all fun a => a.natAbs ≤ 7 * 2 ^ k).getD 5

/-- round(a / 2^shift), half away from zero, within ±7, as a 4-bit code. -/
def sbEncode (shift : Nat) (a : Int) : Nat :=
  let m := min 7 ((2 * a.natAbs + 2 ^ shift) / (2 * 2 ^ shift))
  unsigned 4 (if a < 0 then -(m : Int) else m)

/-- A block's header line with a VALID_TAG. -/
def sbHeader (x : EngRun) (tag : Nat) (l : List Int) : List Byte :=
  leBytes 64 (recP 0 0 tag + recP 1 7 (Desc.bg x.d) + recP 1 0 (sbShift l) + recP 2 0 (Desc.zk x.d) + recP 4 0 (Desc.nCb x.d)
    + recP 8 0 x.tag)

/-- A block's data lines. -/
def sbData (x : EngRun) (l : List Int) : List Byte :=
  let k := sbShift l
  (List.range (64 * (Desc.sbLines x.d - 1))).map fun i =>
    BitVec.ofNat 8 ((if h : 2 * i < l.length then sbEncode k l[2 * i] else 0)
      + 16 * (if h : 2 * i + 1 < l.length then sbEncode k l[2 * i + 1] else 0))

/-- The bytes of a written block: header, then data lines. -/
def sbBytes (x : EngRun) (l : List Int) : List Byte := sbHeader x 0xA5 l ++ sbData x l

def State.sbWrite (s : State) (x : EngRun) (c : Nat) (l : List Int) : State :=
  s.engWrite (auxIdent x.q) (Desc.sbAddr x.d c) (clean (sbBytes x l))

/-- The write-back of a block is cut short: an invalid header, and the first n data lines (R158). -/
def State.sbCut (s : State) (x : EngRun) (c n : Nat) (l : List Int) : State :=
  s.engWrite (auxIdent x.q) (Desc.sbAddr x.d c) (clean (sbHeader x 0 l ++ (sbData x l).take (64 * n)))

/-! ### Locks (R159) -/

/-- Locks held by a sector's HARQ port, and the most since PEAK was read. -/
def State.takeLock (s : State) (x : EngRun) : State :=
  let k := sectorOf x.q
  let l := ⟨Desc.auxAddr x.d, Desc.auxLen x.d, x.q⟩ :: s.locks k
  let s := s.setLocks k l
  if s.fget (Addr.cceLocks k) Fld.cceLocksPeak < l.length then s.fset (Addr.cceLocks k) Fld.cceLocksPeak l.length else s

/-- The soft buffer may be used: its SB_ADDR is not locked and the table has room (R159). -/
def State.lockFree (s : State) (q a : Nat) : Bool :=
  let l := s.locks (sectorOf q)
  l.length < 64 && !(l.any fun e => e.addr == a)

/-- Soft buffers that overlap while both are locked hold undefined values (R159). -/
def State.sbTear (s : State) (x : EngRun) : State :=
  match (s.locks (sectorOf x.q)).filter fun e => e.inst != x.q && overlaps (e.addr, e.len) (Desc.auxAddr x.d, Desc.auxLen x.d) with
  | [] => s
  | l => (s.each l fun s e => s.freeFill e.addr e.len).freeFill (Desc.auxAddr x.d) (Desc.auxLen x.d)

/-! ### One code block of a decode (R149, R154) -/

/-- What a decode has gathered; `sb` says whether it holds its lock, once it has asked for it. -/
structure DecAcc where
  bits : List Bool
  skipped : List Nat
  okMask : Nat
  done : Nat
  fail : Nat
  iterSum : Nat
  iterMax : Nat
  early : Nat
  clip : Bool
  lost : Nat
  mism : Nat
  sb : Option Bool
  deriving DecidableEq, Repr

def DecAcc.init : DecAcc :=
  { bits := [], skipped := [], okMask := 0, done := 0, fail := 0, iterSum := 0, iterMax := 0, early := 0, clip := false,
    lost := 0, mism := 0, sb := none }

/-- The combined values of a block: stored values add, saturating at ±127 (R149, step 5). -/
def combine (soft : List Int) (st : Stored) : List Int :=
  match st with
  | .values l => soft.zipWith (fun a b => sat127 (a + b)) l
  | _ => soft

/-- Decode one code block from its combined values. -/
def DecAcc.decode (a : DecAcc) (d : Desc) (c : Nat) (soft : List Int) : DecAcc :=
  let (n, early) := Desc.iters d soft
  let ok := Desc.cbCheck d soft n
  { a with bits := a.bits ++ (Desc.decoded d soft n).take (Desc.cbInfo d), okMask := a.okMask + (if ok then 2 ^ c else 0),
           done := a.done + 1, fail := a.fail + (if ok then 0 else 1), iterSum := a.iterSum + n, iterMax := max a.iterMax n,
           early := a.early + (if early then 1 else 0) }

/-- A skipped block keeps its place in the output (R161). -/
def DecAcc.skip (a : DecAcc) (d : Desc) (c : Nat) : DecAcc :=
  { a with bits := a.bits ++ List.replicate (Desc.cbInfo d) false, skipped := c :: a.skipped }

def DecAcc.note (a : DecAcc) (st : Stored) : DecAcc :=
  match st with
  | .lost => { a with lost := a.lost + 1 }
  | .mismatch => { a with mism := a.mism + 1 }
  | .values _ => a

/-- The descriptor's first soft-buffer access takes the lock, or finds that it may not (R159). -/
def State.sbEnter (s : State) (x : EngRun) (a : DecAcc) : DecAcc × State :=
  if !Desc.sbEn x.d || a.sb.isSome then (a, s)
  else if s.lockFree x.q (Desc.auxAddr x.d) then ({ a with sb := some true }, (s.takeLock x).sbTear x)
  else ({ a with sb := some false }, s)

/-- Read the stored values of block c if the descriptor combines. -/
def State.sbFetch (s : State) (x : EngRun) (c : Nat) (sb : Bool) : Stored × State :=
  if sb && Desc.combine x.d then s.sbRead x c else (.values (List.replicate (Desc.nCb x.d) 0), s)

/-- Block c's combined values, or nothing where its input is poisoned (R149 steps 1 to 5, R161). -/
def State.combined (x : EngRun) (acc : DecAcc × State) (c : Nat) : Option (List Int) × DecAcc × State :=
  let d := x.d
  let (l, s) := acc.2.engRead x.me (Desc.inAddr d + Desc.eOff d c) (Desc.eOf d c)
  if anyPoison l then (none, acc.1, s)
  else
    let (a, s) := s.sbEnter x { acc.1 with clip := acc.1.clip || clipped l }
    let (st, s) := s.sbFetch x c (a.sb == some true)
    (some (combine (Desc.softBuffer d c ((bytesOf l).map llrOf)) st), a.note st, s)

/-- One code block of an LDPC or turbo decode. -/
def State.decodeBlock (x : EngRun) (acc : DecAcc × State) (c : Nat) : DecAcc × State :=
  match State.combined x acc c with
  | (none, a, s) => (a.skip x.d c, s)
  | (some soft, a, s) => (a.decode x.d c soft, if a.sb = some true then s.sbWrite x c soft else s)

end Sys2Proof.Machine
end

