-- ==== Sys2Proof/Machine/Abort.lean ====
section
/-! DEFINITION. What an aborted descriptor leaves (R146, R158, R167, R196, R204). -/

namespace Sys2Proof.Machine

/-- An aborted decode has written back the blocks before one that nothing in the spec fixes, and may be within that one's
write-back, whose header is then invalid; a block skipped for poison is untouched (R158). -/
def State.abortDecode (s : State) (x : EngRun) : State :=
  let (k, s) := s.freeBelow (Desc.blocks x.d + 1)
  let (cut, s) := s.freeBelow 2
  let (n, s) := s.freeBelow (Desc.sbLines x.d)
  let (a, s) := (List.range k).foldl (State.decodeBlock x) (DecAcc.init, s)
  let (a, s) :=
    if cut = 0 ∨ k = Desc.blocks x.d then (a, s)
    else
      match State.combined x (a, s) k with
      | (some soft, a, s) => (a, if a.sb = some true then s.sbCut x k n soft else s)
      | (none, a, s) => (a, s)
  if a.sb = some true then s.sbTear x else s

/-- What an abort leaves of the areas a running descriptor writes: undefined output, gain log and soft buffers (R146,
R158, R167). -/
def State.abortAreas (s : State) (x : EngRun) (descAddr : Nat) : State :=
  let d := x.d
  let cls := classOf x.q
  if s.engineDone x.q || s.descCheck x.q descAddr d != 0 then s
  else
    let s := if cls = 3 ∨ cls = 6 then s.abortDecode x else s
    let s := s.freeFill (Desc.outAddr d) (Desc.outLen d)
    if cls = 7 ∧ Desc.fAgc d then s.freeFill (Desc.auxAddr d + 64) (Desc.count d * Desc.fStreams d) else s

/-- The descriptor at address a that stage k of a job runs is aborted: its output is undefined, no status block is written, its lock goes (R146, R204); a
halted engine runs none (R145). One stopped after its status block was written, before its stage completed, keeps what it
wrote and is counted as aborted (DEDUCED, log 62). A chain's next RUN starts with a synchronising reset, but for a stopped
COEF_LOAD (R196). -/
def State.abortEngine (s : State) (h k tag : Nat) (st : Stage) (a : Nat) : State :=
  let q := st.q
  let cls := classOf q
  let d : Desc := leVal ((List.range 64).map fun i => s.byte (a + i))
  let x : EngRun := ⟨q, h, k, tag, d, st.selEdge⟩
  let s := if s.engineHalted q then s else (s.count (stopCnt cls)).abortAreas x a
  let s := ((s.unlock q).setEngineDone q false).setEngineHalted q false
  if cls = 9 then
    let n := instOf q
    if Desc.op d = 0x41 then s else s.setChain n { s.chain n with needSync := true }
  else s.fset (instStat q) Fld.cceInstStatState 0

end Sys2Proof.Machine
end

