-- ==== Sys2Proof/Machine/DmaBase.lean ====
section
/-! DEFINITION. The DMA channels' registers and ends (R262, R267, R272, Table 11-3). -/

namespace Sys2Proof.Machine

def DmaCh.init : DmaCh :=
  { moved := 0, wrote := [], tail := [], metEnd := false, fail := none, obo := Ident.system, job := none, srcPtr := 0, dstPtr := 0, entry := 0, seen := 0, block := none, held := none }

/-- Channel ch of engine c. -/
def State.dmaCh (s : State) (c ch : Nat) : DmaCh := SMap.get (fun _ => DmaCh.init) s.dma (16 * c + ch)
def State.setDmaCh (s : State) (c ch : Nat) (x : DmaCh) : State :=
  { s with dma := SMap.set (fun _ => DmaCh.init) s.dma (16 * c + ch) x }

def Dma.idle : Nat := 0
def Dma.busy : Nat := 1
def Dma.stopping : Nat := 2
def Dma.idleAtEnd : Nat := 3

def State.dmaState (s : State) (c ch : Nat) : Nat := s.fget (Addr.dmaStat c ch) Fld.dmaStatState

/-- BUSY shows the channels that are BUSY or STOPPING (DMA_ENG_STAT). -/
def State.setDmaState (s : State) (c ch st : Nat) : State :=
  (s.fset (Addr.dmaStat c ch) Fld.dmaStatState st).fset (Addr.dmaEngStat c) ⟨ch, ch⟩ (if st = 1 ∨ st = 2 then 1 else 0)

def DmaOut.done : Nat := 0
def DmaOut.zeroLen : Nat := 1
def DmaOut.idleAtEnd : Nat := 2
def DmaOut.lengthError : Nat := 3
def DmaOut.ownerError : Nat := 4
def DmaOut.busError : Nat := 5
def DmaOut.stoppedByPeer : Nat := 6
def DmaOut.listPoison : Nat := 7
def DmaOut.aborted : Nat := 8

/-- A channel ends with an outcome: counted, and INT_PEND set if IEN (R262, R267). -/
def State.dmaEnd (s : State) (c ch outcome : Nat) : State :=
  let s := s.setDmaState c ch (if outcome = DmaOut.idleAtEnd then Dma.idleAtEnd else Dma.idle)
  let s := s.fset (Addr.dmaStat c ch) Fld.dmaStatOutcome outcome
  let s := if s.flag (Addr.dmaCtrl c ch) Fld.dmaCtrlIen then s.fset (Addr.dmaStat c ch) Fld.dmaStatIntPend 1 else s
  let s := s.setDmaCh c ch { s.dmaCh c ch with block := none, wrote := [], tail := [], fail := none }
  s.count (Addr.dmaOutCnt c outcome)

/-- Bytes of a destination become undefined, where it is memory. -/
def State.dmaUndefined (s : State) (dst len : Nat) : State := if (bankOf dst).isSome then s.freeFill dst len else s

/-- The destination is undefined beyond DMA_DONE (R272). -/
def State.dmaTailUndefined (s : State) (c ch : Nat) : State :=
  let x := s.dmaCh c ch
  let s := s.each x.tail fun s d => s.dmaUndefined d.1 d.2
  match x.block with
  | none => s
  | some b => s.dmaUndefined b.dst b.len

/-- The latch of a channel names the job that holds handle h now (R52, R272). -/
def State.latched (s : State) (h : Nat) (job : Option (Nat × Nat)) : Bool :=
  match (SMap.get (fun _ => none) s.cmp.jobs h : Option Job) with
  | some j => job == some (h, j.order)
  | none => false

/-- Channels latched to a closed job end ABORTED; a held start of that job is dropped (R272). -/
def State.dmaAbortJob (s : State) (h : Nat) : State :=
  s.each (s.dma.map (·.1)) fun s k =>
    let c := k / 16
    let ch := k % 16
    let x := s.dmaCh c ch
    let s :=
      if s.latched h x.job ∧ s.dmaState c ch ≠ Dma.idle then (s.dmaTailUndefined c ch).dmaEnd c ch DmaOut.aborted else s
    let x := s.dmaCh c ch
    match x.held with
    | some y => if s.latched h y.job then s.setDmaCh c ch { x with held := some { y with dropped := true } } else s
    | none => s

/-! ### Bus errors (R268) -/

def State.dmaStopped (s : State) (c : Nat) : Bool := s.flag (Addr.dmaEngStat c) Fld.dmaEngStatStopped

def State.dmaList (s : State) (c ch : Nat) : Bool := s.flag (Addr.dmaCtrl c ch) Fld.dmaCtrlMode

/-- Step 1: STOPPED, and every BUSY channel of the engine STOPPING; the failing one keeps the address and its limit. -/
def State.dmaBusError (s : State) (c ch addr cap : Nat) : State :=
  let s := s.setDmaCh c ch { s.dmaCh c ch with fail := some (addr, cap) }
  let st := Addr.dmaEngStat c
  let s := (s.fset st Fld.dmaEngStatStopped 1).fset st Fld.dmaEngStatFailCh ch
  s.each (List.range 16) fun s k => if s.dmaState c k = Dma.busy then s.setDmaState c k Dma.stopping else s

end Sys2Proof.Machine
end

