-- ==== Sys2Proof/Machine/Compass.lean ====
section
/-! DEFINITION. Compass: job slots and handles (R72), calendars and ledgers (R25 to R28, R62), flag events (R52 to R54), the
closing of a job (R38, Table 02-4), completion and delivery (R18, R19, R62, R63, R450), and the ordered flows (R67 to R70). -/

namespace Sys2Proof.Machine

/-! ### Cores, as far as a stop reaches them -/

def AddrGen.init : AddrGen := { base := 0, index := 0, step := 0, len := 0, mode := 0 }

def Core.init : Core :=
  { state := 0, haltedFrom := 0, haltPend := false, pc := 0, g := [], gPoison := 0, tvec := 0, epc := 0, ecause := 0, eval := 0, ien := 0,
    lc := 0, ls := 0, le := 0, rcnt := 0, ag0 := AddrGen.init, ag1 := AddrGen.init, ag2 := AddrGen.init, dw := [], v := [],
    vPoison := [], masks := [], vsat := false, rm := 0, vstart := 0, vl := 0, vtype := 0, vseg := 0, vxcause := 0,
    cpBusy := none, cpValid := false, cpOp := 0, cpErr := 0, cpDonePend := false, inHandler := false,
    rep := none, repPart := 0, mtc := none, mtcHeld := none, job := 0, stage := 0, selEdge := 0, budget := 0, zien := 0, zcycleHi := 0, startEdge := 0 }

/-- Core k: tile k below 192, Zelfa core k − 192 above. -/
def State.core (s : State) (k : Nat) : Core := SMap.get (fun _ => Core.init) s.cores k
def State.setCore (s : State) (k : Nat) (c : Core) : State :=
  { s with cores := SMap.set (fun _ => Core.init) s.cores k c }

/-- The core's STATE, shown in TILE_STAT. -/
def State.setCoreState (s : State) (t st : Nat) : State :=
  (s.setCore t { s.core t with state := st }).fset (Addr.tileStat t) Fld.tileStatState st

/-- The STATE of any core, shown in TILE_STAT for a tile. -/
def State.putCoreState (s : State) (k st : Nat) : State :=
  if k < 192 then s.setCoreState k st else s.setCore k { s.core k with state := st }

/-- The core stops for the debug access port (R429). -/
def State.stopCore (s : State) (k : Nat) : State :=
  let c := s.core k
  (s.setCore k { c with haltedFrom := c.state, haltPend := false }).putCoreState k 3

/-- A halt that waited for the end of a REP sequence is taken (R87). -/
def State.takeHalt (s : State) (k : Nat) : State := if (s.core k).haltPend then s.stopCore k else s

/-- The coprocessor's operation is aborted with its result block undefined (R108). -/
def State.abortCp (s : State) (t : Nat) : State :=
  let c := s.core t
  match c.cpBusy with
  | none => s
  | some op =>
    let s := s.setCore t { c with cpBusy := none, cpValid := false, cpOp := BitVec.ofNat 8 op.code, cpErr := 0 }
    s.freeFill op.dst op.bytes.length

/-- A DSP stage of tile t is stopped: REP and LOOP end, the coprocessor is aborted (R108). -/
def State.stopTile (s : State) (t : Nat) : State :=
  let s := s.abortCp t
  let c := s.core t
  let s := s.setCore t
    { c with rep := none, repPart := 0, mtc := none, lc := 0, inHandler := false, cpDonePend := false, haltedFrom := 0
             haltPend := false }
  (s.setCoreState t (if c.state = 3 then 3 else 0)).fset (Addr.tileCpStat t) Fld.tileCpStatState 0

/-- A TCOP stage of tile t is stopped. -/
def State.stopTcop (s : State) (t : Nat) : State := (s.abortCp t).fset (Addr.tileCpStat t) Fld.tileCpStatState 0

/-! ### Jobs -/

def noJob : Nat → Option Job := fun _ => none

def State.job (s : State) (h : Nat) : Option Job := SMap.get noJob s.cmp.jobs h
def State.setJob (s : State) (h : Nat) (j : Option Job) : State :=
  { s with cmp := { s.cmp with jobs := SMap.set noJob s.cmp.jobs h j } }

def State.modJob (s : State) (h : Nat) (f : Job → Job) : State :=
  match s.job h with
  | none => s
  | some j => s.setJob h (some (f j))

def Stage.none : Stage :=
  { st := .withdrawn, cls := 0, inst := 0, q := 0, cost := 0, lo := 0, hi := 0, frags := [], flags := 0, absent := 0,
    readyEdge := 0, selEdge := 0 }

def Job.stage (j : Job) (k : Nat) : Stage := j.stages.getD k Stage.none

def StageT.none : StageT :=
  { cls := 0, post := false, hxInst := 0, descArg := 0, relOff := 0, dlOff := 0, evMask := 0, selfCancel := 0, flags := [],
    base := 0, f0 := [], f1 := [], f2 := [], handover := [], oboByClass := false, obo := 0 }

def Job.stageT (j : Job) (k : Nat) : StageT := j.t.stages.getD k StageT.none

def State.modStage (s : State) (h k : Nat) (f : Stage → Stage) : State :=
  s.modJob h fun j => { j with stages := j.stages.modify k f }

def StageState.ended (x : StageState) : Bool := x == .done || x == .stopped || x == .withdrawn

/-- Job slots held (R72). -/
def State.jobsHeld (s : State) : Nat := (s.cmp.jobs.filter fun e => e.2.isSome).length

/-- Stage slots held (R72). -/
def State.stagesHeld (s : State) : Nat :=
  (s.cmp.jobs.map fun e => match e.2 with
    | none => 0
    | some j => (j.stages.filter fun x => !x.st.ended).length).sum

/-- The final stage: the highest-numbered one whose class is not FH_TX (R450). -/
def Template.finalStage (t : Template) : Nat :=
  (List.range t.stages.length).foldl (fun b k => if (t.stages.getD k StageT.none).cls = 10 then b else k) 0

def Job.final (j : Job) : Nat := j.t.finalStage

/-- The dispatcher that holds a stage: 0 to 3 for the sectors, 4 for the admission unit (Where dispatch happens). -/
def Stage.dispatcher (x : Stage) : Nat :=
  if x.cls ≤ 1 then x.inst / 48 else if x.cls ≤ 8 then sectorOf x.q else 4

/-! ### Capacity and time -/

/-- Class units per bin (Table 02-1, R286, R338). -/
def State.capacity (s : State) (cls : Nat) : Nat :=
  if cls ≤ 1 then 15360 else if cls ≤ 8 then 7680 else if cls ≤ 10 then 3840 else s.img.hxCap

/-- Units of a class in n CLK_TB edges. -/
def State.unitsIn (s : State) (cls n : Nat) : Nat := n * s.capacity cls / 3840

/-- The record time at which bin b begins: the first whole nanosecond in it (R25). -/
def binStart (b : Nat) : Nat := ceilDiv (b * 15625) 2

/-- The edge count at which the current bin began. -/
def State.binTick (s : State) : Nat := s.time.ticks - (s.time.edges - edgesAt (binStart s.bin))

/-- Blocking reserve B in ns, and the fill limit in units (R22). -/
def State.reserve (s : State) (cls : Nat) : Nat := s.img.classB.getD cls 0
def State.fillLimit (s : State) (cls : Nat) : Nat := s.capacity cls * s.img.classF.getD cls 0 / 100
/-- floor(B × class frequency), in units (R24). -/
def State.bUnits (s : State) (cls : Nat) : Nat := s.reserve cls * s.capacity cls * 2 / 15625

def overhead (cls : Nat) : Nat := [128, 64, 32, 32, 32, 32, 32, 32, 32, 16, 0, 0].getD cls 0

/-! ### Calendars -/

def noFill : Nat → Nat := fun _ => 0

/-- Fill of absolute bin b of calendar q; the calendar holds bins mod 4,096 (R25). -/
def calKey (q b : Nat) : Nat := q * 4096 + b % 4096
def calFill (cal : SMap Nat) (q b : Nat) : Nat := SMap.get noFill cal (calKey q b)
def calSet (cal : SMap Nat) (q b v : Nat) : SMap Nat := SMap.set noFill cal (calKey q b) v

/-- Latest first booking (R28): the fragments, the shortfall and the calendar after them. -/
def bookDown (limit q lo : Nat) : Nat → Nat → Nat → SMap Nat → List (Nat × Nat) × Nat × SMap Nat
  | 0, _, need, cal => ([], need, cal)
  | n + 1, frags, need, cal =>
    if need = 0 ∨ frags = 8 then ([], need, cal)
    else
      let b := lo + n
      let take := min need (limit - calFill cal q b)
      if take = 0 then bookDown limit q lo n frags need cal
      else
        let (l, short, cal) :=
          bookDown limit q lo n (frags + 1) (need - take) (calSet cal q b (calFill cal q b + take))
        ((b, take) :: l, short, cal)

/-- Return amounts to a calendar. -/
def calReturn (cal : SMap Nat) (q : Nat) (l : List (Nat × Nat)) : SMap Nat :=
  l.foldl (fun cal f => calSet cal q f.1 (calFill cal q f.1 - f.2)) cal

def State.setCal (s : State) (cal : SMap Nat) : State := { s with cmp := { s.cmp with cal := cal } }

/-- The word of calendar q's bin b has a parity error (Table 17-1, LEDGER). -/
def State.calParityBad (s : State) (q b : Nat) : Bool := SMap.get (fun _ => false) s.cmp.calBad (calKey q b)

/-- Calendar words are read: a parity error in one of them is the doubt LEDGER (Table 17-1). -/
def State.checkCal (s : State) (q : Nat) (bins : List Nat) : State :=
  if bins.any (s.calParityBad q) then s.doubt Doubt.ledger else s

/-- Return the fragments in bins that have not ended. -/
def State.returnFrags (s : State) (q : Nat) (l : List (Nat × Nat)) : State :=
  let l := l.filter fun f => s.bin ≤ f.1
  (s.checkCal q (l.map (·.1))).setCal (calReturn s.cmp.cal q l)

/-- Settle the fragments of a stage that ends (R62): later bins whole, the current bin less the units occupied in it. -/
def State.settleFrags (s : State) (x : Stage) (ran : Bool) : State :=
  let used := if ran then s.unitsIn x.cls (s.time.ticks - max x.selEdge s.binTick) else 0
  s.returnFrags x.q (x.frags.map fun f => if f.1 = s.bin then (f.1, f.2 - used) else f)

/-! ### Instances -/

def notRunning : Nat → Option (Nat × Nat) := fun _ => none
def State.running (s : State) (q : Nat) : Option (Nat × Nat) := SMap.get notRunning s.cmp.running q
def State.setRunning (s : State) (q : Nat) (x : Option (Nat × Nat)) : State :=
  { s with cmp := { s.cmp with running := SMap.set notRunning s.cmp.running q x } }

/-- The edge count at which the current 1 ms window began (CMP_BUSY). -/
def State.windowTick (s : State) : Nat := s.time.ticks - s.time.edge % 491520

/-- An instance is free again: its busy units join the current window's. -/
def State.freeInstance (s : State) (q : Nat) (x : Stage) : State :=
  let n := s.unitsIn x.cls (s.time.ticks - max x.selEdge s.windowTick)
  let s := { s with cmp := { s.cmp with busy := SMap.set noFill s.cmp.busy q (SMap.get noFill s.cmp.busy q + n) } }
  let s := { s with eng := { s.eng with done := SMap.set (fun _ => false) s.eng.done q false } }
  s.setRunning q none

/-- The stages READY on instance q, with their keys (R58). -/
def State.readyOn (s : State) (q : Nat) : List (Nat × Nat) :=
  (s.cmp.jobs.map fun e => match e.2 with
    | none => []
    | some j => ((List.range j.stages.length).filter fun k =>
        (j.stage k).q == q && (j.stage k).st == .ready).map fun k => (e.1, k)).flatten

/-- CMP_QDEPTH.PEAK takes the greatest depth since its last read. -/
def State.notePeakDepth (s : State) (q : Nat) : State :=
  let d := (s.readyOn q).length
  if s.fget (Addr.cmpQdepth q) Fld.cmpQdepthPeak < d then s.fset (Addr.cmpQdepth q) Fld.cmpQdepthPeak d else s

/-- CMP_JOBS.PEAK and CMP_STAGES.PEAK (R73). -/
def State.notePeaks (s : State) : State :=
  let s := if s.fget Addr.cmpJobs Fld.cmpJobsPeak < s.jobsHeld then s.fset Addr.cmpJobs Fld.cmpJobsPeak s.jobsHeld else s
  if s.fget Addr.cmpStages Fld.cmpStagesPeak < s.stagesHeld then
    s.fset Addr.cmpStages Fld.cmpStagesPeak s.stagesHeld else s

/-! ### Flag events (R52, R54) -/

def Src.pred : Nat := 0
def Src.dma : Nat := 1
def Src.fhSym : Nat := 2
def Src.timer : Nat := 3
def Src.host : Nat := 4

def FlagBind.none : FlagBind := { source := 7, arg0 := 0, arg1 := 0, arg2 := 0 }

def StageT.bind (x : StageT) (flag : Nat) : FlagBind := x.flags.getD flag FlagBind.none

/-- A flag event is disposed of by the first matching line of Table 03-3. -/
def State.flagEvent (s : State) (h k flag src : Nat) : State :=
  match s.job h with
  | none => s.count Addr.cmpStrayEvtCnt
  | some j =>
    if j.closed || j.cancelId.isSome then s.count Addr.cmpStrayEvtCnt
    else if j.stages.length ≤ k || ((j.stageT k).bind flag).source != src then s.count Addr.cmpStrayEvtCnt
    else if (j.stage k).st ≠ .pending then s.count Addr.cmpLateEvtCnt
    else if (j.stage k).flags.getLsbD flag then s.count Addr.cmpDupEvtCnt
    else s.modStage h k fun x => { x with flags := x.flags ||| BitVec.ofNat 32 (2 ^ flag) }

/-- Every flag bound to predecessor `k` is set (Table 03-2, PRED). -/
def State.passFlags (s : State) (h k : Nat) : State :=
  match s.job h with
  | none => s
  | some j =>
    s.each (List.range j.stages.length) fun s m =>
      s.each (List.range 32) fun s f =>
        if (j.stageT m).bind f |> fun b => b.source == Src.pred && b.arg0 == k then s.flagEvent h m f Src.pred else s

/-! ### Handover lists (R213, R214) -/

/-- The new owner an entry names: fixed, or the instance booked for a class of the job. -/
def Job.ownerOf (j : Job) (byClass : Bool) (x : Nat) : Ident :=
  if byClass then
    match j.stages.find? fun st => st.cls == x % 16 with
    | some st => instIdent st.cls st.inst
    | none => identOf x
  else identOf x

/-- The dispatcher issues stage k's handover list; each entry's handover completes before the flags are set. -/
def State.issueHandovers (s : State) (h k : Nat) : State :=
  match s.job h with
  | none => s
  | some j =>
    let me := instIdent (j.stage k).cls (j.stage k).inst
    s.each (j.stageT k).handover fun s e =>
      if s.owner e.bank = me && !s.pendingHandover e.bank then
        let s := (s.ownerWrites e.bank [(.dispatcher, j.ownerOf e.byClass e.owner)]).completeHandover e.bank
        s.modJob h fun j => { j with moved := if j.moved.contains e.bank then j.moved else e.bank :: j.moved }
      else s.count (Addr.memOwnDenyCnt (e.bank / 256))

/-- Banks the job's lists moved return to their home owners (R214). -/
def State.returnBanks (s : State) (j : Job) : State :=
  s.each j.moved fun s b =>
    let home := identOf (SMap.get noFill s.img.home b)
    if s.owner b = home then s else (s.ownerWrites b [(.dispatcher, home)]).completeHandover b

/-! ### Records -/

/-- The COMPLETE record (Table 02-10). -/
def State.completeRecord (s : State) (h : Nat) (j : Job) (status stage : Nat) : Nat :=
  let b := fun (x : Bool) (i : Nat) => if x then 2 ^ i else 0
  let r := fun k => (SMap.get (fun _ => (0 : Word)) j.results k).toNat
  recP 0 0 0x82 + recP 2 0 status
  + recP 3 0 (b j.clipped 4 + b j.faultSeen 3 + b j.overrunSeen 2 + b j.cancelSeen 1 + b j.missingSeen 0)
  + recP 4 0 j.tag.toNat + recP 8 0 j.jq + recP 0xA 0 h + recP 0xC 0 j.templateNo + recP 0xE 0 stage
  + recP 0x10 0 s.now + recP 0x18 0 j.tg + recP 0x20 0 j.outWritten
  + recP 0x24 0 (if j.missingSeen then j.missFlags.toNat else 0)
  + recP 0x28 0 (r 0) + recP 0x2C 0 (r 1) + recP 0x30 0 (r 2) + recP 0x34 0 (r 3)
  + recP 0x38 0 (b j.flowEn 15 + j.flow) + recP 0x3A 0 j.seq

/-- Issue a job's COMPLETE record and count it (R38, R45, R47). -/
def State.issueComplete (s : State) (h : Nat) (status stage : Nat) : State :=
  match s.job h with
  | none => s
  | some j =>
    let s := s.issueRecord j.cq (s.completeRecord h j status stage) j.irq
    let s := s.count (Addr.cmpCmplCnt status)
    -- the record's unit returns when the record is issued, if its bin has not ended (R338)
    let s := match j.recBin with
      | some b => s.returnFrags 744 [(b, 1)]
      | none => s
    s.modJob h fun j => { j with recorded := true, recBin := none }

/-! ### Flows (R43, R67 to R70) -/

def Flow.init : Flow := { head := 0, tail := 0, dirValid := false, dl := false, items := [], parity := false }

/-- The parity of the bits of a number. -/
def natParity (n : Nat) : Bool := (List.range (n.log2 + 1)).foldl (fun p i => p != bitOf n i) false

def FlowItem.parityOf (i : FlowItem) : Bool :=
  (natParity i.seq != natParity i.handle) != (natParity i.tg != (i.waiting != i.hole))

/-- Even parity over the flow's state (R71). -/
def Flow.parityOf (x : Flow) : Bool :=
  x.items.foldl (fun p i => p != i.parityOf) ((natParity x.head != natParity x.tail) != (x.dirValid != x.dl))

/-- The stored parity agrees with the state (R71). -/
def Flow.parityOk (x : Flow) : Bool := x.parity == x.parityOf

def State.flow (s : State) (f : Nat) : Flow := SMap.get (fun _ => Flow.init) s.cmp.flows f
/-- A flow's state is written with its parity (R71). -/
def State.setFlow (s : State) (f : Nat) (x : Flow) : State :=
  { s with cmp := { s.cmp with flows := SMap.set (fun _ => Flow.init) s.cmp.flows f { x with parity := x.parityOf } } }

/-- A flow's state is read: a parity error is a ledger parity error (R71, Table 17-1). -/
def State.checkFlow (s : State) (f : Nat) : State := if (s.flow f).parityOk then s else s.doubt Doubt.ledger

/-- Open items: neither delivered nor closed early. -/
def Flow.open' (x : Flow) : List FlowItem := x.items.filter fun i => !i.hole

/-- A flow with no open item forgets its direction (R70). -/
def Flow.settle (x : Flow) : Flow := if x.open'.isEmpty then { x with dirValid := false, dl := false } else x

def State.modFlowItem (s : State) (f h : Nat) (g : FlowItem → FlowItem) : State :=
  let x := s.flow f
  s.setFlow f ({ x with items := x.items.map fun i => if i.handle = h ∧ !i.hole then g i else i } : Flow).settle

/-! ### Ends of stages and jobs -/

/-- Entries of the job that are not armed leave every port. -/
def State.withdrawOnAll (s : State) (h : Nat) : State := s.withdrawAll fun e => e.job == h && !e.armed

/-- The job's slot and handle are freed once it is delivered or closed and its last FH_TX stage has ended; its banks go
home, and entries no FH_TX stage will arm leave the launch queues (R72, R214, R285). -/
def State.freeIfOver (s : State) (h : Nat) : State :=
  match s.job h with
  | none => s
  | some j =>
    if j.recorded && j.stages.all fun x => x.st.ended then
      let s := s.withdrawOnAll h
      let s := s.returnBanks j
      let s := s.setJob h none
      { s with cmp := { s.cmp with freed := s.cmp.freed ++ [h] } }
    else s

/-- Stop what instance q runs: the core, the coprocessor or the engine (R34, R108, R146). -/
def State.stopInstance (s : State) (h k : Nat) (j : Job) : State :=
  let x := j.stage k
  if x.cls = 0 then s.stopTile x.inst
  else if x.cls = 1 then s.stopTcop x.inst
  else if x.cls ≤ 9 then s.abortEngine h k j.tag.toNat x (j.args.getD (j.stageT k).descArg 0).toNat
  else if x.cls = 10 then s.withdrawOn x.inst fun e => e.job == h && !e.armed
  else s

/-- The bin of the unit that carries the COMPLETE record: one of the latest fragment of the final stage, while the record
is still to be issued (R38, R62, R338). -/
def Job.recordBin (j : Job) (k : Nat) : Option Nat :=
  if k = j.final && !j.recorded then ((j.stage k).frags.head?).map (·.1) else none

/-- The fragments of a stage that are settled when it ends: all but the record's unit (R62, R338). -/
def Job.settled (j : Job) (k : Nat) : List (Nat × Nat) :=
  match j.recordBin k, (j.stage k).frags with
  | some _, (b, a) :: l => (b, a - 1) :: l
  | _, l => l

/-- Stage k of job h ends: its fragments settle, and the final stage keeps the record's unit booked (R62, R338). -/
def State.settleStage (s : State) (h k : Nat) (j : Job) (ran : Bool) : State :=
  let s := s.settleFrags { j.stage k with frags := j.settled k } ran
  match j.recordBin k with
  | none => s
  | some b => s.modJob h fun j => { j with recBin := some b }

/-- A RUNNING stage is stopped: its instance frees, its fragments settle, its handover list is issued (R62, R213). -/
def State.stopStage (s : State) (h k : Nat) : State :=
  match s.job h with
  | none => s
  | some j =>
    let x := j.stage k
    let s := s.stopInstance h k j
    let s := (s.settleStage h k j true).freeInstance x.q x
    let s := s.modStage h k fun x => { x with st := .stopped, frags := [] }
    s.issueHandovers h k

/-- A PENDING or READY stage is withdrawn and its fragments return (Table 02-4, step 1). -/
def State.withdrawStage (s : State) (h k : Nat) : State :=
  match s.job h with
  | none => s
  | some j =>
    (s.settleStage h k j false).modStage h k fun x => { x with st := .withdrawn, frags := [] }

/-- A stage that has not ended is withdrawn or stopped. -/
def State.endStageEarly (s : State) (h k : Nat) : State :=
  match s.job h with
  | none => s
  | some j =>
    match (j.stage k).st with
    | .pending | .ready => s.withdrawStage h k
    | .running => s.stopStage h k
    | _ => s

def Status.done : Nat := 0
def Status.cancelled : Nat := 1
def Status.overrun : Nat := 2
def Status.missingInput : Nat := 3
def Status.faulted : Nat := 4

/-- Close a job early by Table 02-4: its stages end, its launch entries are withdrawn, its flow position becomes a hole,
its record is issued, its DMA channels end ABORTED, and its slot is freed. -/
def State.closeJob (s : State) (h status stage : Nat) : State :=
  match s.job h with
  | none => s
  | some j =>
    if j.closed || j.recorded then s
    else
      let s := s.modJob h fun j => { j with closed := true }
      let s := s.each (List.range j.stages.length) fun s k => s.endStageEarly h k
      let s := s.withdrawAll fun e => e.job == h
      let s := if j.flowEn then s.modFlowItem j.flow h fun i => { i with hole := true, waiting := false } else s
      let s := s.issueComplete h status stage
      (s.dmaAbortJob h).freeIfOver h

/-- The event bits of one cycle, and the status that comes first: FAULTED, then OVERRUN, then CANCELLED (R39). -/
def State.noteSeen (s : State) (h : Nat) (fault overrun cancel : Bool) : State :=
  s.modJob h fun j =>
    { j with faultSeen := j.faultSeen || fault, overrunSeen := j.overrunSeen || overrun,
             cancelSeen := j.cancelSeen || cancel }

/-- A consumption fault of stage k: a post-delivery stage stops as at its budget, any other closes its job FAULTED
(R37, R40). -/
def State.faultStage (s : State) (h k : Nat) : State :=
  match s.job h with
  | none => s
  | some j =>
    if (j.stage k).cls = 10 then ((s.stopStage h k).count Addr.cmpPostOvrCnt).freeIfOver h
    else (s.noteSeen h true false false).closeJob h Status.faulted k

/-- Deliver a job: its record is issued, and a job that is not in a flow makes its launch entries eligible with it (R18,
R19, R68, R285). -/
def State.deliver (s : State) (h : Nat) : State :=
  match s.job h with
  | none => s
  | some j =>
    let s := if j.t.dl then s.makeEligible h else s
    let s :=
      if j.missingSeen then s.issueComplete h Status.missingInput j.missStage else s.issueComplete h Status.done 0
    s.freeIfOver h

/-- The job has FH_TX stages on port p and all of them have ended (R285). -/
def Job.fhTxOver (j : Job) (p : Nat) : Bool :=
  let l := j.stages.filter fun x => x.cls == 10 && x.inst == p
  !l.isEmpty && l.all fun x => x.st.ended

/-- Unarmed entries that no FH_TX stage of the job will arm any more are withdrawn: on a port whose last FH_TX stage of the
job has ended, and, once the job's last stage has ended, on every port (R285). -/
def State.dropUnarmed (s : State) (h : Nat) : State :=
  match s.job h with
  | none => s
  | some j =>
    let ended := j.stages.all fun x => x.st.ended
    s.each (List.range 64) fun s p =>
      if ended || j.fhTxOver p then s.withdrawOn p fun e => e.job == h && !e.armed else s

/-- The final stage has completed (R450, R66): delivery begins, a cancel whose closing has not taken effect loses (R39, R64);
other stages but FH_TX end; the job is delivered or waits in its flow. -/
def State.beginDelivery (s : State) (h : Nat) : State :=
  match s.job h with
  | none => s
  | some j =>
    let s := s.modJob h fun j => { j with begun := true, cancelId := none, cancelSeen := false }
    let s := s.each (List.range j.stages.length) fun s k =>
      if (j.stage k).cls = 10 then s else s.endStageEarly h k
    let s := s.dropUnarmed h
    if j.flowEn then s.modFlowItem j.flow h fun i => { i with waiting := true } else s.deliver h

/-- A completing stage withdraws the later stages it names; their successors' flags are set (R42). -/
def State.selfCancel (s : State) (h k : Nat) (mask : Nat) : State :=
  match s.job h with
  | none => s
  | some j =>
    s.each (List.range j.stages.length) fun s m =>
      if bitOf mask m && bitOf (j.stageT k).selfCancel m then
        match (((s.job h).map fun j => (j.stage m).st : Option StageState)) with
        | some StageState.pending | some StageState.ready => ((s.withdrawStage h m).count Addr.cmpSelfCancelCnt).passFlags h m
        | some _ => s.count Addr.cmpSelfCancelMissCnt
        | none => s
      else s

/-- A stage completes within budget (R62, Table 03-4): the handover list is issued, the fragments settle, the successors'
flags are set unless `quiet`, self-cancels apply; the final stage keeps one unit of its latest fragment for the record
(R338) and begins the delivery. -/
def State.completeStage (s : State) (h k : Nat) (mask : Nat) (quiet : Bool) : State :=
  match s.job h with
  | none => s
  | some j =>
    let x := j.stage k
    let s := s.issueHandovers h k
    let s := (s.settleStage h k j true).freeInstance x.q x
    let s := s.modStage h k fun x => { x with st := .done, frags := [] }
    let s := if quiet then s else s.passFlags h k
    let s := (s.selfCancel h k mask).dropUnarmed h
    if k = j.final && !j.closed then s.beginDelivery h else s.freeIfOver h

/-! ### Cancels (R41) -/

/-- CANCEL_ACK (Table 02-11) for every cancel whose selected jobs have all closed or begun delivery. -/
def CancelRec.record (c : CancelRec) (now : Nat) : Nat :=
  recP 0 0 0x83 + recP 4 0 c.tag.toNat + recP 8 0 c.mask.toNat + recP 0xC 0 c.matched + recP 0x10 0 now

/-- Some job the cancel selected is neither closed nor delivered. -/
def State.cancelOpen (s : State) (c : CancelRec) : Bool :=
  c.sel.any fun p => match s.job p.1 with
    | none => false
    | some j => j.order == p.2 && !j.closed && !j.begun

/-- The closing of a selected job took effect: it is counted in MATCHED. -/
def State.cancelMatched (s : State) (id : Nat) : State :=
  { s with cmp := { s.cmp with cancels := s.cmp.cancels.map fun c =>
    if c.id = id then { c with matched := c.matched + 1 } else c } }

end Sys2Proof.Machine
end

