-- ==== Sys2Proof/Machine/Clock.lean ====
section
/-! DEFINITION. Meridian counts on: the bins and 1 ms windows that end on the way are settled (R25, CMP_BUSY). -/

namespace Sys2Proof.Machine

/-- Bins from `o` up to, but not including, `n` have ended: their words are cleared (R25). -/
def clearBins {α : Type} (cal : SMap α) (o n : Nat) : SMap α :=
  cal.filter fun e => !((e.1 % 4096 + 4096 - o % 4096) % 4096 < n - o)

/-- Edges of [a, b) that stage x occupies, having been selected and still running. -/
def Stage.edgesIn (x : Stage) (a b : Nat) : Nat := b - max a x.selEdge

/-- Units that q's running stage occupied in the window of edges [a, b). -/
def State.runningUnits (s : State) (q a b : Nat) : Nat :=
  match s.running q with
  | none => 0
  | some (h, k) => match s.job h with
    | none => 0
    | some j => s.unitsIn (j.stage k).cls ((j.stage k).edgesIn a b)

/-- The 1 ms window has ended n edges after `start`, `skipped` tells that whole windows passed since (CMP_BUSY). -/
def State.endWindow (s : State) (start : Nat) (skipped : Bool) : State :=
  let qs := (s.cmp.busy.map (·.1) ++ s.cmp.running.map (·.1)).eraseDups
  let last := qs.foldl (fun (m : SMap Nat) q =>
    SMap.set noFill m q ((if skipped then 0 else SMap.get noFill s.cmp.busy q) + s.runningUnits q start (start + 491520)))
    []
  { s with cmp := { s.cmp with busyLast := last, busy := [] } }

/-- The bins from `o` up to the current one have ended; a word written with its parity is whole again. -/
def State.endBins (s : State) (o : Nat) : State :=
  { s with cmp := { s.cmp with cal := clearBins s.cmp.cal o s.bin, calBad := clearBins s.cmp.calBad o s.bin } }

/-- Meridian counts n edges on. -/
def State.passEdges (s : State) (n : Nat) : State :=
  if n = 0 ∨ !s.time.counting then s
  else
    let o := s.time
    let run := if s.mode = Mode.run ∨ s.mode = Mode.idle then n else 0
    let s := { s with time := { o.advance n with runTicks := o.runTicks + run } }
    let s := if binOf o.recTime = s.bin then s else s.endBins (binOf o.recTime)
    let wo := o.edges / 491520
    let wn := s.time.edges / 491520
    if wo = wn then s else s.endWindow (s.time.ticks - s.time.edges % 491520 - 491520) (wn ≠ wo + 1)

/-- Meridian counts to the first edge at or after record time t; a time already reached changes nothing. -/
def State.advanceTo (s : State) (t : Nat) : State := s.passEdges (edgesAt t - s.time.edges)

/-- Meridian counts to edge number e since the epoch. -/
def State.advanceToEdge (s : State) (e : Nat) : State := s.passEdges (e - s.time.edges)

/-- One CLK_TB edge. -/
def State.tick (s : State) : State := s.passEdges 1

end Sys2Proof.Machine
end

