-- ==== Sys2Proof/Machine/Journal.lean ====
section
/-! DEFINITION. The flash and the journal (R374, R375, R386 to R388), and the fault log (R416). -/

namespace Sys2Proof.Machine

/-! ### Flash -/

/-- An erased byte reads all ones. -/
def erased : Nat → Byte := fun _ => 0xFF

/-- The bytes of a chip select begin at this key. -/
def flashKey (cs a : Nat) : Nat := cs * 2 ^ 28 + a

def State.flashByte (s : State) (cs a : Nat) : Byte := SMap.get erased s.nvm.flash (flashKey cs a)

def State.flashBytes (s : State) (cs a n : Nat) : List Byte := (List.range n).map fun k => s.flashByte cs (a + k)

def State.setFlashByte (s : State) (cs a : Nat) (b : Byte) : State :=
  { s with nvm := { s.nvm with flash := SMap.set erased s.nvm.flash (flashKey cs a) b } }

/-- Programming clears bits and sets none. While the pads are held the command does not reach the flash (R365). -/
def State.flashProgram (s : State) (cs a : Nat) (l : List Byte) : State :=
  if s.padsHeld then s
  else s.each (List.range l.length) fun s k => s.setFlashByte cs (a + k) (s.flashByte cs (a + k) &&& l.getD k 0xFF)

def State.flashErase (s : State) (cs a n : Nat) : State :=
  if s.padsHeld then s
  else { s with nvm := { s.nvm with flash := SMap.clearRange s.nvm.flash (flashKey cs a) (flashKey cs (a + n)) } }

/-- The flash has been given an operation that completes later (FLASH_OPERATION_COMPLETE). -/
def State.flashOp (s : State) (cs a n : Nat) : State :=
  { s with nvm := { s.nvm with ops := s.nvm.ops ++ [⟨cs, a, n⟩] } }

/-! ### Zelfa interrupt latches (Table 16-33) -/

def State.latch (s : State) (n : Nat) : State :=
  { s with plb := { s.plb with latch := s.plb.latch ||| BitVec.ofNat 12 (2 ^ n) } }

def State.unlatch (s : State) (n : Nat) : State :=
  { s with plb := { s.plb with latch := s.plb.latch &&& ~~~ BitVec.ofNat 12 (2 ^ n) } }

/-! ### Journal (the areas lie on NVM_CS0_N: DESIGN CHOICE, log 22) -/

/-- Offset of journal area k (Table 16-2). -/
def jnlArea (k : Nat) : Nat := if k = 0 then 0x0C000000 else 0x0C800000

/-- Records of an area. -/
def jnlSize : Nat := 131072

def State.jnlActive (s : State) : Nat := s.fget Addr.jnlStat Fld.jnlStatArea
def State.jnlUsed (s : State) : Nat := s.fget Addr.jnlStat Fld.jnlStatUsed
def State.compacting (s : State) : Bool := s.flag Addr.jnlStat Fld.jnlStatCompacting

/-- TIME_VALID (R314). -/
def State.timeValid (s : State) : Bool := s.flag Addr.tbServoStat Fld.tbServoStatTimeValid

/-- The 64 bytes of a record (Table 16-11); the payload lies at 0x10. -/
def jnlRecord (type seq time payload : Nat) : Nat :=
  let r := recP 0 0 0x4A4C + recP 2 0 type + recP 4 0 (seq % 2 ^ 32) + recP 8 0 time + recP 0x10 0 (payload % 2 ^ 320)
  r + recP 0x3C 0 (crc32c (leBytes 60 r))

def jnlMagic (r : Nat) : Nat := recF r 0 15 0
def jnlType (r : Nat) : Nat := recF r 2 7 0
def jnlSeq (r : Nat) : Nat := recF r 4 31 0
def jnlPayload (r : Nat) : Nat := recF r 0x10 319 0

/-- A record passes the scan (R387). -/
def jnlValid (r : Nat) : Bool := jnlMagic r == 0x4A4C && recF r 0x3C 31 0 == crc32c (leBytes 60 r)

def State.jnlAt (s : State) (area n : Nat) : Nat := leVal (s.flashBytes 0 (jnlArea area + 64 * n) 64)

/-- Append a record to an area at position n. -/
def State.jnlPut (s : State) (area n record : Nat) : State :=
  ((s.flashProgram 0 (jnlArea area + 64 * n) (leBytes 64 record)).flashOp 0 (jnlArea area + 64 * n) 64).count
    Addr.jnlWriteCnt

/-- The next record of the journal, with its SEQ and TIME. -/
def State.jnlMake (s : State) (type payload : Nat) : Nat :=
  jnlRecord type (s.nvm.seq + 1) (if s.timeValid then s.now else 0) payload

/-- Append a finished record at the first erased position, or drop it where the area is full (R386, R388). -/
def State.jnlAppend (s : State) (record : Nat) : State :=
  if jnlSize ≤ s.jnlUsed then s.count Addr.jnlDropCnt
  else
    (s.jnlPut s.jnlActive s.jnlUsed record).fset Addr.jnlStat Fld.jnlStatUsed (s.jnlUsed + 1)

/-- The device writes a journal record (R375, R387, R388): not after PFAIL, only in RUN, IDLE, SAFE and SERVICE; during a
compaction it waits in a queue of 16. -/
def State.journal (s : State) (type payload : Nat) : State :=
  if s.flag Addr.pwrVin Fld.pwrVinPfail then s
  else if !([Mode.run, Mode.idle, Mode.safe, Mode.service].contains s.mode) then s
  else
    let r := s.jnlMake type payload
    if s.compacting then
      if s.nvm.wait.length < 16 then
        { s with nvm := { s.nvm with seq := s.nvm.seq + 1, wait := s.nvm.wait ++ [BitVec.ofNat 512 r] } }
      else s.count Addr.jnlDropCnt
    else { s with nvm := { s.nvm with seq := s.nvm.seq + 1 } }.jnlAppend r

/-- PWR_VIN.MV: the measurement of the last full millisecond, 0 before the first. -/
def State.vinMv (s : State) : Nat :=
  let ms := s.time.ticks / 491520
  if ms = 0 then 0 else (Config.vinMv ms (s.fget Addr.pwrVsenseGainEff Fld.pwrVsenseGainEffValue)).toNat

/-! ### Fault log (R416, Table 17-8) -/

def FaultEvt.safeEntry : Nat := 1
def FaultEvt.safeExit : Nat := 2
def FaultEvt.wakeFailure : Nat := 3
def FaultEvt.maintFailed : Nat := 4
def FaultEvt.thermal : Nat := 5

/-- The payload, from the record's offset 0x10. -/
def State.faultPayload (s : State) (event reason detail jobs before : Nat) : Nat :=
  recP 0 0 event + recP 1 0 reason + recP 2 0 (detail % 65536) + recP 4 0 (s.reg Addr.plbCause).toNat + recP 8 0 jobs
  + recP 0xA 0 before + recP 0xB 0 (s.fget Addr.plbStat Fld.plbStatTjMax) + recP 0xC 0 s.vinMv
  + recP 0x10 0 ((s.time.ticks - s.plb.loadEnd) / edgesPerSec % 2 ^ 32)

/-- Write a fault-log record, at most 16 in any second. -/
def State.faultLog (s : State) (payload : Nat) : State :=
  let recent := s.plb.logTicks.filter fun t => s.time.ticks < t + edgesPerSec
  if 16 ≤ recent.length then s.count Addr.plbLogDropCnt
  else { s with plb := { s.plb with logTicks := s.time.ticks :: recent } }.journal 2 payload

end Sys2Proof.Machine
end

