-- ==== Sys2Proof/Machine/PowerBase.lean ====
section
/-! DEFINITION. What power transitions and SAFE share: fences (R255, R257), lanes and ports going down (R290, R292, R298),
the ends of maintenance activities (R415), request outcomes and back-off (R356, R360), the abort of a vote (R360, R361) and
the change of the operating mode (R354, R355, R408). -/

namespace Sys2Proof.Machine

/-! ### Fences (R255, R257) -/

def State.fenced (s : State) (d : Nat) : Bool := s.flag (Addr.nocFenceStat d) Fld.nocFenceStatFenced
def State.drained (s : State) (d : Nat) : Bool := s.flag (Addr.nocFenceStat d) Fld.nocFenceStatDrained

/-- Ingress closed with `n` packets admitted before it (Table 10-9, step 2). -/
def State.setFence (s : State) (d n : Nat) : State :=
  (s.fset (Addr.nocFenceStat d) Fld.nocFenceStatFenced 1).fset (Addr.nocFenceStat d) Fld.nocFenceStatAdmitted n

/-- Ingress opens: FENCED and DRAINED clear (R257). -/
def State.liftFence (s : State) (d : Nat) : State := s.setReg (Addr.nocFenceStat d) 0

/-- The fence domain that holds a register (Table 18-2). -/
def regDomain (a : Nat) : Option Nat :=
  let blk := fun c => if c < 24 then some c else if c = 24 then some 29 else none
  if 0x40600000 ≤ a ∧ a < 0x40790000 then blk ((a - 0x40600000) / 0x10000)
  else if 0x40800000 ≤ a ∧ a < 0x40990000 then blk ((a - 0x40800000) / 0x10000)
  else if 0x40A00000 ≤ a ∧ a < 0x40A001A0 then some (24 + sectorOf (400 + (a - 0x40A00000) / 4))
  else if 0x40A00200 ≤ a ∧ a < 0x40A00210 then some (24 + (a - 0x40A00200) / 4)
  else if 0x40C00000 ≤ a ∧ a < 0x40C00040 then some (24 + (a - 0x40C00000) / 4 / 4)
  else if 0x40C00040 ≤ a ∧ a < 0x40C00080 then some (24 + (a - 0x40C00040) / 4 / 4)
  else if 0x40C00080 ≤ a ∧ a < 0x40C00100 then some (24 + (a - 0x40C00080) / 4 / 8)
  else if 0x40E00000 ≤ a ∧ a < 0x40E02000 then some 28
  else if 0x42000000 ≤ a ∧ a < 0x420C0000 then some ((a - 0x42000000) / 0x1000 / 8)
  else none

/-- The register lies in a fenced domain (R426). -/
def State.regFenced (s : State) (a : Nat) : Bool := (regDomain a).any fun d => s.fenced d

/-- A write to a register of a fenced domain is answered TARGET_ASLEEP and writes nothing (R256, R426). -/
def State.behindFence (s : State) (a : Nat) (f : State → State) : State :=
  if s.regFenced a then s.count Addr.nocFenceRejCnt else f s

/-- Who writes: a Zelfa core, or the debug access port, which a register accepts wherever it would accept a Zelfa core's
write (R428). -/
def isZelfa : Requester → Bool
  | .zelfa _ | .plumb => true
  | .dap => true
  | _ => false

/-- The host or a Zelfa core. -/
def isHostOrZelfa : Requester → Bool
  | .host => true
  | w => isZelfa w

/-! ### Lanes and ports -/

def Lane.deep : Nat := 0
def Lane.waking : Nat := 1
def Lane.hunt : Nat := 2
def Lane.locked : Nat := 3
def Lane.test : Nat := 4

def State.laneState (s : State) (l : Nat) : Nat := s.fget (Addr.laneStat l) Fld.laneStatState
def State.setLaneState (s : State) (l st : Nat) : State := s.fset (Addr.laneStat l) Fld.laneStatState st

/-- The lane has a rate (Table 12-1). -/
def State.laneUsed (s : State) (l : Nat) : Bool := s.fget (Addr.laneCfg l) Fld.laneCfgRate != 0

/-- The port that holds the lane. -/
def State.portOf (s : State) (l : Nat) : Nat := s.fget (Addr.laneCfg l) Fld.laneCfgPort

def State.portUp (s : State) (p : Nat) : Bool := s.flag (Addr.fhPortStat p) Fld.fhPortStatUp

/-- The lane's hunt starts anew: no stage of Table 12-6 is locked. -/
def State.setLockStages (s : State) (l n : Nat) : State :=
  { s with fh := { s.fh with locks := SMap.set (fun _ => 0) s.fh.locks l n } }

def State.restartHunt (s : State) (l : Nat) : State := (s.setLockStages l 0).setLaneState l Lane.hunt

/-- UP falls from 1 to 0 (FH_PORT_DOWN_CNT, vector 71); a CPRI link is back in state A. -/
def State.portDown (s : State) (p : Nat) : State :=
  if !s.portUp p then s
  else
    let s := (s.fset (Addr.fhPortStat p) Fld.fhPortStatUp 0).fset (Addr.fhPortStat p) Fld.fhPortStatCpriState 0
    (s.count (Addr.fhPortDownCnt p)).hostEvent Evt.fhDown

/-! ### Maintenance activities (R415) -/

def Maint.none : Nat := 0
def Maint.done : Nat := 1
def Maint.failed : Nat := 2
def Maint.aborted : Nat := 3

def State.maintRunning (s : State) (id : Nat) : List Nat := (s.plb.running.filter fun r => r.1 == id).map (·.2)

/-- An activity ends: RESULT and DETAIL, vector 77, and a fault-log record if it FAILED. -/
def State.maintEnd (s : State) (id target result detail : Nat) : State :=
  if !s.plb.running.contains (id, target) then s
  else
    let s := { s with plb := { s.plb with running := s.plb.running.erase (id, target) } }
    let st := Addr.plbMaintStat id
    let s := s.fset st Fld.plbMaintStatRunning (if (s.maintRunning id).isEmpty then 0 else 1)
    let s := (s.fset st Fld.plbMaintStatResult result).fset st Fld.plbMaintStatDetail detail
    let s := if id = 6 then s.fset (Addr.laneCharCtrl target) Fld.laneCharCtrlGo 0 else s
    let s := (s.hostEvent Evt.maint).latch 7
    if result = Maint.failed then s.faultLog (s.faultPayload FaultEvt.maintFailed id detail 0 s.mode) else s

/-- Every running activity of one kind ends with a result. -/
def State.maintEndAll (s : State) (id result : Nat) : State :=
  s.each (s.maintRunning id) fun s t => s.maintEnd id t result 0

/-- Lanes in TEST clear GEN_EN and CHK_EN and restart their hunt (R297). -/
def State.endLaneTests (s : State) (result : Nat) : State :=
  s.each (List.range 64) fun s l =>
    if s.laneState l = Lane.test then
      let s := (s.fset (Addr.lanePrbsCtrl l) Fld.lanePrbsCtrlGenEn 0).fset (Addr.lanePrbsCtrl l) Fld.lanePrbsCtrlChkEn 0
      let s := s.fset (Addr.lanePrbsErr l) Fld.lanePrbsErrLock 0
      (s.restartHunt l).maintEnd 2 l result 0
    else s

/-! ### Clusters (R354, R355) -/

/-- The cluster is in SLEEP, or in IDLE. -/
def State.clusterAsleep (s : State) (c : Nat) : Bool := bitOf (s.fget Addr.pwrClStat Fld.pwrClStatSleep) c
def State.clusterIdle (s : State) (c : Nat) : Bool := bitOf (s.fget Addr.pwrClStat Fld.pwrClStatIdle) c

def State.setClusterIdle (s : State) (c : Nat) (b : Bool) : State := s.fset Addr.pwrClStat ⟨c, c⟩ (if b then 1 else 0)
def State.setClusterAsleep (s : State) (c : Nat) (b : Bool) : State :=
  s.fset Addr.pwrClStat ⟨c + 32, c + 32⟩ (if b then 1 else 0)

/-- A cluster in SLEEP starts its wake (R355). -/
def State.wakeCluster (s : State) (c : Nat) : State :=
  if s.clusterAsleep c then { s with pwr := { s.pwr with waking := s.pwr.waking ||| BitVec.ofNat 24 (2 ^ c) } } else s

/-! ### Requests (R356, R360) -/

def Req.done : Nat := 0
def Req.refused : Nat := 1
def Req.backoff : Nat := 2
def Req.denied : Nat := 3
def Req.busy : Nat := 4

/-- An outcome is written to PWR_REQ_STAT and counted; a refusal is signalled on vector 66 (R356). -/
def State.reqOutcome (s : State) (outcome voter : Nat) : State :=
  let st := Addr.pwrReqStat
  let s := (s.fset st Fld.pwrReqStatOutcome outcome).fset st Fld.pwrReqStatVoter voter
  let s := (s.count (Addr.pwrReqCnt outcome)).latch 8
  if outcome = Req.refused then s.hostEvent Evt.refused else s

/-- The request in progress ends. -/
def State.reqEnd (s : State) (outcome voter : Nat) : State :=
  (s.fset Addr.pwrReqStat Fld.pwrReqStatBusy 0).reqOutcome outcome voter

def State.reqBusy (s : State) : Bool := s.flag Addr.pwrReqStat Fld.pwrReqStatBusy

/-- The back-off of a refused entry starts (R360). -/
def State.startBackoff (s : State) : State :=
  { s with pwr := { s.pwr with backoff := some (s.time.ticks, s.img.backoffMs) } }

/-- Fence domains of a voter stage (Table 15-6, R255). -/
def voteDomains (v : Vote) (stage : Nat) : List Nat :=
  match v.cluster with
  | some c => if stage = 2 then [c] else []
  | none => match stage with
    | 2 => List.range 24
    | 3 => [24, 25, 26, 27]
    | 4 => [28]
    | 6 => [29]
    | _ => []

/-- Lanes of the groups that have agreed come back from the deep lane state (R298). -/
def State.wakeLanes (s : State) : State :=
  s.each (List.range 64) fun s l =>
    if s.laneUsed l && s.laneState l == Lane.deep then s.setLaneState l Lane.waking else s

/-- The stopped voters are restarted in the reverse order of their stages and every fence of the vote is lifted, but for a
cluster that sleeps already (R360). -/
def State.restartVoters (s : State) (v : Vote) : State :=
  let s := s.each (List.range 8).reverse fun s k =>
    if v.stage < k || s.mode == Mode.sleep then s
    else
      let s := if k = 5 && v.cluster.isNone then s.wakeLanes else s
      s.each (voteDomains v k) fun s d => if d < 24 && s.clusterAsleep d then s else s.liftFence d
  { s with cmp := { s.cmp with held := false }, pwr := { s.pwr with vote := none } }

/-- A vote ends refused by a voter; 63 for an entry to SAFE (R360, R361). -/
def State.abortVote (s : State) (voter : Nat) : State :=
  match s.pwr.vote with
  | none => s
  | some v =>
    let s := (s.restartVoters v).count Addr.pwrRefusedCnt
    let s := s.startBackoff
    if v.cluster.isSome then s else s.reqEnd Req.refused voter

/-- A cluster's own entry vote runs: Compass applies the SLEEP rule of R27 to it (R359). -/
def State.voteOn (s : State) (c : Nat) : Bool := s.pwr.vote.any fun v => v.cluster == some c

/-- An acceptance that books the cluster is a refusal by voter 38 (R359). -/
def State.bookedUnderVote (s : State) (c : Nat) : State := if s.voteOn c then s.abortVote 38 else s

/-! ### The mode (R354, R355) -/

/-- The grace timer stops, or starts in full (R348). -/
def State.stopGrace (s : State) : State :=
  { s with host := { s.host with graceStart := none } }.fset Addr.hxGraceStat Fld.hxGraceStatRunning 0

def State.startGrace (s : State) : State :=
  { s with host := { s.host with graceStart := some s.time.ticks } }.fset Addr.hxGraceStat Fld.hxGraceStatRunning 1

/-- SERVICE is left for mode m: activities 1, 3 and 6 end, SAFE_N_MASK clears, and a margin goes back to nominal (R408, R415,
R370). A SAFE_N that was masked and is low is a doubt, but in LOAD, which acts on it when it ends. -/
def State.leaveService (s : State) (m : Nat) : State :=
  let s := ((s.maintEndAll 1 Maint.aborted).maintEndAll 3 Maint.aborted).maintEndAll 6 Maint.aborted
  let masked := s.flag Addr.plbMask Fld.plbMaskSafeNMask
  let s := s.setReg Addr.plbMask 0
  let s := if masked && !s.pins.safeN && m != Mode.load then s.doubt Doubt.safeN else s
  if s.pwr.margin = 0 then s else { s with pwr := { s.pwr with margin := 0 } }.emitPad (.pmbus 0x01 0x80)

def modeKeepsGrace (m : Nat) : Bool := m == Mode.run || m == Mode.idle

/-- The mode changes: PWR_MODE, vector 65, the Zelfa sources, and what ends with the mode that is left. -/
def State.setMode (s : State) (m : Nat) : State :=
  let old := s.mode
  if old = m then s
  else
    let s := if old = Mode.service then s.leaveService m else s
    let s :=
      if old = Mode.service ∨ old = Mode.load then s.endLaneTests (if m = Mode.safe then Maint.aborted else Maint.done)
      else s
    let s := (s.fset Addr.pwrMode Fld.pwrModePrev old).fset Addr.pwrMode Fld.pwrModeMode m
    let s := (s.hostEvent Evt.mode).latch 8
    let s := if old = Mode.safe ∨ m = Mode.safe then s.latch 7 else s
    if !modeKeepsGrace m then s.stopGrace
    else if (old = Mode.sleep ∨ old = Mode.deep) ∧ !s.linkUp then s.startGrace
    else s

/-- RUN while any cluster is in RUN, IDLE while none is (R354). -/
def State.settleRun (s : State) : State :=
  if s.mode = Mode.run ∨ s.mode = Mode.idle then
    let off := s.fget Addr.pwrClStat Fld.pwrClStatIdle ||| s.fget Addr.pwrClStat Fld.pwrClStatSleep
    s.setMode (if off % 2 ^ 24 = 2 ^ 24 - 1 then Mode.idle else Mode.run)
  else s

/-- A cluster in IDLE restarts its clocks (R355). -/
def State.exitIdle (s : State) (c : Nat) : State :=
  if s.clusterIdle c then (s.setClusterIdle c false).settleRun else s

end Sys2Proof.Machine
end

