-- ==== Sys2Proof/Machine/Maint.lean ====
section
/-! DEFINITION. The start of a maintenance activity: the modes of Table 17-6, the conflicts of Table 17-7 and the outcome of
a start (R415). -/

namespace Sys2Proof.Machine

/-- Modes in which an activity may start (Table 17-6). -/
def maintModes (id : Nat) : List Nat :=
  match id with
  | 0 | 2 | 6 => [Mode.load, Mode.service]
  | 1 | 3 => [Mode.service]
  | 4 => [Mode.run, Mode.idle, Mode.service]
  | 5 | 7 => [Mode.run, Mode.idle, Mode.safe, Mode.service]
  | _ => []

/-- When two activities conflict: never, always, on one lane group, in one MEM block (Table 17-7). -/
inductive Conflict where
  | never | always | group | block
  deriving DecidableEq, Repr

def conflict (a b : Nat) : Conflict :=
  match min a b, max a b with
  | 1, 1 => .block
  | 1, 7 => .always
  | 2, 3 | 2, 6 | 3, 3 | 3, 6 | 6, 6 => .group
  | 4, 4 | 4, 5 | 5, 5 | 7, 7 => .always
  | _, _ => .never

/-- A start of activity `id` on `target` meets the running activity r. -/
def meets (id target : Nat) (r : Nat × Nat) : Bool :=
  match conflict id r.1 with
  | .never => false
  | .always => true
  | .group => target / 8 == r.2 / 8
  | .block => target / 256 == r.2 / 256

/-- The lowest ID of a running activity that the start meets. -/
def State.maintConflict (s : State) (id target : Nat) : Option Nat :=
  (List.range 8).find? fun m => (s.maintRunning m).any fun t => meets id target (m, t)

def Start.started : Nat := 0
def Start.conflict : Nat := 1
def Start.mode : Nat := 2
def Start.target : Nat := 3

/-- A refused start: its outcome is written and counted (R415). -/
def State.maintDeny (s : State) (id start by_ : Nat) : State :=
  let st := Addr.plbMaintStat id
  ((s.fset st Fld.plbMaintStatStart start).fset st Fld.plbMaintStatBy by_).count (Addr.plbMaintDenyCnt id)

/-- The activity runs. -/
def State.maintRun (s : State) (id target : Nat) : State :=
  let st := Addr.plbMaintStat id
  let s := { s with plb := { s.plb with running := s.plb.running ++ [(id, target)] } }
  (s.fset st Fld.plbMaintStatStart Start.started).fset st Fld.plbMaintStatRunning 1

/-- A start is checked in the order of R415; the answer tells whether the activity runs. -/
def State.maintStart (s : State) (id target : Nat) (targetOk : Bool) : Bool × State :=
  if !((maintModes id).contains s.mode) then (false, s.maintDeny id Start.mode 0)
  else if !targetOk then (false, s.maintDeny id Start.target 0)
  else match s.maintConflict id target with
    | some m => (false, s.maintDeny id Start.conflict m)
    | none => (true, s.maintRun id target)

end Sys2Proof.Machine
end

