-- ==== Sys2Proof/Machine/Safe.lean ====
section
/-! DEFINITION. Doubts and SAFE (R407 to R410): what a command's doubts do at its end, and the entry to SAFE with its closings
and safe outputs (Tables 17-2, 17-3, 12-9). -/

namespace Sys2Proof.Machine

/-- Every launch entry is withdrawn without count (Table 12-9). -/
def State.dropLaunches (s : State) : State :=
  s.each (List.range 64) fun s p =>
    let gone := s.lq p
    if gone.isEmpty then s
    else (s.setLq p []).each gone fun s e => s.safeContent p e

/-- The FH_TX stages of a delivered job are stopped, without a count (R37, R40). -/
def State.stopPostDelivery (s : State) (h : Nat) : State :=
  match s.job h with
  | none => s
  | some j =>
    (s.each (List.range j.stages.length) fun s k => if (j.stage k).cls = 10 then s.endStageEarly h k else s).freeIfOver h

/-- The jobs in flight that have not been delivered, in handle order. -/
def State.undelivered (s : State) : List Nat :=
  (s.cmp.jobs.filter fun e => e.2.any fun j => !j.recorded && !j.closed).map (·.1)

/-- Close every job in flight FAULTED with STAGE 0x3F (R37, Table 17-2, step 3); the calendars are then empty (R411). -/
def State.closeAll (s : State) : State :=
  let hs := s.undelivered
  let s := s.each hs fun s h => (s.noteSeen h true false false).closeJob h Status.faulted 0x3F
  let s := s.each (s.cmp.jobs.map (·.1)) fun s h => s.stopPostDelivery h
  s.setCal []

/-- GPIO take their safe levels and TUNE_OUT the safe word, if the image has one (R322, Table 17-3). -/
def State.safeOutputs (s : State) : State :=
  let s := { s with pins := { s.pins with gpioSafe := s.img.present } }
  match s.img.safeWord with
  | none => s
  | some w =>
    { s with servo := { s.servo with dacOut := w } }.fset Addr.tuneDacCode Fld.tuneDacCodeSafe 1

/-! ### The start of a compaction (R388) -/

/-- Compaction starts as maintenance activity 5: the other area is erased. A start refused for a conflict waits for the
conflicting activity's end. -/
def State.startCompaction (s : State) : State :=
  let (ok, s) := s.maintStart 5 0 true
  if ok then
    let other := 1 - s.jnlActive
    let s := { s with nvm := { s.nvm with compactDue := false } }.fset Addr.jnlStat Fld.jnlStatCompacting 1
    (s.flashErase 0 (jnlArea other) 0x800000).flashOp 0 (jnlArea other) 0x800000
  else
    let due := s.fget (Addr.plbMaintStat 5) Fld.plbMaintStatStart == Start.conflict
    { s with nvm := { s.nvm with compactDue := due } }

/-- The compaction that a conflict held back starts (R388). -/
def State.compactIfDue (s : State) : State := if s.nvm.compactDue && !s.compacting then s.startCompaction else s

/-- The running maintenance activities but 5 and 7 end ABORTED (R410). -/
def State.abortMaint (s : State) : State :=
  s.each [0, 1, 2, 3, 4, 6] fun s m => s.maintEndAll m Maint.aborted

/-- The domains other than the clusters come back from SLEEP: the fronthaul buffer with its banks that were not retained
(R231, R232), the complexes and the chains, the lanes (R298), and Compass takes records again (R257). -/
def State.wakeUnits (s : State) : State :=
  let s := s.each (List.range 256) fun s i =>
    if s.flag (cfgReg (24 * 256 + i)) Fld.memBankCfgRetain then s else s.initBank (24 * 256 + i)
  let s := s.newLap 24
  let s := s.each [24, 25, 26, 27, 28, 29] fun s d => s.liftFence d
  { s with cmp := { s.cmp with held := false } }.wakeLanes.resyncChains

/-- Step 2 of Table 17-2: the mode, PLB_STAT and FAULT_N; a wake under way ends. From SLEEP every domain but the clusters is
powered again, as Tables 15-3 and 17-3 ask of SAFE. -/
def State.safeMode (s : State) (first : Nat) : State :=
  let s := (s.abortVote 63).fset Addr.plbStat Fld.plbStatFirst first
  let s := if s.mode = Mode.sleep then s.wakeUnits else s
  let s := (s.setMode Mode.safe).fset Addr.plbStat Fld.plbStatSafe 1
  let s := { s with pins := { s.pins with faultN := false } }
  { s with pwr := { s.pwr with wake := none, wakeTimer := none } }

/-- VOUT_COMMAND goes to nominal when the reason is VIN (Tables 15-11 and 17-3). -/
def State.safePmbus (s : State) (first : Nat) : State :=
  if first == Doubt.vin && s.img.upstream != 0 && !s.pwr.pmbGone then s.emitPad (.pmbus 0x21 s.img.voutNom) else s

/-- The fault-log record of the entry, held back for an entry from PFAIL until VIN recovers (R416). -/
def State.safeLog (s : State) (pfail : Bool) (log : Nat) : State :=
  if pfail then { s with plb := { s.plb with pfailLog := some (BitVec.ofNat 512 log) } } else s.faultLog log

/-- A wake failure is reported on the return to a powered mode: vector 66 and a fault-log record (Table 14-3, R416). -/
def State.reportWake (s : State) : State :=
  if !s.pwr.wakeFailed then s
  else
    let s := { s with pwr := { s.pwr with wakeFailed := false } }.hostEvent Evt.refused
    s.faultLog (s.faultPayload FaultEvt.wakeFailure 0 (s.reg Addr.pwrWakeReason).toNat 0 s.mode)

/-- Entry to SAFE (R409, R410, Table 17-2); `pfail` tells that VIN from PFAIL is the first reason. -/
def State.enterSafe (s : State) (first : Nat) (pfail : Bool) : State :=
  let t := (s.safeMode first).dropLaunches.closeAll.abortMaint.compactIfDue.safeOutputs
  let t := (t.hostEvent Evt.safe).safePmbus first
  (t.safeLog pfail (t.faultPayload FaultEvt.safeEntry first 0 s.undelivered.length s.mode)).reportWake

/-- Plumb is powered in this mode (Table 15-3), and in a warm wake once its state is restored (R403). -/
def State.plumbPowered (s : State) : Bool :=
  s.mode != Mode.off && (s.mode != Mode.deep || s.pwr.wake == some false)

/-- The doubts that have arisen set their bits and are counted (R407). -/
def State.noteDoubts (s : State) : State :=
  let s' := s.each s.plb.raised fun s r => (s.fset Addr.plbCause ⟨r, r⟩ 1).count (Addr.plbSafeCnt r)
  { s' with plb := { s'.plb with raised := [] } }

/-- The end of a command: its doubts set their bits, are counted, and take the device to SAFE; the lowest code of them is
FIRST. Doubts that the entry itself brings arise in SAFE (R407). -/
def State.settle (s : State) : State :=
  match s.plb.raised with
  | [] => s
  | r :: l =>
    if !s.plumbPowered then { s with plb := { s.plb with raised := [] } }
    else
      let s := s.noteDoubts
      if s.mode = Mode.safe then s
      else
        let first := l.foldl min r
        (s.enterSafe first (first == Doubt.vin && s.flag Addr.pwrVin Fld.pwrVinPfail)).noteDoubts

abbrev Res := Host.Outcome State Fault Refusal

/-- A command's effect, then the end of the command. -/
def State.done (s : State) : Res := .next s.settle

end Sys2Proof.Machine
end

