-- ==== Sys2Proof/Machine/Admission.lean ====
section
/-! DEFINITION. Records and admission: fetching records, the admission rule of R32, cancel records, and the commands of
Compass that need no core or engine (R31, R41 to R52, R55 to R57, R64 to R75). -/

namespace Sys2Proof.Machine



/-! ### Records (Tables 02-7 to 02-9) -/

/-- Reserved bits of a job record, byte by byte (Table 02-7). -/
def jobReserved (o : Nat) : Nat :=
  if o = 0x03 then 0xFC else if o = 0x11 then 0x7C else if o = 0x13 then 0xFE else if o = 0x14 then 0xC0
  else if o = 0x15 then 0xFC else if o = 0x16 ∨ o = 0x17 then 0xFF else if 0x24 ≤ o ∧ o ≤ 0x27 then 0xFF
  else if 0x60 ≤ o then 0xFF else 0

/-- Reserved bits of a cancel record (Table 02-8). -/
def cancelReserved (o : Nat) : Nat :=
  if o = 0x02 then 0xC0 else if o = 0x03 then 0xFF else if o = 0x0C then 0xFE else if 0x0D ≤ o then 0xFF else 0

/-- The lowest byte offset that holds a set reserved bit (R46). -/
def reservedAt (mask : Nat → Nat) (r : Nat) : Option Nat :=
  (List.range 128).find? fun o => (recF r o 7 0) &&& mask o != 0

/-- The ADMIT record (Table 02-9). -/
structure Admit where
  outcome : Nat
  failStage : Nat
  tag : Nat
  jq : Nat
  handle : Nat
  template : Nat
  failInst : Nat
  failClass : Nat
  tg : Nat
  sub : Nat
  amount : Nat
  seq : Nat
  deriving DecidableEq, Repr

/-- The record's bits. An AMOUNT wider than its 24 bits is truncated: the spec gives neither truncation nor saturation (DESIGN
CHOICE, log 15). -/
def Admit.bits (x : Admit) (now : Nat) : Nat :=
  recP 0 0 0x81 + recP 2 0 x.outcome + recP 3 0 x.failStage + recP 4 0 x.tag + recP 8 0 x.jq + recP 0xA 0 x.handle
  + recP 0xC 0 x.template + recP 0xE 4 x.failInst + recP 0xE 0 x.failClass + recP 0x10 0 x.tg
  + recP 0x18 24 x.sub + recP 0x18 0 (x.amount % 2 ^ 24) + recP 0x1C 0 x.seq + recP 0x20 0 now

def Rej.capacity : Nat := 1
def Rej.horizon : Nat := 2
def Rej.lateSubmit : Nat := 3
def Rej.template : Nat := 4
def Rej.safe : Nat := 5
def Rej.mode : Nat := 6
def Rej.inflight : Nat := 7
def Rej.flow : Nat := 8
def Rej.record : Nat := 9

/-- Every rejection counts and produces an ADMIT record (R44, R47). -/
def State.reject (s : State) (cq : Nat) (irq : Bool) (x : Admit) : State :=
  (s.issueRecord cq (x.bits s.now) irq).count (Addr.cmpRejCnt x.outcome)

/-! ### Cost models (R23) -/

/-- One function of the parameter, in 2^-16 units. -/
def segValue (l : List Seg) (p : Nat) : Int :=
  match l with
  | [] => 0
  | g :: rest =>
    let h := rest.foldl (fun b x => if x.x ≤ p then x else b) g
    h.y * 65536 + h.s * ((p : Int) - h.x)

/-- The declared cost: the sum rounded up to a whole unit, never below 0, plus the overhead. -/
def StageT.cost (x : StageT) (p : List Nat) : Nat :=
  let t := x.base * 65536 + segValue x.f0 (p.getD 0 0) + segValue x.f1 (p.getD 1 0) + segValue x.f2 (p.getD 2 0)
  (-((-t) / 65536)).toNat + overhead x.cls

/-- First bin that starts at or after t, and the last bin that ends at or before it (R27). -/
def ceilBin (t : Nat) : Nat := ceilDiv (t * 2) 15625

/-! ### Trials (R28, R29, R32) -/

/-- HX_BW stages form two classes by direction (R29); FH_TX and the others one each. -/
def StageT.key (x : StageT) : Nat := if x.cls = 11 then 11 + x.hxInst else x.cls

def Template.candidates (t : Template) (key : Nat) : List Nat :=
  if key = 11 then [0] else if key = 12 then [1] else t.cands.getD key []

def clsOfKey (key : Nat) : Nat := min key 11

/-- A booked class: each stage's index with its fragments and its window, or the first failing stage and its shortfall. -/
inductive Trial where
  | ok (l : List (Nat × Nat × List (Nat × Nat))) (cal : SMap Nat)
  | fail (stage short : Nat)
  deriving DecidableEq, Repr

/-- Book every stage of one class on one instance, in stage order; `win` gives each stage's cost, lo and hi. -/
def State.tryClass (s : State) (key inst : Nat) (win : List (Nat × Nat × Nat)) : List Nat → SMap Nat → Trial
  | [], cal => .ok [] cal
  | k :: rest, cal =>
    let cls := clsOfKey key
    let (cost, lo, hi) := win.getD k (0, 0, 0)
    let lo := if cls ≤ 1 && (s.clusterAsleep (inst / 8) || s.voteOn (inst / 8)) then max lo (ceilBin (s.now + 216000)) else lo
    let (frags, short, cal) := bookDown (s.fillLimit cls) (calIndex cls inst) lo (hi + 1 - lo) 0 cost cal
    if short ≠ 0 then .fail k short
    else match s.tryClass key inst win rest cal with
      | .ok l cal => .ok ((k, lo, frags) :: l) cal
      | .fail k' sh => .fail k' sh

/-- The first candidate on which every stage of the class books; the first candidate's failure is the one reported. -/
def State.tryCandidates (s : State) (key : Nat) (win : List (Nat × Nat × Nat)) (ks : List Nat) (cal : SMap Nat) :
    List Nat → Option (Nat × List (Nat × Nat × List (Nat × Nat)) × SMap Nat)
  | [] => none
  | i :: rest => match s.tryClass key i win ks cal with
    | .ok l cal' => some (i, l, cal')
    | .fail _ _ => s.tryCandidates key win ks cal rest

/-- The outcome of booking every class in order of first appearance. -/
inductive Booking where
  | ok (l : List (Nat × Nat × Nat × List (Nat × Nat))) (cal : SMap Nat)
  | fail (stage key inst short : Nat)
  deriving DecidableEq, Repr

def State.bookClasses (s : State) (t : Template) (win : List (Nat × Nat × Nat)) : List Nat → SMap Nat → Booking
  | [], cal => .ok [] cal
  | key :: rest, cal =>
    let ks := (List.range t.stages.length).filter fun k => (t.stages.getD k StageT.none).key == key
    let cands := t.candidates key
    match s.tryCandidates key win ks cal cands with
    | none =>
      match s.tryClass key (cands.headD 0) win ks cal with
      | .fail k sh => .fail k key (cands.headD 0) sh
      | .ok _ _ => .fail (ks.headD 0) key 0 0
    | some (inst, l, cal) => match s.bookClasses t win rest cal with
      | .ok l' cal => .ok (l.map (fun x => (x.1, inst, x.2)) ++ l') cal
      | .fail k c i sh => .fail k c i sh

/-- Classes in the order in which they first appear in the stage list. -/
def Template.keys (t : Template) : List Nat := (t.stages.map StageT.key).eraseDups

/-- The effective deadline's bin: the latest booked one, or hi where nothing is booked (R30, R451). -/
def Stage.lateBin (x : Stage) : Nat := match x.frags with
  | [] => x.hi
  | f :: _ => f.1

/-- The bin the missing-input point is taken from: the earliest booked one, or hi (R36, R451). -/
def Stage.earlyBin (x : Stage) : Nat := match x.frags.getLast? with
  | .none => x.hi
  | .some f => f.1

/-! ### The admission rule (R32) -/

/-- A decision: a rejection, or the booked stages, the calendar and the guaranteed time. -/
inductive Decision where
  | reject (outcome failStage failClass failInst sub amount : Nat)
  | accept (t : Template) (l : List (Nat × Nat × Nat × List (Nat × Nat))) (win : List (Nat × Nat × Nat))
      (cal : SMap Nat) (tg : Nat)
  deriving DecidableEq, Repr

/-- Fields of a job record (Table 02-7). -/
def JobRec.template (r : Nat) : Nat := recF r 0x02 9 0
def JobRec.tag (r : Nat) : Nat := recF r 0x04 31 0
def JobRec.window (r : Nat) : Nat := recF r 0x08 63 0
def JobRec.flowEn (r : Nat) : Bool := recF r 0x10 15 15 == 1
def JobRec.flow (r : Nat) : Nat := recF r 0x10 9 0
def JobRec.carrier (r : Nat) : Nat := recF r 0x12 8 0
def JobRec.cq (r : Nat) : Nat := recF r 0x14 5 0
def JobRec.irq (r : Nat) : Bool := recF r 0x15 1 1 == 1
def JobRec.ack (r : Nat) : Bool := recF r 0x15 0 0 == 1
def JobRec.params (r : Nat) : List Nat := [recF r 0x18 31 0, recF r 0x1C 31 0, recF r 0x20 31 0]
def JobRec.args (r : Nat) : List Word := (List.range 8).map fun k => BitVec.ofNat 32 (recF r (0x40 + 4 * k) 31 0)

/-- The template is enabled in the active profile of the carrier's context (R44). -/
def State.profileOk (s : State) (t : Template) (carrier : Nat) : Bool :=
  bitOf t.profileMask (s.fget (Addr.tbCtxAct (carrier / 8)) Fld.tbCtxActProfile)

/-- The first parameter outside its range. -/
def Template.badParam (t : Template) (p : List Nat) : Option Nat :=
  (List.range 3).find? fun i => p.getD i 0 < t.pMin.getD i 0 || t.pMax.getD i 0 < p.getD i 0

/-- The window of each stage: its cost, lo, and hi as a signed bin (R27). -/
def State.windows (s : State) (t : Template) (w : Nat) (p : List Nat) (a0 : Nat) : List (Nat × Nat × Int) :=
  t.stages.map fun x =>
    (x.cost p, max (ceilBin (w + x.relOff + s.reserve x.cls)) (a0 + 2), ((w + x.dlOff) * 2 / 15625 : Nat) - 1)

/-- The first stage whose window ends outside the calendar. -/
def badWindow (a0 : Nat) : Nat → List (Nat × Nat × Int) → Option Decision
  | _, [] => none
  | k, (_, _, hi) :: l =>
    if hi < a0 + 2 then some (.reject Rej.lateSubmit k 0 0 0 ((a0 : Int) + 2 - hi).toNat)
    else if (a0 : Int) + 4095 < hi then some (.reject Rej.horizon k 0 0 0 (hi - (a0 + 4095)).toNat)
    else badWindow a0 (k + 1) l

/-- The latest effective deadline among non-FH_TX stages, rounded up, plus 1,500 ns (R30). -/
def guaranteed (t : Template) (l : List (Nat × Nat × Nat × List (Nat × Nat))) (win : List (Nat × Nat × Nat)) : Nat :=
  l.foldl (fun g x =>
    if (t.stages.getD x.1 StageT.none).cls = 10 then g
    else
      let b := match x.2.2.2 with
        | [] => (win.getD x.1 (0, 0, 0)).2.2
        | f :: _ => f.1
      max g (ceilDiv ((b + 1) * 15625) 2 + 1500)) 0

/-- The guaranteed time of the flow's latest accepted item that is still open (R30). -/
def Flow.openTg (x : Flow) : Nat := match x.open'.getLast? with
  | none => 0
  | some i => i.tg

/-- R32 from the template check on, for a well-formed job record. -/
def State.decideJob (s : State) (r : Nat) : Decision :=
  let a0 := s.bin
  match SMap.get (fun _ => none) s.img.templates (JobRec.template r) with
  | none => .reject Rej.template 0 0 0 1 0
  | some t =>
    if !bitOf t.carrierSet (JobRec.carrier r) then .reject Rej.template 0 0 0 2 0
    else if !s.profileOk t (JobRec.carrier r) then .reject Rej.template 0 0 0 5 0
    else match t.badParam (JobRec.params r) with
    | some i => .reject Rej.template 0 0 0 3 i
    | none =>
      match (List.range t.stages.length).find? fun k =>
        let x := t.stages.getD k StageT.none
        s.bUnits x.cls < x.cost (JobRec.params r) with
      | some k => .reject Rej.template k 0 0 4 0
      | none =>
        if s.jobsHeld = 2048 then .reject Rej.inflight 0 0 0 1 0
        else if 16384 < s.stagesHeld + t.stages.length then .reject Rej.inflight 0 0 0 2 0
        else
          let w := JobRec.window r
          let wi := s.windows t w (JobRec.params r) a0
          match badWindow a0 0 wi with
          | some d => d
          | none =>
            let f := s.flow (JobRec.flow r)
            if JobRec.flowEn r && f.dirValid && f.dl != t.dl then .reject Rej.flow 0 0 0 2 0
            else if JobRec.flowEn r && 256 ≤ f.open'.length then .reject Rej.flow 0 0 0 1 0
            else
              let win := wi.map fun x => (x.1, x.2.1, x.2.2.toNat)
              match s.bookClasses t win t.keys s.cmp.cal with
              | .fail k key inst short => .reject Rej.capacity k (clsOfKey key) inst 0 short
              | .ok l cal =>
                let tg := guaranteed t l win
                let tg := if JobRec.flowEn r then max tg f.openTg else tg
                if w + t.jobDlOff < tg then .reject Rej.flow 0 0 0 3 (tg - (w + t.jobDlOff))
                else .accept t l win cal tg

/-- The next free handle: never used ones in ascending order, then the least recently freed (R72). -/
def State.takeHandle (s : State) : Nat × State :=
  if s.cmp.fresh < 2048 then (s.cmp.fresh, { s with cmp := { s.cmp with fresh := s.cmp.fresh + 1 } })
  else (s.cmp.freed.headD 0, { s with cmp := { s.cmp with freed := s.cmp.freed.tail } })

/-- The booked stages of an accepted job. -/
def stagesOf (t : Template) (l : List (Nat × Nat × Nat × List (Nat × Nat))) (win : List (Nat × Nat × Nat)) : List Stage :=
  (List.range t.stages.length).map fun k =>
    let x := t.stages.getD k StageT.none
    let (cost, lo0, hi) := win.getD k (0, 0, 0)
    let (inst, lo, frags) := match l.find? fun y => y.1 == k with
      | some y => (y.2.1, y.2.2.1, y.2.2.2)
      | none => (0, lo0, [])
    { st := .pending, cls := x.cls, inst := inst, q := calIndex x.cls inst, cost := cost, lo := lo, hi := hi, frags := frags,
      flags := 0, absent := 0, readyEdge := 0, selEdge := 0 }

/-- Commit an accepted job: ledgers, handle, slots, flow position, wakes, and the ADMIT record if asked for (R32, R47,
R67, R72). -/
def State.accept (s : State) (q r : Nat) (t : Template) (l : List (Nat × Nat × Nat × List (Nat × Nat)))
    (win : List (Nat × Nat × Nat)) (cal : SMap Nat) (tg : Nat) : State :=
  let s := s.setCal cal
  let (h, s) := s.takeHandle
  let f := s.flow (JobRec.flow r)
  let seq := if JobRec.flowEn r then f.tail else 0
  let stages := stagesOf t l win
  let j : Job :=
    { tag := BitVec.ofNat 32 (JobRec.tag r), jq := q, cq := JobRec.cq r, irq := JobRec.irq r,
      templateNo := JobRec.template r, t := t, w := JobRec.window r, carrier := JobRec.carrier r, params := JobRec.params r,
      args := JobRec.args r, inAddr := recF r 0x28 63 0, inLen := recF r 0x30 31 0, outAddr := recF r 0x38 63 0,
      outLen := recF r 0x34 31 0, flowEn := JobRec.flowEn r, flow := JobRec.flow r, seq := seq, tg := tg,
      order := s.cmp.order, stages := stages, recorded := false, closed := false, begun := false, faultSeen := false,
      overrunSeen := false, cancelSeen := false, missingSeen := false, missStage := 0, missFlags := 0, missTick := 0,
      results := [], resultBy := [], outWritten := 0, clipped := false, cancelId := none, reached := 0, recBin := none, moved := [] }
  let s := { s.setJob h (some j) with cmp := { (s.setJob h (some j)).cmp with order := s.cmp.order + 1 } }
  let s :=
    if j.flowEn then
      s.setFlow j.flow { f with tail := (f.tail + 1) % 65536, dirValid := true, dl := t.dl,
                                items := f.items ++ [{ seq := seq, handle := h, tg := tg, waiting := false, hole := false }] }
    else s
  let s := s.each stages fun s x =>
    if x.cls ≤ 1 then
      let s := if x.frags.isEmpty then s else s.bookedUnderVote (x.inst / 8)
      s.wakeCluster (x.inst / 8)
    else s
  let s := (s.count Addr.cmpAccCnt).notePeaks
  if JobRec.ack r then
    s.issueRecord j.cq (Admit.bits {
      outcome := 0, failStage := 0, tag := JobRec.tag r, jq := q, handle := h, template := JobRec.template r,
      failInst := 0, failClass := 0, tg := tg, sub := 0, amount := 0, seq := seq } s.now) j.irq
  else s

/-- What the evaluation of a job record reads with parity: its flow, and the calendars of its candidates within the stages'
windows (R71, Table 17-1). -/
def State.checkParity (s : State) (r : Nat) : State :=
  let s := if JobRec.flowEn r then s.checkFlow (JobRec.flow r) else s
  match SMap.get (fun _ => none) s.img.templates (JobRec.template r) with
  | none => s
  | some t =>
    s.each (t.stages.zip (s.windows t (JobRec.window r) (JobRec.params r) s.bin)) fun s x =>
      s.each (t.candidates x.1.key) fun s i =>
        s.checkCal (calIndex x.1.cls i) ((List.range (min (x.2.2.2.toNat + 1 - x.2.2.1) 4096)).map (x.2.2.1 + ·))

/-- Evaluate a record of job queue q whose TYPE is not 0x02 (R32, R46, R452). -/
def State.evaluate (s : State) (q r : Nat) : State :=
  let cq := JobRec.cq r
  let rej := fun (o fs fc fi sub am : Nat) =>
    s.reject cq (JobRec.irq r) {
      outcome := o, failStage := fs, tag := JobRec.tag r, jq := q, handle := 0, template := JobRec.template r,
      failInst := fi, failClass := fc, tg := 0, sub := sub, amount := am, seq := 0 }
  if recF r 0 7 0 ≠ 1 then rej Rej.record 0 0 0 1 0
  else if s.mode = Mode.service ∨ s.mode = Mode.load then rej Rej.mode 0 0 0 0 0
  else if s.mode = Mode.safe ∨ s.flag Addr.clkStat Fld.clkStatLocked = false then rej Rej.safe 0 0 0 0 0
  else if recF r 1 7 0 ≠ 1 then rej Rej.record 0 0 0 2 0
  else match reservedAt jobReserved r with
  | some o => rej Rej.record 0 0 0 3 o
  | none =>
    if !s.flag (Addr.hxCqCfg cq) Fld.hxCqCfgEn then rej Rej.record 0 0 0 4 cq
    else
      let s' := match s.decideJob r with
        | .reject o fs fc fi sub am => rej o fs fc fi sub am
        | .accept t l win cal tg => s.accept q r t l win cal tg
      { s' with plb := { s'.plb with raised := (s.checkParity r).plb.raised ++ s'.plb.raised.drop s.plb.raised.length } }

/-! ### Taking records (R49, R50) -/

/-- Compass takes records in this condition: not in OFF, DEEP or SLEEP of the whole device, nor while a power request
holds the intake. -/
def State.takesRecords (s : State) : Bool := Mode.idle ≤ s.mode && !s.cmp.held

/-- The job queue served next, round-robin after the last one, among those with a fetched record. -/
def State.nextQueue (s : State) : Option Nat :=
  ((List.range 64).map fun k => (s.cmp.lastJq + 1 + k) % 64).find? fun q => s.cmp.inbox.any fun e => e.1 == q

/-- The front record of the queue served next, with the state it leaves. -/
def State.takeRecord (s : State) : Option (Nat × Nat × State) :=
  if !s.takesRecords then none
  else match s.nextQueue with
  | none => none
  | some q =>
    match s.cmp.inbox.find? fun e => e.1 == q with
    | none => none
    | some e =>
      some (q, e.2.toNat, { s with cmp := { s.cmp with inbox := s.cmp.inbox.eraseP fun e => e.1 == q, lastJq := q } })

/-- JQ_RECORD_FETCH (R343): the queue engine fetches the record at HEAD; a failed or poisoned fetch discards it. -/
def execJqRecordFetch (q : Fin 64) (fetched : Option (BitVec 1024)) (s : State) : Res :=
  let head := s.fget (Addr.hxJqHead q) Fld.hxJqHeadIndex
  let size := s.fget (Addr.hxJqCfg q) Fld.hxJqCfgSize
  let h := s.fget (Addr.hxJqBase q) Fld.hxJqBaseAddr + 128 * head
  if !s.flag (Addr.hxJqCfg q) Fld.hxJqCfgEn || !s.linkUp || head = s.fget (Addr.hxJqTail q) Fld.hxJqTailIndex then s.done
  else
    let s := s.fset (Addr.hxJqHead q) Fld.hxJqHeadIndex ((head + 1) % size)
    let (ok, s) := s.queueReq false h 128
    match fetched, ok with
    | some r, true => State.done { s with cmp := { s.cmp with inbox := s.cmp.inbox ++ [(q.val, r)] } }
    | _, _ => State.done ((s.count Addr.hxFetchErrCnt).hostEvent Evt.dbErr)

/-- JOB_ADMISSION (R32): the record served next is evaluated, unless it is a cancel. -/
def execJobAdmission (s : State) : Res :=
  match s.takeRecord with
  | none => s.done
  | some (q, r, s') => if recF r 0 7 0 = 2 then s.done else State.done (s'.evaluate q r)

/-- CANCEL_RECORD (R41, R46, R452): the cancel served next is rejected, or selects the jobs it matches. Of two cancels that
select one job the first taken is the one whose closing it is and whose MATCHED counts it: the spec does not say which
(DESIGN CHOICE, log 13). -/
def execCancelRecord (s : State) : Res :=
  match s.takeRecord with
  | none => s.done
  | some (q, r, s') =>
    let cq := recF r 2 5 0
    let rej := fun (sub am : Nat) => s'.reject cq true
      { outcome := Rej.record, failStage := 0, tag := recF r 4 31 0, jq := q, handle := 0, template := 0, failInst := 0,
        failClass := 0, tg := 0, sub := sub, amount := am, seq := 0 }
    if recF r 0 7 0 ≠ 2 then s.done
    else if recF r 1 7 0 ≠ 1 then State.done (rej 2 0)
    else match reservedAt cancelReserved r with
    | some o => State.done (rej 3 o)
    | none =>
      let tag : Word := BitVec.ofNat 32 (recF r 4 31 0)
      let mask : Word := BitVec.ofNat 32 (recF r 8 31 0)
      let sel := s'.cmp.jobs.filterMap fun e => match e.2 with
        | none => none
        | some j =>
          if j.jq = q ∧ j.tag &&& mask = tag &&& mask ∧ !j.closed ∧ !j.begun then some (e.1, j.order) else none
      let id := s'.cmp.cancelNo
      let c : CancelRec := { id := id, cq := cq, tag := tag, mask := mask, ack := recF r 0xC 0 0 == 1, matched := 0, sel := sel }
      let s' := { s' with cmp := { s'.cmp with cancelNo := id + 1, cancels := s'.cmp.cancels ++ [c] } }
      State.done (s'.each sel fun s p => s.modJob p.1 fun j => { j with cancelId := some (j.cancelId.getD id) })

/-- CANCEL_ACK_ISSUE (R41): the first cancel whose selected jobs have all closed or begun delivery is answered. -/
def execCancelAckIssue (s : State) : Res :=
  match s.cmp.cancels.find? fun c => !s.cancelOpen c with
  | none => s.done
  | some c =>
    let s := { s with cmp := { s.cmp with cancels := s.cmp.cancels.filter fun x => x.id != c.id } }
    State.done (if c.ack then s.issueRecord c.cq (c.record s.now) true else s)

/-- Every dispatcher that holds a stage of the job, and the admission unit. -/
def Job.dispatchers (j : Job) : BitVec 5 := BitVec.ofNat 5 (j.stages.foldl (fun m x => m ||| 2 ^ x.dispatcher) 16)

/-- CANCEL_CLOSING_ARRIVES (R39, R64): the closing reaches dispatcher d, whose stages of the job are withdrawn or
stopped; events of the same cycle there come first; once it has reached every dispatcher the job is closed CANCELLED. -/
def execCancelClosingArrives (h : Fin 2048) (d : Fin 5) (same : SameCycle) (s : State) : Res :=
  match s.job h with
  | none => s.done
  | some j =>
    match j.cancelId with
    | none => s.done
    | some id =>
      if j.closed || j.begun then s.done
      else
        let s := s.noteSeen h same.fault.isSome same.overrun.isSome true
        match same.fault, same.overrun with
        | some k, _ => State.done (s.closeJob h Status.faulted k)
        | none, some k => State.done (s.closeJob h Status.overrun k)
        | none, none =>
          let s := s.each (List.range j.stages.length) fun s k =>
            if (j.stage k).dispatcher = d then s.endStageEarly h k else s
          let r := j.reached ||| BitVec.ofNat 5 (2 ^ d.val)
          let s := s.modJob h fun j => { j with reached := r }
          if j.dispatchers &&& ~~~ r = 0 then State.done ((s.closeJob h Status.cancelled 0).cancelMatched id) else s.done

/-! ### Readiness (R56, R57) -/

def Job.satisfied (j : Job) (k : Nat) : Bool :=
  let m : Word := BitVec.ofNat 32 (j.stageT k).evMask
  (j.stage k).flags &&& m == m

/-- A stage enters its instance's queue: the cluster's IDLE exit or wake starts (R62, R355). -/
def State.enterReady (s : State) (h k : Nat) (absent : Word) : State :=
  match s.job h with
  | none => s
  | some j =>
    let x := j.stage k
    let s := s.modStage h k fun x => { x with st := .ready, readyEdge := s.time.ticks, absent := absent }
    let s := if x.cls ≤ 1 then (s.exitIdle (x.inst / 8)).wakeCluster (x.inst / 8) else s
    s.notePeakDepth x.q

/-- STAGE_READY (R56): with its flags complete, a pending stage becomes READY when the time reaches W + RELEASE_OFFSET. -/
def execStageReady (h : Fin 2048) (st : Fin 64) (s : State) : Res :=
  match s.job h with
  | none => s.done
  | some j =>
    if j.closed || (j.stage st).st != .pending || j.stages.length ≤ st || !j.satisfied st then s.done
    else State.done ((s.advanceTo (j.w + (j.stageT st).relOff)).enterReady h st 0)

/-- MISSING_INPUT_RELEASE (R36, R57): a stage still pending at its missing-input point becomes READY with its absent
flags. -/
def execMissingInputRelease (h : Fin 2048) (st : Fin 64) (s : State) : Res :=
  match s.job h with
  | none => s.done
  | some j =>
    if j.closed || (j.stage st).st != .pending || j.stages.length ≤ st || j.satisfied st then s.done
    else
      let x := j.stage st
      let s := s.advanceTo (ceilDiv (x.earlyBin * 15625) 2 - s.reserve x.cls)
      let absent : Word := BitVec.ofNat 32 (j.stageT st).evMask &&& ~~~ x.flags
      let first := !j.missingSeen || (j.missTick == s.time.ticks && st < j.missStage)
      let s := s.modJob h fun j =>
        if first then { j with missingSeen := true, missStage := st, missFlags := absent, missTick := s.time.ticks } else j
      State.done ((s.count Addr.cmpMissRelCnt).enterReady h st absent)

/-- Meridian reaches the moment W + offset of a flag bound to TIMER. -/
def State.toTimer (s : State) (h st flag : Nat) : State :=
  match s.job h with
  | none => s
  | some j =>
    let b := (j.stageT st).bind flag
    if j.stages.length ≤ st || b.source != Src.timer then s else s.advanceTo (j.w + b.arg2)

/-- TIMER_FLAG_FIRES (Table 03-2, TIMER): Meridian reaches W + offset and the flag event goes to the dispatcher, which
disposes of it by Table 03-3. -/
def execTimerFlagFires (h : Fin 2048) (st : Fin 64) (flag : Fin 32) (s : State) : Res :=
  State.done ((s.toTimer h st flag).flagEvent h st flag Src.timer)

/-- A write of CMP_EVT_SET (R54, R55). -/
def State.cmpEvtSet (s : State) (v : Nat) : State :=
  let h := bitsOf v 10 0
  let n := bitsOf v 13 11
  match s.job h with
  | none => s.count Addr.cmpStrayEvtCnt
  | some j =>
    let bound := ((List.range j.stages.length).map fun k => ((List.range 32).filter fun f =>
      ((j.stageT k).bind f).source == Src.host && ((j.stageT k).bind f).arg0 == n).map fun f => (k, f)).flatten
    if j.tag.toNat % 65536 ≠ bitsOf v 31 16 ∨ bound.isEmpty then s.count Addr.cmpStrayEvtCnt
    else s.each bound fun s p => s.flagEvent h p.1 p.2 Src.host

/-- CMP_EVT_SET (R55). -/
def execCmpEvtSet (value : Word) (s : State) : Res := State.done (s.cmpEvtSet value.toNat)

/-! ### Flows (R67 to R69) -/

/-- Drop the holes at the head, counting each. -/
def skipHoles : List FlowItem → Nat × List FlowItem
  | [] => (0, [])
  | i :: l => if i.hole then let (n, l) := skipHoles l; (n + 1, l) else (0, i :: l)

/-- FLOW_RELEASE (R67, R69, R71): a flow whose parity is wrong is the doubt LEDGER and releases nothing; holes at HEAD_SEQ are skipped, then the item there is issued if it waits. -/
def execFlowRelease (f : Fin 1024) (s : State) : Res :=
  let x := s.flow f
  if !x.parityOk then State.done (s.checkFlow f) else
  let (n, items) := skipHoles x.items
  let s := s.countBy Addr.cmpHoleCnt n
  let x := { x with items := items, head := (x.head + n) % 65536 }
  match items with
  | [] => State.done (s.setFlow f x.settle)
  | i :: l =>
    if i.waiting then
      let x := { x with items := l, head := (x.head + 1) % 65536 }
      State.done ((s.setFlow f x.settle).deliver i.handle)
    else State.done (s.setFlow f x)

/-! ### Calendar and statistics -/

/-- CALENDAR_BIN_END (R25): Meridian reaches the end of the current bin. -/
def execCalendarBinEnd (s : State) : Res := State.done (s.advanceTo (binStart (s.bin + 1)))

/-- CMP_BUSY_WINDOW_END (R51): Meridian reaches the end of the current 1 ms window. -/
def execCmpBusyWindowEnd (s : State) : Res := State.done (s.advanceToEdge ((s.time.edges / 491520 + 1) * 491520))

/-- A write of CMP_CAL_SEL: with GO the bins are copied (R75). -/
def State.calSnapshot (s : State) (v : Nat) : State :=
  let s := s.setReg Addr.cmpCalSel (BitVec.ofNat 64 (bitsOf v 28 0))
  if !bitOf v 31 then s
  else
    let q := bitsOf v 28 19
    let start := bitsOf v 18 7
    let n := if bitsOf v 6 0 = 0 ∨ 64 < bitsOf v 6 0 then 64 else bitsOf v 6 0
    let s := s.setReg Addr.cmpCalStamp (BitVec.ofNat 64 s.bin)
    let s := s.checkCal q ((List.range n).map (start + ·))
    s.each (List.range 64) fun s j =>
      s.setReg (Addr.cmpCalFill j) (BitVec.ofNat 64 (if j < n ∧ q < 746 then calFill s.cmp.cal q (start + j) else 0))

/-- CAL_SNAPSHOT (R75). -/
def execCalSnapshot (value : Word) (s : State) : Res := State.done (s.calSnapshot value.toNat)

/-- A snapshot of an instance's histogram, which then starts again (R74). -/
def State.histSnap (s : State) (q : Nat) : State :=
  let s := s.setReg Addr.cmpHistSel (BitVec.ofNat 64 q)
  let s := s.each (List.range 16) fun s k =>
    s.setReg (Addr.cmpHist k) (BitVec.ofNat 64 (SMap.get noFill s.cmp.hist (16 * q + k)))
  { s with cmp := { s.cmp with hist := SMap.clearRange s.cmp.hist (16 * q) (16 * q + 16) } }

/-- A write of CMP_HIST_SEL. -/
def State.writeHistSel (s : State) (v : Nat) : State :=
  if bitOf v 31 then s.histSnap (bitsOf v 9 0) else s.setReg Addr.cmpHistSel (BitVec.ofNat 64 (bitsOf v 9 0))

/-- HIST_SNAP (R74). -/
def execHistSnap (inst : BitVec 10) (s : State) : Res := State.done (s.histSnap inst.toNat)

/-- The earliest bin from the current one on that holds a booking of cluster c's tiles. -/
def State.nextBooking (s : State) (c : Nat) : Option Nat :=
  let b := s.bin
  ((List.range 4096).map (b + ·)).find? fun x =>
    (List.range 8).any fun t => calFill s.cmp.cal (8 * c + t) x != 0 || calFill s.cmp.cal (192 + 8 * c + t) x != 0

/-- CLUSTER_IDLE_EXIT_CALENDAR (R31): a cluster in IDLE with a booking in bin b leaves IDLE by the start of bin b − 1; the
exit starts 1 µs before. -/
def execClusterIdleExitCalendar (c : Fin 24) (s : State) : Res :=
  if !s.clusterIdle c then s.done
  else match s.nextBooking c with
  | none => s.done
  | some b => State.done ((s.advanceTo (ceilDiv ((b - 1) * 15625) 2 - 1000)).exitIdle c)

end Sys2Proof.Machine
end

