-- ==== Sys2Proof/Machine/Ports.lean ====
section
/-! DEFINITION. Two ports of one bank in one bank cycle (R215, R216, Table 09-4). -/

namespace Sys2Proof.Machine

/-- The other port's access is served, or refused (R209). -/
def State.portAccess (s : State) (o : PortAccess) : State :=
  match bankOf o.addr.toNat with
  | none => s
  | some key =>
    let (ok, s) := s.letIn key [o.who] o.write
    if !ok then s
    else if o.write then s.writeWord key (o.addr.toNat / 8) o.who o.data o.bytes false
    else (s.readWord key (o.addr.toNat / 8) o.who).2

/-- Block of the bank that holds an address, for its counters. -/
def blockOf (a : Nat) : Nat := (bankOf a).getD 0 / 256

/-- An access to the words `words` of the banks `banks`, and what the banks' other port presents in the same cycle
(Table 09-4): the write of a same word lands before a read, the local write before the network's. The answer tells whether
the response carries BUSY. -/
def State.withPortOn {α : Type} (s : State) (isLocal write : Bool) (banks : List (Option Nat)) (words : List Nat)
    (other : Option PortAccess) (f : State → α × State) : α × Bool × State :=
  match other with
  | none => let (x, s) := f s; (x, false, s)
  | some o =>
    if !banks.contains (bankOf o.addr.toNat) then let (x, s) := f s; (x, false, s)
    else if !words.contains (o.addr.toNat / 8) then
      let (x, s) := f s
      (x, false, s.portAccess o)
    else
      let c := blockOf o.addr.toNat
      if write && o.write then
        let s := s.count (Addr.memCollWwCnt c)
        let s := if isLocal then s else s.portAccess o
        let (x, s) := f s
        (x, !isLocal, if isLocal then s.portAccess o else s)
      else if write then
        let (x, s) := f (s.count (Addr.memCollRwCnt c))
        (x, false, s.portAccess o)
      else if o.write then
        let (x, s) := f ((s.count (Addr.memCollRwCnt c)).portAccess o)
        (x, true, s)
      else
        let (x, s) := f s
        (x, false, s.portAccess o)

/-- An access to n bytes at a. -/
def State.withPort {α : Type} (s : State) (isLocal write : Bool) (a n : Nat) (other : Option PortAccess)
    (f : State → α × State) : α × Bool × State :=
  s.withPortOn isLocal write (banksOf a n) (wordsOf a n) other f

/-- The other port's access meets an area (written or read, address, length) that a command reads or writes whole. -/
def areaMet (o : PortAccess) (x : Bool × Nat × Nat) : Bool :=
  let w := o.addr.toNat / 8
  x.2.2 != 0 && x.2.1 / 8 ≤ w && w ≤ (x.2.1 + x.2.2 - 1) / 8

/-- A command that reads and writes areas, one of whose accesses may meet the bank's other port (R215): the first area that
holds the word counts. Its reads are issued again where they carry BUSY (R216). -/
def State.withAreas {α : Type} (s : State) (isLocal : Nat → Bool) (areas : List (Bool × Nat × Nat))
    (other : Option PortAccess) (f : State → α × State) : α × State :=
  match other with
  | none => f s
  | some o =>
    match areas.find? (areaMet o), bankOf o.addr.toNat with
    | some x, some key =>
      let (r, _, s) := s.withPortOn (isLocal key) x.1 [some key] [o.addr.toNat / 8] other f
      (r, s)
    | _, some key =>
      let (r, s) := f s
      (r, if areas.any fun x => (banksOf x.2.1 x.2.2).contains (some key) then s.portAccess o else s)
    | _, none => f s

end Sys2Proof.Machine
end

