-- ==== Sys2Proof/Machine/CxMath.lean ====
section
/-! DEFINITION. The exact arithmetic in which the engines' formulas are stated: complex rationals, matrices of them with their
triangular factorisation, decibels, and the rounding of a result to int16 (R163, R172 to R174, R189). -/

namespace Sys2Proof

/-! ### Complex numbers -/

def Cx.zero : Cx := ⟨0, 0⟩
def Cx.one : Cx := ⟨1, 0⟩
def Cx.add (a b : Cx) : Cx := ⟨a.re + b.re, a.im + b.im⟩
def Cx.sub (a b : Cx) : Cx := ⟨a.re - b.re, a.im - b.im⟩
def Cx.mul (a b : Cx) : Cx := ⟨a.re * b.re - a.im * b.im, a.re * b.im + a.im * b.re⟩
def Cx.conj (a : Cx) : Cx := ⟨a.re, -a.im⟩
def Cx.scale (k : Rat) (a : Cx) : Cx := ⟨k * a.re, k * a.im⟩
/-- |a|². -/
def Cx.sq (a : Cx) : Rat := a.re * a.re + a.im * a.im
def Cx.div (a b : Cx) : Cx := Cx.scale (1 / b.sq) (a.mul b.conj)
def Cx.sum (l : List Cx) : Cx := l.foldl Cx.add Cx.zero

end Sys2Proof

namespace Sys2Proof.Machine

/-! ### Rounding -/

/-- Round to the nearest integer, a tie to the even one (RNE). -/
def rne (x : Rat) : Int :=
  let f := x.floor
  let r := 2 * (x - f)
  if r < 1 then f else if 1 < r then f + 1 else if f % 2 = 0 then f else f + 1

/-- A part written as int16: rounded RNE and saturated. -/
def int16Of (x : Rat) : Int := max (-32768) (min 32767 (rne x))

/-- The part is saturated. -/
def saturates (x : Rat) : Bool := rne x < -32768 || 32767 < rne x

/-- log10 of a number, rounded down. -/
def log10Floor (n : Nat) : Nat := (Nat.toDigits 10 n).length - 1

/-- k × log10 x rounded down, of a positive x. -/
def logFloor (k : Nat) (x : Rat) : Int :=
  if 1 ≤ x then log10Floor (x ^ k).floor.toNat
  else
    let n := ((1 / x) ^ k).ceil.toNat
    Int.negOfNat (if n ≤ 1 then 0 else log10Floor (n - 1) + 1)

/-- k × log10 x rounded to the nearest integer. -/
def logNear (k : Nat) (x : Rat) : Int := (logFloor (2 * k) x + 1) / 2

/-! ### Samples -/

/-- exp(j2πx), as the engine has it. -/
def cis (x : Rat) : Cx := ⟨(Config.cis x).1, (Config.cis x).2⟩

/-- A cint16 Q15 word, I in bits [15:0]. -/
def cintOf (w : Nat) : Cx := ⟨(signed 16 w : Rat) / 32768, (signed 16 (w / 65536) : Rat) / 32768⟩

/-- The cint16 values of a byte string. -/
def cintsOf (l : List Byte) : List Cx := (List.range (l.length / 4)).map fun i => cintOf (leVal ((l.drop (4 * i)).take 4))

/-- The four bytes of a value written as cint16 Q15. -/
def cintBytes (a : Cx) : List Byte :=
  leBytes 2 (unsigned 16 (int16Of (32768 * a.re))) ++ leBytes 2 (unsigned 16 (int16Of (32768 * a.im)))

/-- Parts of a cint16 value that are saturated. -/
def cintSat (a : Cx) : Nat := (if saturates (32768 * a.re) then 1 else 0) + (if saturates (32768 * a.im) then 1 else 0)

/-! ### Matrices, by rows -/

abbrev Mat := List (List Cx)

def Mat.at (m : Mat) (r c : Nat) : Cx := (m.getD r []).getD c Cx.zero
def Mat.of (rows cols : Nat) (f : Nat → Nat → Cx) : Mat := (List.range rows).map fun r => (List.range cols).map (f r)
/-- Rows × cols elements in column-major order from element o of a list. -/
def Mat.ofCols (l : List Cx) (rows cols o : Nat) : Mat := Mat.of rows cols fun r c => l.getD (o + c * rows + r) Cx.zero
/-- The elements in column-major order. -/
def Mat.elems (m : Mat) (rows cols : Nat) : List Cx := (List.range (rows * cols)).map fun i => m.at (i % rows) (i / rows)
def Mat.rows (m : Mat) : Nat := m.length
def Mat.cols (m : Mat) : Nat := (m.headD []).length
def Mat.mul (a b : Mat) : Mat :=
  Mat.of a.rows b.cols fun r c => Cx.sum ((List.range b.rows).map fun k => (a.at r k).mul (b.at k c))
def Mat.herm (a : Mat) : Mat := Mat.of a.cols a.rows fun r c => (a.at c r).conj
def Mat.scale (k : Rat) (a : Mat) : Mat := a.map (·.map (Cx.scale k))
/-- x on the diagonal added. -/
def Mat.addDiag (a : Mat) (x : Rat) : Mat := Mat.of a.rows a.cols fun r c => if r = c then (a.at r c).add ⟨x, 0⟩ else a.at r c
def Mat.trace (a : Mat) : Rat := ((List.range a.rows).map fun i => (a.at i i).re).sum

/-- The least pivot a factorisation of a matrix accepts: 2^−24 × its largest diagonal element (R174). -/
def Mat.eps (a : Mat) : Rat :=
  ((List.range a.rows).map fun i => (a.at i i).re).foldl max ((a.at 0 0).re) / 2 ^ 24

/-- A triangular factorisation: unit lower factor, upper factor, and whether a pivot was replaced. -/
structure Factors where
  lower : Mat
  upper : Mat
  replaced : Bool
  deriving DecidableEq, Repr

/-- Subtract from each row below the pivot row its multiple that clears the first column. -/
def eliminate (pivot : List Cx) (p : Cx) (rows : Mat) : Mat × List Cx :=
  let q := rows.map fun r => (r.headD Cx.zero).div p
  (List.zipWith (fun r k => List.zipWith (fun x y => Cx.sub x (k.mul y)) r.tail pivot.tail) rows q, q)

/-- Elimination of n columns: the rows of the upper factor and the columns of the lower one. A pivot at or below ε is
replaced by ε (R174); `slip` is the arithmetic's error in the pivot. -/
def elimination (eps : Rat) (slip : Nat → Rat) : Nat → Mat → List (List Cx) × List (List Cx) × Bool
  | n + 1, pivot :: rows =>
    let p := (pivot.headD Cx.zero).add ⟨slip n, 0⟩
    let low := decide (p.re ≤ eps)
    let p := if low then ⟨eps, 0⟩ else p
    let (rest, q) := eliminate pivot p rows
    let (u, l, b) := elimination eps slip n rest
    ((p :: pivot.tail) :: u, q :: l, low || b)
  | _, _ => ([], [], false)

/-- The factors of a square matrix. -/
def Mat.factors (a : Mat) (slip : Nat → Rat) : Factors :=
  let n := a.rows
  let (u, l, b) := elimination a.eps slip n a
  ⟨Mat.of n n fun r c => if r = c then Cx.one else if r < c then Cx.zero else (l.getD c []).getD (r - c - 1) Cx.zero,
   Mat.of n n fun r c => if r ≤ c then (u.getD r []).getD (c - r) Cx.zero else Cx.zero, b⟩

/-- Forward substitution by a unit lower factor: the rows solved so far, then the rest. -/
def forwardRows (lower : Mat) (done : Mat) : Mat → Mat
  | [] => done
  | b :: rest =>
    let r := done.length
    let x := (List.range b.length).map fun c =>
      (b.getD c Cx.zero).sub (Cx.sum ((List.range r).map fun k => (lower.at r k).mul (done.at k c)))
    forwardRows lower (done ++ [x]) rest

/-- Back substitution, from the last row up. -/
def backRows (upper : Mat) (cols : Nat) (b : Mat) : Nat → Mat → Mat
  | 0, done => done
  | r + 1, done =>
    let x := (List.range cols).map fun c =>
      ((b.at r c).sub (Cx.sum ((List.range done.length).map fun k => (upper.at r (r + 1 + k)).mul (done.at k c)))).div
        (upper.at r r)
    backRows upper cols b r (x :: done)

/-- The solution of (lower × upper) X = b. -/
def Factors.solve (f : Factors) (b : Mat) : Mat :=
  backRows f.upper b.cols (forwardRows f.lower [] b) f.upper.rows []

end Sys2Proof.Machine
end

