-- ==== Sys2Proof/Machine/MemCmd.lean ====
section
/-! DEFINITION. The memory commands: handover (R210 to R212), code changes (R219, R231), scrubbing (R226, R227) and remap
(R230). -/

namespace Sys2Proof.Machine

/-! ### MEM_OWNER -/

/-- The source of a MEM_OWNER write (R210, R428). -/
def ownerWriter : Option Requester → OwnerWriter
  | none => .dispatcher
  | some (.zelfa z) => .zelfa z
  | some .plumb => .zelfa 8
  | some .dap => .zelfa 9
  | some (.tile t) => .owner (Ident.tile t)
  | some .host => .owner Ident.host

/-- The writes of one cycle to one MEM_OWNER, from anyone but the dispatcher behind a fence refused there (R426). -/
def State.writeOwner (s : State) (key : Nat) (ws : List OwnerWrite) : State :=
  s.behindFence (ownerReg key) fun s => s.ownerWrites key (ws.map fun w => (ownerWriter w.who, w.owner))

/-- MEM_OWNER_WRITE (R210). -/
def execMemOwnerWrite (b : Fin 25) (i : BitVec 8) (ws : List OwnerWrite) (s : State) : Res :=
  let key := b.val * 256 + i.toNat
  State.done (if bankValid key then s.writeOwner key ws else s)

/-- HANDOVER_COMPLETE (R211, R212). -/
def execHandoverComplete (b : Fin 25) (i : BitVec 8) (s : State) : Res :=
  State.done (s.completeHandover (b.val * 256 + i.toNat))

/-! ### MEM_BANK_CFG -/

/-- LOAD or SERVICE: RWL fields may change (R449). -/
def State.rwlOpen (s : State) : Bool := s.mode == Mode.load || s.mode == Mode.service

/-- A write that changes CODE initialises the bank; 0b11 leaves CODE and is counted (R219, R231). -/
def State.changeCode (s : State) (key code : Nat) : State :=
  if code = 3 then s.count (Addr.memCfgDenyCnt (key / 256))
  else if code = s.fget (cfgReg key) Fld.memBankCfgCode then s
  else (s.fset (cfgReg key) Fld.memBankCfgCode code).initBank key

/-- A write of MEM_BANK_CFG (R219, R449): CRIT, RETAIN, CLR_HO and CODE are RWL; a CODE of 0b11 would change nothing. -/
def State.writeBankCfg (s : State) (key : Nat) (v : Nat) : State :=
  let r := cfgReg key
  if s.rwlOpen then
    let s := (s.fset r Fld.memBankCfgCrit (bitsOf v 4 4)).fset r Fld.memBankCfgRetain (bitsOf v 3 3)
    (s.fset r Fld.memBankCfgClrHo (bitsOf v 2 2)).changeCode key (bitsOf v 1 0)
  else
    let old := (s.reg r).toNat
    s.countIf (bitsOf v 4 2 != bitsOf old 4 2 || (bitsOf v 1 0 != 3 && bitsOf v 1 0 != bitsOf old 1 0)) Addr.devRwlDenyCnt

/-- MEM_CODE_CHANGE (R219): a write of MEM_BANK_CFG. -/
def execMemCodeChange (b : Fin 25) (i : BitVec 8) (_who : Requester) (value : Word) (s : State) : Res :=
  let key := b.val * 256 + i.toNat
  State.done (if bankValid key then s.behindFence (cfgReg key) fun s => s.writeBankCfg key value.toNat else s)

/-! ### Scrubbing -/

/-- The block's cluster, or the device for the fronthaul buffer, is in RUN or IDLE (R227). -/
def State.scrubRuns (s : State) (c : Nat) : Bool :=
  (s.mode == Mode.run || s.mode == Mode.idle) && (c == 24 || !s.clusterAsleep c)

def State.scrubEnabled (s : State) (c : Nat) : Bool := s.flag (Addr.memScrubCfg c) Fld.memScrubCfgEn

def State.queueWriteBack (s : State) (c w : Nat) : State :=
  let x := s.scrub c
  if x.writeBacks.any fun p => p.1 == w then s else s.setScrub c { x with writeBacks := x.writeBacks ++ [(w, false)] }

/-- The scrubber stores an uncorrectable word poisoned (R226). -/
def State.scrubPoison (s : State) (key w : Nat) : State :=
  let raw := s.rawWord w
  (s.noteUncorrectable key w Ident.scrubber).putWord w raw true

/-- The check of one word (R226, R453). -/
def State.scrubWord (s : State) (key w : Nat) : State :=
  if s.poisoned w then s
  else match s.check key w with
    | .clean => s
    | .correctable => (s.noteCorrected key w).queueWriteBack (key / 256) w
    | .uncorrectable => s.scrubPoison key w
    | .beyond =>
      let (k, s) := s.freeBelow 3
      if k = 0 then s
      else if k = 1 then (s.noteCorrected key w).queueWriteBack (key / 256) w
      else s.scrubPoison key w

/-- Lines of the bank checked in this lap. -/
def State.scrubPos (s : State) (key : Nat) : Nat := SMap.get (fun _ => 0) (s.scrub (key / 256)).pos (key % 256)

/-- The next line of a bank is checked, or the whole bank is skipped while BIST owns it (R227). -/
def State.scrubLine (s : State) (key : Nat) : State :=
  let c := key / 256
  let x := s.scrub c
  let pos := s.scrubPos key
  if 512 ≤ pos then s
  else if (s.owner key).kind = 6 then
    s.setScrub c { x with skipped := true, pos := SMap.set (fun _ => 0) x.pos (key % 256) 512 }
  else
    let s := s.setScrub c { x with pos := SMap.set (fun _ => 0) x.pos (key % 256) (pos + 1) }
    s.each (List.range 16) fun s k => s.scrubWord key (bankBase key / 8 + 16 * pos + k)

/-- SCRUB_LINE_CHECK (R226). -/
def execScrubLineCheck (b : Fin 25) (i : BitVec 8) (s : State) : Res :=
  let key := b.val * 256 + i.toNat
  State.done (if bankValid key && s.scrubEnabled b && s.scrubRuns b then s.scrubLine key else s)

/-- The word's tracker entry takes WB = 1 and count 0; a word without one gets one (R228). -/
def State.markWrittenBack (s : State) (c w : Nat) : State :=
  match s.trkFind c w with
  | some n => s.setTrk c n (some ⟨w, 0, true⟩)
  | none =>
    let (n, s) := s.trkPlace c
    s.setTrk c n (some ⟨w, 0, true⟩)

/-- SCRUB_WRITE_BACK (R226, R228): the first waiting word is written back corrected. -/
def execScrubWriteBack (b : Fin 25) (s : State) : Res :=
  let x := s.scrub b
  match x.writeBacks with
  | [] => s.done
  | (w, at8) :: l =>
    if !s.scrubRuns b then s.done
    else
      let s := s.setScrub b { x with writeBacks := l }
      let s := { s with banks := s.banks.setFlips w 0 }
      State.done ((s.markWrittenBack b w).countIf at8 (Addr.memWbCnt b))

/-- Every line of every bank of the block has been checked or skipped. -/
def State.lapOver (s : State) (c : Nat) : Bool :=
  (List.range (if c = 24 then 256 else 192)).all fun i => 512 ≤ s.scrubPos (256 * c + i)

/-- The report of a completed lap (R227). -/
def State.endLap (s : State) (c : Nat) : State :=
  let x := s.scrub c
  let edges := s.time.runTicks - x.lapStart
  let st := Addr.memScrubStat c
  let s := s.fset st Fld.memScrubStatLapUs (min (edges * 25 / 12288) 16777215)
  let s := (s.fset st Fld.memScrubStatPartial (if x.skipped then 1 else 0)).countIf x.skipped (Addr.memScrubPartialCnt c)
  let max := s.fget (Addr.memScrubCfg c) Fld.memScrubCfgMaxLap
  let s := if max ≠ 0 ∧ max * 491520 < edges then
      ((s.fset st Fld.memScrubStatAlarm 1).count (Addr.memScrubAlarmCnt c)).hostEvent Evt.memory
    else s
  s.newLap c

/-- SCRUB_LAP_END (R227). -/
def execScrubLapEnd (b : Fin 25) (s : State) : Res :=
  State.done (if s.scrubEnabled b && s.scrubRuns b && s.lapOver b then s.endLap b else s)

/-! ### Remap (R230) -/

def State.remapValid (s : State) (c e : Nat) : Bool := s.flag (Addr.memRemap c e) Fld.memRemapValid

/-- The word index (address / 8) of bank index i and word n of block c. -/
def remapWord (c i n : Nat) : Nat := bankBase (256 * c + i) / 8 + n

/-- Another valid entry names the word. -/
def State.remapTaken (s : State) (c e i n : Nat) : Bool :=
  (List.range 16).any fun k => k != e && s.remapValid c k && s.fget (Addr.memRemap c k) Fld.memRemapBank == i
    && s.fget (Addr.memRemap c k) Fld.memRemapWord == n

/-- The word's content moves to a spare word, corrected, or poisoned where it cannot be corrected; no counter but
MEM_REMAP_INST_CNT changes. -/
def State.installSpare (s : State) (c i n : Nat) : State :=
  let key := 256 * c + i
  let w := remapWord c i n
  let bad := s.poisoned w || s.check key w == .uncorrectable || s.check key w == .beyond
  let v := if bad then s.rawWord w else s.word w
  let b := { s.banks with spare := SMap.set noFlag s.banks.spare w true }
  { s with banks := b }.putWord w v bad

/-- A write of MEM_REMAP (R230): with VALID = 0 the entry's fields, which any writer may set, are written; with VALID = 1 it is
installed or refused. -/
def State.writeRemap (s : State) (c e : Nat) (who : Requester) (v : Nat) : State :=
  let r := Addr.memRemap c e
  let i := bitsOf v 20 13
  let n := bitsOf v 12 0
  let deny := s.count (Addr.memRemapDenyCnt c)
  if s.remapValid c e then deny
  else if !bitOf v 31 then (s.fset r Fld.memRemapBank i).fset r Fld.memRemapWord n
  else if !isZelfa who then deny
  else if s.remapTaken c e i n || (c != 24 && 192 ≤ i) then deny
  else
    let s := (((s.fset r Fld.memRemapBank i).fset r Fld.memRemapWord n).fset r Fld.memRemapValid 1)
    (s.installSpare c i n).count (Addr.memRemapInstCnt c)

/-- MEM_REMAP_INSTALL (R230). -/
def execMemRemapInstall (b : Fin 25) (e : Fin 16) (who : Requester) (value : Word) (s : State) : Res :=
  State.done (s.behindFence (Addr.memRemap b e) fun s => s.writeRemap b e who value.toNat)

end Sys2Proof.Machine
end

