-- ==== Sys2Proof/Machine/NocGrid.lean ====
section
/-! DEFINITION. Orthogon's routers and their places, the bridge links, and the ports a router has (R233, R234). -/

namespace Sys2Proof.Machine

/-! ### Routers and links (Tables 10-1 and 10-2) -/

/-- The die of a router: compute die 0 or 1, or the I/O die, 2. -/
def rtrDie (r : Nat) : Nat := if r < 48 then 0 else if r < 96 then 1 else 2

def rtrX (r : Nat) : Nat := if r < 96 then r % 8 else (r - 96) % 4
def rtrY (r : Nat) : Nat := if r < 96 then r % 48 / 8 else (r - 96) / 4

/-- The bridge that joins two dies. -/
def bridgeOf (a b : Nat) : Nat := if a = 2 ∨ b = 2 then min a b else 2

/-- Link l of bridge b at the given die: its router's position. -/
def linkAt (b l die : Nat) : Nat × Nat :=
  match b with
  | 0 => if die = 0 then (l / 3, 5) else (l / 6, 0)
  | 1 => if die = 1 then (l / 3, 5) else (l / 6, 3)
  | _ => if die = 0 then (7, l / 4) else (0, l / 4)

/-- The two dies bridge b joins. -/
def bridgeDies (b : Nat) : Nat × Nat := match b with
  | 0 => (0, 2)
  | 1 => (1, 2)
  | _ => (0, 1)

/-- The links of bridge b that router r holds, in ascending order. -/
def linksOf (r b : Nat) : List Nat :=
  let d := rtrDie r
  if (bridgeDies b).1 = d ∨ (bridgeDies b).2 = d then
    (List.range 24).filter fun l => linkAt b l d == (rtrX r, rtrY r)
  else []

/-- Every bridge router keeps an enabled link of each bridge whose links it holds. -/
def brgSetOk (en : Nat → Nat) : Bool :=
  (List.range 112).all fun r => [0, 1, 2].all fun b => (linksOf r b).isEmpty || (linksOf r b).any fun l => bitOf (en b) l

/-- The bridge links router r holds, with their bridge, in port order from port 8 (R234). -/
def rtrLinks (r : Nat) : List (Nat × Nat) :=
  ([0, 1, 2].map fun b => (linksOf r b).map fun l => (b, l)).flatten

/-- The mesh of a die reaches from (0, 0) to here. -/
def meshMax (die : Nat) : Nat × Nat := if die = 2 then (3, 3) else (7, 5)

/-- Router r has port p (R234). -/
def hasPort (r p : Nat) : Bool :=
  let (mx, my) := meshMax (rtrDie r)
  match p with
  | 4 => rtrY r < my
  | 5 => rtrX r < mx
  | 6 => rtrY r != 0
  | 7 => rtrX r != 0
  | _ => p < 4 || p < 8 + (rtrLinks r).length

end Sys2Proof.Machine
end

