-- ==== Sys2Proof/Machine/NocMap.lean ====
section
/-! DEFINITION. Orthogon's routers, attachments and bridge links (R233, R234), its routes (R235, R236), and the flit and packet
headers (R237, R238, R240). -/

namespace Sys2Proof.Machine

/-! ### Attachments (Table 10-1) -/

/-- The compute-die router at column x of cluster c's local sector: sector s of a die holds columns 4s to 4s + 3, its clusters
one row each. -/
def clusterRtr (c x : Nat) : Nat := 48 * (c / 12) + 8 * (c % 6) + (4 * (c % 12 / 6) + x)

/-- Router (x, y) of the I/O die. -/
def ioRtr (x y : Nat) : Nat := 96 + 4 * y + x

/-- The router of a bank: two tiles and 32 cluster memory banks share one. -/
def bankRtr (key : Nat) : Nat :=
  let i := key % 256
  if key / 256 = 24 then ioRtr (i / 64) 1
  else clusterRtr (key / 256) (if i < 64 then i / 16 else (i - 64) / 32)

def tileRtr (t : Nat) : Nat := clusterRtr (t / 8) (t % 8 / 2)

/-- A cluster's DMA engine and its scrubber. -/
def engineRtr (c : Nat) : Nat := clusterRtr c 0

/-- Accelerator position n of sector s of the device. -/
def positionRtr (s n : Nat) : Nat := 48 * (s / 2) + 8 * (n / 4 % 6) + (4 * (s % 2) + n % 4)

/-- The accelerator with calendar index q: its position is its instance number within its class and sector. -/
def accRtr (q : Nat) : Nat := positionRtr (sectorOf q) (instOf q % perSector (classOf q))

def sdcRtr (n : Nat) : Nat := ioRtr (n / 32) 0

/-- The framers of a lane group. -/
def framerRtr (g : Nat) : Nat := if g < 4 then ioRtr g 1 else ioRtr (g - 4) 2

def compassRtr : Nat := ioRtr 0 2
def zelfaRtr : Nat := ioRtr 1 2
def cxlRtr : Nat := ioRtr 2 2
/-- Meridian, the power manager and Plumb. -/
def plumbRtr : Nat := ioRtr 3 2

/-- The router of the unit that holds a register (R233, R420); none where Table 10-1 places no unit for the block. -/
def regRtr (a : Nat) : Option Nat :=
  if 0x40100000 ≤ a ∧ a < 0x40200000 ∨ 0x40300000 ≤ a ∧ a < 0x40400000 ∨ 0x41C00000 ≤ a ∧ a < 0x42000000 then some plumbRtr
  else if 0x40400000 ≤ a ∧ a < 0x40500000 then some compassRtr
  else if 0x40600000 ≤ a ∧ a < 0x40780000 then some (engineRtr ((a - 0x40600000) / 0x10000))
  else if 0x40800000 ≤ a ∧ a < 0x40980000 then some (engineRtr ((a - 0x40800000) / 0x10000))
  else if 0x40A00000 ≤ a ∧ a < 0x40A001A0 then some (accRtr (400 + (a - 0x40A00000) / 4))
  else if 0x40C00000 ≤ a ∧ a < 0x40C00040 then some (accRtr (384 + (a - 0x40C00000) / 4))
  else if 0x40C00040 ≤ a ∧ a < 0x40C00080 then some (accRtr (504 + (a - 0x40C00040) / 4))
  else if 0x40C00080 ≤ a ∧ a < 0x40C00100 then some (accRtr (520 + (a - 0x40C00080) / 4))
  else if 0x40E00000 ≤ a ∧ a < 0x40E02000 then some (sdcRtr ((a - 0x40E00000) / 0x40))
  else if 0x41000000 ≤ a ∧ a < 0x41040000 then some (framerRtr ((a - 0x41000000) / 0x8000))
  else if 0x41040000 ≤ a ∧ a < 0x41044000 then some (framerRtr ((a - 0x41040000) / 0x800))
  else if 0x41400000 ≤ a ∧ a < 0x41800000 then some cxlRtr
  else if 0x42000000 ≤ a ∧ a < 0x420C0000 then some (tileRtr ((a - 0x42000000) / 0x1000))
  else none

/-- The router of the unit that an address names. -/
def addrRtr (a : Nat) : Option Nat :=
  match target a with
  | .mem a => (bankOf a).map bankRtr
  | .bitSet a => (bankOf a).map bankRtr
  | .bitClr a => (bankOf a).map bankRtr
  | .reg a => regRtr a
  | .host _ => some cxlRtr
  | .none => none

/-- The fence domain whose ejection port a request for the address reaches. -/
def targetDomain (a : Nat) : Option Nat :=
  match target a with
  | .mem a => (bankOf a).map bankDomain
  | .bitSet a => (bankOf a).map bankDomain
  | .bitClr a => (bankOf a).map bankDomain
  | .reg a => regDomain a
  | _ => none

/-- The fence domain whose requesters the identity is one of. -/
def identDomain (i : Ident) : Option Nat :=
  match i.kind with
  | 1 => some (i.index / 8)
  | 2 => some (if i.index = 24 then 29 else i.index)
  | 3 => if i.index < 560 then some (24 + sectorOf i.index) else if i.index < 564 then some (24 + (i.index - 560)) else none
  | 4 => some 28
  | _ => none

/-! ### Routes (R235, R236) -/

/-- The mesh port toward (x, y), X first; `none` at that position. -/
def meshPort (r x y : Nat) : Option Nat :=
  if rtrX r < x then some 5
  else if x < rtrX r then some 7
  else if rtrY r < y then some 4
  else if y < rtrY r then some 6
  else none

/-- The position on the router's own die from which a packet for router `dest` of another die leaves. -/
def exitOf (r dest : Nat) : Nat × Nat :=
  match rtrDie r, rtrDie dest with
  | 2, 0 => (rtrX dest / 2, 0)
  | 2, _ => (rtrX dest / 2, 3)
  | _, 2 => (rtrX r, 5)
  | 0, _ => (7, rtrY r)
  | _, _ => (0, rtrY r)

/-- The port of the link that the packet takes over bridge b, the k-th enabled one (R236). -/
def linkPort (r b en src dest : Nat) : Nat :=
  let ls := (linksOf r b).filter fun l => bitOf en l
  let l := ls.getD ((src + dest) % ls.length) 0
  8 + (rtrLinks r).findIdx fun x => x == (b, l)

/-- Output port of a packet at router r; `en` gives each bridge's enabled links in the packet's epoch. -/
def routePort (r src dest destPort : Nat) (en : Nat → Nat) : Nat :=
  if rtrDie r = rtrDie dest then (meshPort r (rtrX dest) (rtrY dest)).getD destPort
  else
    let b := bridgeOf (rtrDie r) (rtrDie dest)
    let (x, y) := exitOf r dest
    (meshPort r x y).getD (linkPort r b (en b) src dest)

/-! ### Flit and packet headers (Tables 10-3 and 10-4) -/

def Flit.type (h : BitVec 56) : Nat := bitsOf h.toNat 55 54
def Flit.vc (h : BitVec 56) : Nat := bitsOf h.toNat 53 52
def Flit.epoch (h : BitVec 56) : Nat := bitsOf h.toNat 51 51
def Flit.dest (h : BitVec 56) : Nat := bitsOf h.toNat 48 42
def Flit.prio (h : BitVec 56) : Nat := bitsOf h.toNat 50 49
def Flit.destPort (h : BitVec 56) : Nat := bitsOf h.toNat 41 38
def Flit.poison (h : BitVec 56) : Nat := bitsOf h.toNat 37 30
def Flit.flow (h : BitVec 56) : Nat := bitsOf h.toNat 29 18
/-- HEAD or SINGLE. -/
def Flit.isHead (h : BitVec 56) : Bool := Flit.type h == 0 || Flit.type h == 3

/-- A flit header (Table 10-3). -/
def Flit.make (type vc epoch prio dest destPort poison flow : Nat) : BitVec 56 :=
  BitVec.ofNat 56 (type * 2 ^ 54 + vc * 2 ^ 52 + epoch * 2 ^ 51 + prio * 2 ^ 49 + dest * 2 ^ 42 + destPort * 2 ^ 38 + poison * 2 ^ 30
    + flow * 2 ^ 18)

/-- The header with these lanes marked poisoned. -/
def Flit.mark (h : BitVec 56) (lanes : BitVec 8) : BitVec 56 := h ||| (lanes.setWidth 56 <<< 30)
/-- The header of another flit of the packet. -/
def Flit.withType (h : BitVec 56) (t : Nat) : BitVec 56 := BitVec.ofNat 56 (h.toNat % 2 ^ 54 + t * 2 ^ 54)

def Pkt.op (p : BitVec 256) : Nat := bitsOf p.toNat 255 248
def Pkt.len (p : BitVec 256) : Nat := bitsOf p.toNat 247 240
def Pkt.tag (p : BitVec 256) : Nat := bitsOf p.toNat 239 232
def Pkt.srcRtr (p : BitVec 256) : Nat := bitsOf p.toNat 231 225
def Pkt.srcPort (p : BitVec 256) : Nat := bitsOf p.toNat 224 223
def Pkt.src (p : BitVec 256) : Nat := bitsOf p.toNat 222 207
def Pkt.obo (p : BitVec 256) : Nat := bitsOf p.toNat 206 191
def Pkt.addr (p : BitVec 256) : Nat := bitsOf p.toNat 190 143
def Pkt.status (p : BitVec 256) : Nat := bitsOf p.toNat 142 140
def Pkt.busy (p : BitVec 256) : Bool := bitOf p.toNat 139
def Pkt.crc (p : BitVec 256) : Nat := bitsOf p.toNat 31 0
/-- READ_RSP or WRITE_ACK. -/
def Pkt.isRsp (p : BitVec 256) : Bool := Pkt.op p == 0x81 || Pkt.op p == 0x82

/-- The CRC-32C of a packet over header bits [255:32] and the payload bytes; the header's bytes go first, the lowest first
(DESIGN CHOICE, log 66). -/
def Pkt.crcOf (p : BitVec 256) (payload : List Byte) : Nat := crc32c (leBytes 28 (p.toNat / 2 ^ 32) ++ payload)

/-- The response to a request (R238): its LEN, TAG, requester and ADDR, with STATUS, BUSY and the CRC. -/
def Pkt.response (p : BitVec 256) (op status : Nat) (busy : Bool) (payload : List Byte) : BitVec 256 :=
  let v := BitVec.ofNat 256 (op * 2 ^ 248 + p.toNat % 2 ^ 248 / 2 ^ 143 * 2 ^ 143 + status * 2 ^ 140 + (if busy then 2 ^ 139 else 0))
  BitVec.ofNat 256 (v.toNat + Pkt.crcOf v payload)

/-! ### What an injection point writes into a header (R240, R254) -/

/-- PRIO of a requester. -/
def State.prioOf (s : State) (who : Ident) : Nat := SMap.get (fun _ => 0) s.img.reqPrio (Ident.code who)

/-- The guaranteed range of a requester that holds an address. -/
def State.guaranteed (s : State) (who : Ident) (a : Nat) : Option RangeT :=
  s.img.ranges.find? fun x => x.who == Ident.code who && x.first ≤ a && a ≤ x.last

/-- Virtual channel and flow of a packet: its guaranteed flow, or its return flow, on VC0; else by PRIO, or VC3 for a
response. -/
def State.channelOf (s : State) (p : BitVec 256) : Nat × Nat :=
  let who := identOf (Pkt.src p)
  match s.guaranteed who (Pkt.addr p) with
  | some x => (0, if Pkt.isRsp p then x.retFlow else x.flow)
  | none => (if Pkt.isRsp p then 3 else if 2 ≤ s.prioOf who then 1 else 2, 0)

def State.epoch (s : State) : Nat := s.fget Addr.nocEpochStat Fld.nocEpochStatEpoch

/-- The header of a HEAD or SINGLE flit as it is injected: VC, EPOCH, PRIO and FLOW, and the destination: the unit the address
names, by the local port that the requester chose, or the requester of a response. -/
def State.injectHdr (s : State) (h : BitVec 56) (p : BitVec 256) : BitVec 56 :=
  let ch := s.channelOf p
  let dest := if Pkt.isRsp p then Pkt.srcRtr p else (addrRtr (Pkt.addr p)).getD (Flit.dest h)
  let port := if Pkt.isRsp p then Pkt.srcPort p else Flit.destPort h
  Flit.make (Flit.type h) ch.1 s.epoch (s.prioOf (identOf (Pkt.src p))) dest port (Flit.poison h) ch.2

end Sys2Proof.Machine
end

