-- ==== Sys2Proof/Machine/Noc.lean ====
section
/-! DEFINITION. Orthogon: reservations (R244), the check of a received flit (R247, R248), wheels, channels and priority (R240 to
R242), the epoch tables (R253, R254) and the fences (R255, R256). -/

namespace Sys2Proof.Machine

/-! ### Errors -/

def NocErr.lane : Nat := 1
def NocErr.header : Nat := 2
def NocErr.crc : Nat := 3
def NocErr.timeout : Nat := 4
def NocErr.late : Nat := 5

/-- NOC_ERR_LOG with VALID set. -/
def nocErrWord (ring : Bool) (type rtr port src : Nat) : DWord :=
  BitVec.ofNat 64 (2 ^ 63 + (if ring then 2 ^ 61 else 0) + type * 2 ^ 58 + rtr * 2 ^ 51 + port * 2 ^ 47 + src)

/-- An error is logged in NOC_ERR_LOG, or sets OVF (vector 70). -/
def State.nocLog (s : State) (ring : Bool) (type rtr port src : Nat) : State :=
  let log := Addr.nocErrLog
  if s.flag log Fld.nocErrLogValid then s.fset log Fld.nocErrLogOvf 1
  else (s.setReg log (nocErrWord ring type rtr port src)).hostEvent Evt.noc

/-! ### Reservations (R244) -/

/-- The pool of reservations that a request draws on and its size (Table 10-7): a Zelfa core, a tile's core or coprocessor, or
the CXL port has one of its own; `sub` tells the requesters of one identity apart. -/
def resvPool (i : Ident) (sub : Nat) : Option ((Nat × Nat) × Nat) :=
  match i.kind with
  | 0 => some ((0, sub), 8)
  | 1 => some ((1, 2 * i.index + (if sub = 1 then 1 else 0)), if sub = 1 then 4 else 16)
  | 2 => some ((2, i.index), 64)
  | 3 => some ((3, i.index), if i.index < 568 then 32 else 16)
  | 4 => some ((4, i.index), 32)
  | 5 => some ((5, 0), 256)
  | _ => none

def Resv.pool (x : Resv) : Option (Nat × Nat) := (resvPool x.who x.sub).map (·.1)

/-- A response buffer is free, and no reservation of the requester's port holds the tag (R245). -/
def State.canReserve (s : State) (i : Ident) (sub port tag : Nat) : Bool :=
  (match resvPool i sub with
    | none => true
    | some (q, n) => decide ((s.noc.resv.filter fun r => r.pool == some q).length < n))
  && !(s.noc.resv.any fun r => r.who == i && r.port == port && r.tag == tag)

def State.setNoc (s : State) (n : Noc) : State := { s with noc := n }

/-- A READ or WRITE takes its reservation. -/
def State.reserve' (s : State) (p : BitVec 256) (sub : Nat) : State :=
  let x : Resv := ⟨identOf (Pkt.src p), Pkt.tag p, s.time.ticks, Pkt.srcRtr p, Pkt.srcPort p, sub, Pkt.op p == 2, Pkt.addr p,
    Pkt.len p⟩
  s.setNoc { s.noc with resv := s.noc.resv ++ [x] }

/-- A READ or WRITE, which must reserve first. -/
def mustReserve (p : BitVec 256) : Bool := Pkt.op p == 1 || Pkt.op p == 2

/-- The domain at whose injection port a packet enters: its requester's, or a response's responder's. -/
def injectDomain (p : BitVec 256) : Option Nat :=
  if Pkt.isRsp p then targetDomain (Pkt.addr p) else identDomain (identOf (Pkt.src p))

/-- A packet may enter: its domain's injection is open (R255, step 4), and a READ or WRITE finds a reservation. -/
def State.mayInject (s : State) (p : BitVec 256) (sub : Nat) : Bool :=
  !((injectDomain p).any fun d => s.drained d)
  && (!mustReserve p || s.canReserve (identOf (Pkt.src p)) sub (Pkt.srcPort p) (Pkt.tag p))

/-! ### The check of a code word (R237, R247) -/

/-- What a check finds of w data bits and eight check bits of which those in `flips` have changed: the data that go on, and 0
for no error, 1 for a corrected one, 2 for an uncorrectable one. A single-error-correcting, double-error-detecting code
tells nothing of three or more: R453's three outcomes (DEDUCED, log 66). -/
def State.secded (s : State) (w data flips : Nat) : (Nat × Nat) × State :=
  let n := popcount80 (BitVec.ofNat 80 flips)
  let raw := data ^^^ (flips % 2 ^ w)
  if n = 0 then ((data, 0), s)
  else if n = 1 then ((data, 1), s)
  else if n = 2 then ((raw, 2), s)
  else
    let (k, s) := s.freeBelow 3
    if k = 0 then ((raw, 0), s)
    else if k = 1 then
      let (d, s) := s.free w
      ((d.toNat, 1), s)
    else ((raw, 2), s)

/-- n lanes of 64 data bits, each with 8 check bits: the lanes that go on, the number corrected, the uncorrectable ones. -/
def State.checkLanes (s : State) (n lanes flips : Nat) : (Nat × Nat × Nat) × State :=
  (List.range n).foldl (fun (acc : (Nat × Nat × Nat) × State) i =>
    let ((v, c), s) := acc.2.secded 64 (lanes / 2 ^ (64 * i) % 2 ^ 64) (flips / 2 ^ (72 * i) % 2 ^ 72)
    ((acc.1.1 + v * 2 ^ (64 * i), acc.1.2.1 + (if c = 1 then 1 else 0), acc.1.2.2 + (if c = 2 then 2 ^ i else 0)), s))
    ((0, 0, 0), s)

/-! ### A router's inputs -/

/-- The input or output p of router r. -/
def inKey (r p : Nat) : Nat := r * 16 + p
def noPath : Nat → Option FlitPath := fun _ => none

/-- The stream of flits of a header at an input: its virtual channel, and its flow, since flits of different guaranteed flows
meet on VC0. -/
def streamKey (r p : Nat) (h : BitVec 56) : Nat := (inKey r p * 4 + Flit.vc h) * 4096 + Flit.flow h

def State.path (s : State) (key : Nat) : Option FlitPath := SMap.get noPath s.noc.paths key
def State.setPath (s : State) (key : Nat) (x : Option FlitPath) : State :=
  s.setNoc { s.noc with paths := SMap.set noPath s.noc.paths key x }

/-- Keys of the packets under way through an input. -/
def State.openPaths (s : State) (r p : Nat) : List Nat := (s.noc.paths.map (·.1)).filter fun k => k / 16384 == inKey r p

def noFlits : Nat → List WaitFlit := fun _ => []

/-- Flits that wait at a router, the first to come first. -/
def State.waiting (s : State) (r : Nat) : List WaitFlit := SMap.get noFlits s.noc.wait r
def State.setWaiting (s : State) (r : Nat) (l : List WaitFlit) : State :=
  s.setNoc { s.noc with wait := SMap.set noFlits s.noc.wait r l }
def State.queueFlit (s : State) (r : Nat) (x : WaitFlit) : State := s.setWaiting r (s.waiting r ++ [x])

/-- An uncorrectable flit error on a mesh link; eight of one link within 1 ms are the doubt MESH_LINK (R407). -/
def State.flitUe (s : State) (r p : Nat) : State :=
  if p < 4 ∨ 8 ≤ p then s
  else
    let old := (SMap.get (fun _ => ([] : List Nat)) s.noc.ueAt (inKey r p)).filter fun t => s.time.ticks < t + 491520
    let l := s.time.ticks :: old
    let s := s.setNoc { s.noc with ueAt := SMap.set (fun _ => []) s.noc.ueAt (inKey r p) l }
    if 8 ≤ l.length then s.doubt Doubt.meshLink else s

/-- A free word in each lane of a flit. -/
def State.freeLanes (s : State) : BitVec 512 × State :=
  let (v, s) := (List.range 8).foldl (fun (acc : Nat × State) i =>
    let (d, s) := acc.2.free 64
    (acc.1 + d.toNat * 2 ^ (64 * i), s)) (0, s)
  (BitVec.ofNat 512 v, s)

/-- The flits a router sends itself for the packet of a path, all lanes poisoned (R248). -/
def State.fillPath (s : State) (r p c key : Nat) : State :=
  match s.path key with
  | none => s
  | some x =>
    let s := s.each (List.range x.left) fun s k =>
      let (v, s) := s.freeLanes
      s.queueFlit r ⟨p, x.out, Flit.mark (Flit.withType x.hdr (if k + 1 = x.left then 2 else 1)) 0xFF, v, c, false⟩
    s.setPath key none

def State.draining (s : State) : Bool := s.flag Addr.nocEpochStat Fld.nocEpochStatDraining

/-- A shadow write, a commit or the end of a drain falls in this cycle: the boundary of the same cycle is too early for it. -/
def State.nocMark (s : State) : State := s.setNoc { s.noc with markAt := s.time.ticks }

/-- No old-epoch packet is left: DRAINING clears and the old set is released (R254). -/
def State.endDrain (s : State) : State :=
  let s := s.fset Addr.nocEpochStat Fld.nocEpochStatDraining 0
  (s.setNoc { s.noc with wheelOld := [], brgOld := [] }).nocMark

/-- A packet leaves Orthogon, delivered or lost: one of the old epoch leaves OLD_PKTS, and the last ends the drain (R254). -/
def State.noteEpoch (s : State) (h : BitVec 56) : State :=
  if s.draining && Flit.epoch h != s.epoch then
    let n := s.fget Addr.nocEpochStat Fld.nocEpochStatOldPkts - 1
    let s := s.fset Addr.nocEpochStat Fld.nocEpochStatOldPkts n
    if n = 0 then s.endDrain else s
  else s

/-- A flit of a resynchronising input is discarded: counted, and its credit returned (R248). -/
def State.resyncDiscard (s : State) (r p : Nat) : State := (s.count Addr.nocResyncDiscardCnt).emit (.credit r p)

/-- A flit whose header `h` cannot be read is discarded, and its input resynchronises; the packets under way through the input
are completed with poisoned flits (R248). -/
def State.badFlit (s : State) (r p c : Nat) (h : BitVec 56) : State :=
  let s := ((s.count Addr.nocHdrUeCnt).nocLog false NocErr.header r p 0).flitUe r p
  let s := if SMap.get noFlag s.noc.resync (inKey r p) then s.resyncDiscard r p else s
  let s := s.setNoc { s.noc with resync := SMap.set noFlag s.noc.resync (inKey r p) true }
  let s := s.each (s.openPaths r p) fun s k => s.fillPath r p c k
  if Flit.isHead h then s.noteEpoch h else s

/-- Errors found in a flit: n corrected code words, and lanes that stay uncorrectable (R247). -/
def State.noteFlit (s : State) (r p src n ue : Nat) : State :=
  let s := if n = 0 then s else s.countBy (Addr.nocRtrCeCnt r) n
  if ue = 0 then s
  else
    let s := s.countBy Addr.nocDataUeCnt (popcount80 (BitVec.ofNat 80 ue))
    (s.nocLog false NocErr.lane r p src).flitUe r p

/-- The enabled links of bridge b in an epoch. -/
def State.bridgeEn (s : State) (epoch b : Nat) : Nat :=
  if epoch = s.epoch then s.fget (Addr.nocBrgAct b) Fld.nocBrgActEn else s.noc.brgOld.getD b 0

/-- Flits that follow a HEAD. -/
def dataFlits (pkt : BitVec 256) : Nat := if Pkt.len pkt ≤ 64 then 1 else 2

/-- A HEAD or SINGLE flit that is kept waits for the output of its packet's route. At a local port the packet enters: the
injection point writes its header, and a READ or WRITE reserves. -/
def State.keepHead (s : State) (r p c sub : Nat) (h : BitVec 56) (lanes : BitVec 512) (n ue : Nat) : State :=
  let pkt := lanes.setWidth 256
  let src := if ue % 16 = 0 then Pkt.src pkt else 0
  let enters := decide (p < 4)
  let h := if enters then s.injectHdr h pkt else h
  let s := if enters && mustReserve pkt then s.reserve' pkt sub else s
  let out := routePort r (Pkt.srcRtr pkt) (Flit.dest h) (Flit.destPort h) (s.bridgeEn (Flit.epoch h))
  let s := s.noteFlit r p src n ue
  let s := s.setPath (streamKey r p h) (if Flit.type h = 0 then some ⟨out, dataFlits pkt, h, src⟩ else none)
  s.queueFlit r ⟨p, out, Flit.mark h (BitVec.ofNat 8 ue), lanes, c, false⟩

/-- The path that a data flit follows: at a local port that of the packet under way there. -/
def State.pathKey (s : State) (r p : Nat) (h : BitVec 56) : Nat :=
  if p < 4 then (s.openPaths r p).headD (streamKey r p h) else streamKey r p h

/-- A BODY or TAIL flit that is kept follows its HEAD; one without a HEAD is dropped. -/
def State.keepData (s : State) (r p c : Nat) (h : BitVec 56) (lanes : BitVec 512) (n ue : Nat) : State :=
  let key := s.pathKey r p h
  match s.path key with
  | none => s.noteFlit r p 0 n ue
  | some x =>
    let s := s.noteFlit r p x.src n ue
    let h' := if p < 4 then Flit.mark (Flit.withType x.hdr (Flit.type h)) (BitVec.ofNat 8 (Flit.poison h)) else h
    let s := s.setPath key (if Flit.type h = 2 ∨ x.left ≤ 1 then none else some { x with left := x.left - 1 })
    s.queueFlit r ⟨p, x.out, Flit.mark h' (BitVec.ofNat 8 ue), lanes, c, false⟩

/-- While the root PLL is unlocked the compute dies' meshes and the bridges stand still (R15). -/
def State.stands (s : State) (r p : Nat) : Bool := !s.locked && (r < 96 || 8 ≤ p)

/-- A flit arrives at an input of router r in cycle c. -/
def State.receive (s : State) (r c : Nat) (f : FlitIn) : State :=
  let p := f.port.val
  if !hasPort r p || s.stands r p
      || (p < 4 && Flit.isHead f.hdr && !s.mayInject (f.lanes.setWidth 256) f.sub) then s
  else
    let ((h, hc), s) := s.secded 56 f.hdr.toNat f.hdrFlips.toNat
    if hc = 2 then s.badFlit r p c f.hdr
    else
      let h := BitVec.ofNat 56 h
      let ((v, n, ue), s) := s.checkLanes 8 f.lanes.toNat f.laneFlips.toNat
      let lanes := BitVec.ofNat 512 v
      let n := n + hc
      if SMap.get noFlag s.noc.resync (inKey r p) && !Flit.isHead h then (s.noteFlit r p 0 n ue).resyncDiscard r p
      else
        let s := s.setNoc { s.noc with resync := SMap.set noFlag s.noc.resync (inKey r p) false }
        if Flit.isHead h then s.keepHead r p c f.sub h lanes n ue else s.keepData r p c h lanes n ue

/-! ### A router's outputs (R241, R242, R254) -/

def wheelKey (r p slot : Nat) : Nat := inKey r p * 256 + slot
def wheelOf (m : SMap Word) (r p slot : Nat) : Nat := (SMap.get (fun _ => (0 : Word)) m (wheelKey r p slot)).toNat

/-- The flow that owns a slot of an output in an epoch's tables. -/
def State.slotOwner (s : State) (epoch r o slot : Nat) : Option Nat :=
  let w := wheelOf (if epoch = s.epoch then s.noc.wheelAct else s.noc.wheelOld) r o slot
  if bitOf w 15 then some (bitsOf w 11 0) else none

def sameStream (x y : WaitFlit) : Bool :=
  x.inp == y.inp && Flit.vc x.hdr == Flit.vc y.hdr && Flit.flow x.hdr == Flit.flow y.hdr

/-- The first waiting flit of each stream: an input is first in, first out per virtual channel, and per flow on VC0
(DESIGN CHOICE, log 23). -/
def firstFlits (l : List WaitFlit) : List WaitFlit :=
  l.foldl (fun m x => if m.any (sameStream x) then m else m ++ [x]) []

def noHold : Nat → Option Nat := fun _ => none

/-- The input whose packet is under way on a virtual channel of an output (wormhole). -/
def State.holder (s : State) (r o vc : Nat) : Option Nat := SMap.get noHold s.noc.hold (inKey r o * 4 + vc)

/-- A flit may go: a new packet waits for the one under way on its virtual channel. Guaranteed flows share VC0 slot by slot,
so there each flow has its own (DEDUCED, log 23). -/
def State.mayGo (s : State) (r : Nat) (x : WaitFlit) : Bool :=
  Flit.vc x.hdr == 0 || (match s.holder r x.out (Flit.vc x.hdr) with
    | none => Flit.isHead x.hdr
    | some p => p == x.inp)

/-- PRIO raised by 1 for every 512 cycles waited at the router, up to 3. -/
def effPrio (x : WaitFlit) (c : Nat) : Nat := min 3 (Flit.prio x.hdr + (c - x.since) / 512)

/-- The order of the flits of VC1 to VC3 at an output: effective priority, VC3 before VC1 before VC2, then the first input
after the one served last. -/
def State.flitRank (s : State) (r c : Nat) (x : WaitFlit) : Nat :=
  let last := SMap.get (fun _ => 15) s.noc.served (inKey r x.out)
  let vc := Flit.vc x.hdr
  effPrio x c * 64 + (if vc = 3 then 3 else if vc = 1 then 2 else 1) * 16 + (15 - (x.inp + 15 - last) % 16)

/-- The flit of greatest rank. -/
def bestFlit (rank : WaitFlit → Nat) : List WaitFlit → Option WaitFlit
  | [] => none
  | x :: l => some (l.foldl (fun b y => if rank b < rank y then y else b) x)

/-- A flit that gave up its slot waits for its flow's next one (R254). -/
def inSlot (owner : Option Nat) (x : WaitFlit) : Bool := !x.deferred || owner == some (Flit.flow x.hdr)

/-- The flit that output o sends in cycle c, and the one that gives its slot to it: the flow that owns the slot, in the tables of
its packet's epoch, an old-epoch flit first; another VC0 flit in FLOW order; then VC1 to VC3. -/
def State.pickFlit (s : State) (r o c : Nat) : Option (WaitFlit × Option WaitFlit) :=
  let l := (firstFlits (s.waiting r)).filter fun x => x.out == o && s.mayGo r x
  let v0 := l.filter fun x => Flit.vc x.hdr == 0
  let now := s.epoch
  let owns := fun e (x : WaitFlit) => Flit.epoch x.hdr == e && s.slotOwner e r o (c % 256) == some (Flit.flow x.hdr)
  let old := if s.draining then v0.find? (owns (1 - now)) else none
  match old, v0.find? (owns now) with
  | some x, some y => some (x, if Flit.flow x.hdr = Flit.flow y.hdr then none else some y)
  | some x, none => some (x, none)
  | none, some y => some (y, none)
  | none, none =>
    match bestFlit (fun x => 4096 - Flit.flow x.hdr) (v0.filter fun x => !x.deferred) with
    | some x => some (x, none)
    | none => (bestFlit (s.flitRank r c) (l.filter fun x => Flit.vc x.hdr != 0)).map fun x => (x, none)

/-- An output sends a flit: its stream's next one follows, its packet holds the output's virtual channel until its last flit. -/
def State.sendFlit (s : State) (r c : Nat) (x : WaitFlit) : State :=
  let s := s.setWaiting r ((s.waiting r).erase x)
  let vc := Flit.vc x.hdr
  let key := inKey r x.out
  let s := if vc = 0 then s else s.setNoc { s.noc with
    hold := SMap.set noHold s.noc.hold (key * 4 + vc) (if Flit.type x.hdr ≤ 1 then some x.inp else none)
    served := SMap.set (fun _ => 15) s.noc.served key x.inp }
  (s.setNoc { s.noc with sent := SMap.set (fun _ => 0) s.noc.sent key (c + 1) }).emit (.flit r x.out x.hdr x.lanes)

/-- A flit that another's epoch takes the slot of is deferred and counted (R254). -/
def State.deferFlit (s : State) (r : Nat) (y : WaitFlit) : State :=
  (s.setWaiting r ((s.waiting r).map fun x => if x = y then { y with deferred := true } else x)).count Addr.nocEpochDeferCnt

/-- An output's part of a cycle: at most one flit. -/
def State.outputCycle (s : State) (r c o : Nat) : State :=
  if !hasPort r o || s.stands r o || SMap.get (fun _ => 0) s.noc.sent (inKey r o) == c + 1 then s
  else match s.pickFlit r o c with
    | none => s
    | some (x, none) => s.sendFlit r c x
    | some (x, some y) => (s.sendFlit r c x).deferFlit r y

/-- CLK_NOC cycles since the common edge (R241): 8 for every 3 edges of CLK_TB; `sub` picks one of the two or three that begin
within the current edge. -/
def State.nocCycle (s : State) (sub : Nat) : Nat :=
  let t := s.time.ticks - s.noc.base
  min (ceilDiv (8 * t) 3 + sub) (ceilDiv (8 * (t + 1)) 3 - 1)

/-- ORTHOGON_FLIT_HOP (R235, R236, R240 to R242, R244, R247, R248, R254): one CLK_NOC cycle of router r, `gap` CLK_TB edges on:
the flits `ins` arrive, and every output sends at most one of those that wait. -/
def execOrthogonFlitHop (r : Fin 112) (ins : List FlitIn) (gap : BitVec 8) (sub : Fin 3) (s : State) : Res :=
  let s := s.passEdges gap.toNat
  let c := s.nocCycle sub
  State.done ((s.each ins fun s f => s.receive r c f).each (List.range 15) fun s o => s.outputCycle r c o)

/-- CLK_TB edges of 26,215 CLK_NOC cycles, rounded up (R245). -/
def timeoutEdges : Nat := 9831

/-- Meridian counts to the tick. -/
def State.advanceToTick (s : State) (t : Nat) : State := s.passEdges (t - s.time.ticks)

/-! ### Epochs (R253, R254) -/

def State.nocArmed (s : State) : Bool := s.flag Addr.nocEpochCtrl Fld.nocEpochCtrlCommit

/-- A shadow write while COMMIT is set tears the set. -/
def State.tearNoc (s : State) : State :=
  if s.nocArmed then
    ((s.fset Addr.nocEpochCtrl Fld.nocEpochCtrlCommit 0).fset Addr.nocEpochCtrl Fld.nocEpochCtrlTorn 1).count Addr.nocTornCnt
  else s

/-- The whole shadow set becomes active; `old` packets of the old epoch remain. -/
def State.copyNoc (s : State) (old : Nat) : State :=
  let act := [0, 1, 2].map fun b => s.fget (Addr.nocBrgAct b) Fld.nocBrgActEn
  let s := s.setNoc { s.noc with wheelOld := s.noc.wheelAct, wheelAct := s.noc.wheelSh, brgOld := act }
  let s := s.each [0, 1, 2] fun s b => s.setReg (Addr.nocBrgAct b) (s.reg (Addr.nocBrgSh b))
  let st := Addr.nocEpochStat
  let s := (s.fset st Fld.nocEpochStatEpoch (1 - s.fget st Fld.nocEpochStatEpoch)).fset st Fld.nocEpochStatDraining 1
  (s.fset st Fld.nocEpochStatOldPkts old).fset Addr.nocEpochCtrl Fld.nocEpochCtrlCommit 0

/-- Meridian counts to the next first cycle of slot 0: 256 CLK_NOC cycles are 96 CLK_TB edges (R241). A shadow write, a commit
or a drain's end in the boundary cycle counts toward the next boundary (R253). -/
def State.toWheelBoundary (s : State) : State :=
  let n := 96 - (s.time.ticks - s.noc.base) % 96
  s.passEdges (if n = 96 ∧ s.noc.markAt ≠ s.time.ticks then 0 else n)

/-- The wheel boundary: a set that is armed is copied, or refused as invalid; COMMIT clears either way. -/
def State.wheelBoundary (s : State) (old : Nat) : State :=
  if !s.nocArmed || s.draining then s
  else if brgSetOk fun b => s.fget (Addr.nocBrgSh b) Fld.nocBrgShEn then s.copyNoc old
  else ((s.fset Addr.nocEpochCtrl Fld.nocEpochCtrlCommit 0).fset Addr.nocEpochCtrl Fld.nocEpochCtrlBadset 1).count
    Addr.nocBadsetCnt

/-- NOC_EPOCH_COPY (R253). -/
def execNocEpochCopy (old : BitVec 16) (s : State) : Res := State.done (s.toWheelBoundary.wheelBoundary old.toNat)

/-- NOC_DRAIN_END (R254): no old-epoch packet is left in Orthogon. -/
def execNocDrainEnd (s : State) : Res :=
  State.done (if s.draining && s.fget Addr.nocEpochStat Fld.nocEpochStatOldPkts == 0 then s.endDrain else s)

/-- SLOT advances by 1 after each access to NOC_WHEEL_DATA. -/
def State.nextSlotAddr (s : State) : State :=
  s.fset Addr.nocWheelAddr Fld.nocWheelAddrSlot (s.fget Addr.nocWheelAddr Fld.nocWheelAddrSlot + 1)

/-- The wheel entry that NOC_WHEEL_ADDR names. -/
def State.wheelAddr (s : State) : Nat :=
  wheelKey (s.fget Addr.nocWheelAddr Fld.nocWheelAddrRouter) (s.fget Addr.nocWheelAddr Fld.nocWheelAddrPort)
    (s.fget Addr.nocWheelAddr Fld.nocWheelAddrSlot)

/-- A write of NOC_WHEEL_DATA: refused from anyone but a Zelfa core, to the active bank, or to a port the router lacks. -/
def State.writeWheel (s : State) (who : Requester) (v : Nat) : State :=
  let r := s.fget Addr.nocWheelAddr Fld.nocWheelAddrRouter
  let ok := isZelfa who && !s.flag Addr.nocWheelAddr Fld.nocWheelAddrBank && r < 112
    && hasPort r (s.fget Addr.nocWheelAddr Fld.nocWheelAddrPort)
  if ok then
    let s := s.tearNoc
    let e : Word := BitVec.ofNat 32 (v % 2 ^ 12 + bitsOf v 15 15 * 2 ^ 15)
    let m := SMap.set (fun _ => 0) s.noc.wheelSh s.wheelAddr e
    ((s.setNoc { s.noc with wheelSh := m }).nocMark).nextSlotAddr
  else (s.count Addr.nocWrDenyCnt).nextSlotAddr

/-- NOC_WHEEL_WRITE (R253). -/
def execNocWheelWrite (who : Requester) (value : Word) (s : State) : Res := State.done (s.writeWheel who value.toNat)

/-- A write of NOC_BRG_SH. -/
def State.writeBrgSh (s : State) (who : Requester) (b v : Nat) : State :=
  if isZelfa who then (s.tearNoc.fset (Addr.nocBrgSh b) Fld.nocBrgShEn v).nocMark else s.count Addr.nocWrDenyCnt

/-- NOC_BRG_SH_WRITE (R253). -/
def execNocBrgShWrite (who : Requester) (b : Fin 3) (value : Word) (s : State) : Res :=
  State.done (s.writeBrgSh who b value.toNat)

/-- A write of NOC_EPOCH_CTRL: COMMIT is set by a 1, TORN and BADSET cleared by one. -/
def State.writeEpochCtrl (s : State) (v : Nat) : State :=
  let r := Addr.nocEpochCtrl
  let s := if bitOf v 2 then s.fset r Fld.nocEpochCtrlBadset 0 else s
  let s := if bitOf v 1 then s.fset r Fld.nocEpochCtrlTorn 0 else s
  if bitOf v 0 then (s.fset r Fld.nocEpochCtrlCommit 1).nocMark else s

/-- NOC_EPOCH_COMMIT (R253). -/
def execNocEpochCommit (_who : Requester) (value : Word) (s : State) : Res := State.done (s.writeEpochCtrl value.toNat)

/-! ### Fences (R255, R256) -/

/-- A reservation of the domain's requesters is outstanding. -/
def State.resvIn (s : State) (d : Nat) : Bool := s.noc.resv.any fun r => identDomain r.who == some d

/-- The vote's current stage asks the domain. -/
def State.voteAsks (s : State) (d : Nat) : Bool := s.pwr.vote.any fun v => (voteDomains v v.stage).contains d

/-- DOMAIN_FENCE (R255, steps 1 and 2): a domain that the vote asks closes its ingress. -/
def execDomainFence (d : Fin 30) (admitted : BitVec 16) (s : State) : Res :=
  State.done (if s.voteAsks d && !s.fenced d then s.setFence d admitted.toNat else s)

/-- FENCE_DRAINED (R255, steps 3 and 4): every packet admitted has been delivered and every reservation has completed. -/
def execFenceDrained (d : Fin 30) (s : State) : Res :=
  State.done (if s.fenced d && s.fget (Addr.nocFenceStat d) Fld.nocFenceStatAdmitted == 0 && !s.resvIn d then
    s.fset (Addr.nocFenceStat d) Fld.nocFenceStatDrained 1
  else s)

/-- FENCE_DRAIN_TIMEOUT (R256, R358): the domain, voter d of Table 15-6, refuses the power-down. -/
def execFenceDrainTimeout (d : Fin 30) (s : State) : Res :=
  State.done (if s.voteAsks d && s.fenced d && !s.drained d then s.abortVote d else s)

end Sys2Proof.Machine
end

