-- ==== Sys2Proof/Machine/Dma.lean ====
section
/-! DEFINITION. The cluster DMA engines: checks, lists, moves, write-back reads, bus-error stops and doorbells (R258 to R273). -/

namespace Sys2Proof.Machine

/-! ### Regions and checks (R258, R259) -/

def hostBase : Nat := 0x100000000000
def hostEnd : Nat := 0x200000000000

/-- First address after the region of Table 11-1 in which an address lies. -/
def dmaRegionEnd (a : Nat) : Option Nat :=
  if a < 0x6000000 then some (a / 0x80000 * 0x80000 + 0x80000)
  else if 0x10000000 ≤ a ∧ a < 0x1C000000 then some (a / 0x800000 * 0x800000 + 0x800000)
  else if 0x20000000 ≤ a ∧ a < 0x21000000 then some 0x21000000
  else if hostBase ≤ a ∧ a < hostEnd then some hostEnd
  else none

/-- The first failing address of a range that does not lie within one region. -/
def dmaRangeBad (a n : Nat) : Option Nat :=
  match dmaRegionEnd a with
  | none => some a
  | some e => if e < a + n then some e else none

/-- The identities of a channel (R208). -/
def State.dmaIds (s : State) (c ch : Nat) : List Ident := [Ident.dma c, (s.dmaCh c ch).obo]

/-- The first address of a range in a bank that would refuse. -/
def State.dmaOwnerBad (s : State) (ids : List Ident) (a n : Nat) : Option Nat :=
  if hostBase ≤ a then none
  else
    ((banksOf a n).filterMap id).findSome? fun key => if s.accepts key ids then none else some (max a (bankBase key))

/-- The check of a block: the outcome and the first failing address (R259, steps 2 and 3). -/
def State.dmaCheck (s : State) (ids : List Ident) (src dst n : Nat) : Option (Nat × Nat) :=
  match dmaRangeBad src n, dmaRangeBad dst n with
  | some a, _ => some (DmaOut.lengthError, a)
  | none, some a => some (DmaOut.lengthError, a)
  | none, none =>
    match s.dmaOwnerBad ids src n, s.dmaOwnerBad ids dst n with
    | some a, _ => some (DmaOut.ownerError, a)
    | none, some a => some (DmaOut.ownerError, a)
    | none, none => none

def State.setDmaFault (s : State) (c ch a : Nat) : State :=
  s.setReg (Addr.dmaFaultAddr c ch) (BitVec.ofNat 64 (2 ^ 63 + a % 2 ^ 48))

def State.setDmaDone (s : State) (c ch n : Nat) : State := s.fset (Addr.dmaDone c ch) Fld.dmaDoneBytes n

def State.setDmaEntry (s : State) (c ch n : Nat) : State :=
  (s.setDmaCh c ch { s.dmaCh c ch with entry := n }).fset (Addr.dmaStat c ch) Fld.dmaStatEntry n

/-- A channel ends; an outcome of DONE, ZERO_LEN or IDLE_AT_END sets its flag in the latched job, if that is still in
flight (R52, R54, R262). -/
def State.dmaFinish (s : State) (c ch outcome : Nat) : State :=
  let s := s.dmaEnd c ch outcome
  let ctrl := Addr.dmaCtrl c ch
  if outcome ≤ DmaOut.idleAtEnd && s.flag ctrl Fld.dmaCtrlEvtEn then
    match (s.dmaCh c ch).job with
    | none => s.count Addr.cmpStrayEvtCnt
    | some (h, n) =>
      if s.latched h (some (h, n)) then s.flagEvent h (s.fget ctrl Fld.dmaCtrlEvtStage) (s.fget ctrl Fld.dmaCtrlEvtFlag) Src.dma
      else s.count Addr.cmpStrayEvtCnt
  else s

/-! ### What the host answers (R337) -/

/-- What the host's memory answers a read with: bytes that are missing arrive poisoned (R337). -/
def hostSlice (host : List (Byte × Bool)) (off n : Nat) : List (Byte × Bool) :=
  (List.range n).map fun k => host.getD (off + k) (0, true)

/-! ### Moving (R265, R266) -/

/-- A read by a channel; nothing where it is refused. -/
def State.dmaRead (s : State) (ids : List Ident) (a n : Nat) (host : List (Byte × Bool)) (off : Nat) (transOk : Bool) :
    Option (List (Byte × Bool)) × State :=
  if hostBase ≤ a then
    let (ok, s) := s.hostReq false (a - hostBase) n transOk
    (if ok then some (hostSlice host off n) else none, s)
  else s.readBank ids a n

/-- A posted write by a channel: a refusal is not seen by it (R239). -/
def State.dmaWrite (s : State) (ids : List Ident) (a : Nat) (data : List (Byte × Bool)) (transOk : Bool) : State :=
  if hostBase ≤ a then
    let (ok, s) := s.hostReq true (a - hostBase) data.length transOk
    if ok then s.emit (.hostWrite (a - hostBase) data) else s
  else (s.writeBank ids a data).2

/-- The destination router of an address: Table 10-1, the CXL port for the window. -/
def dmaRouter (a : Nat) : Nat := ((bankOf a).map bankRtr).getD cxlRtr

/-- The read that fails first among a channel's write-back reads: its address and the first byte written there. A read
of a host page meets the translation that the write of the line met. -/
def State.writeBackReads (s : State) (ids : List Ident) : List DmaRtr → Option (Nat × Nat) × State
  | [] => (none, s)
  | r :: l =>
    let (d, s) := s.dmaRead ids r.last r.len [] 0 r.trans
    let (bad, s) := s.writeBackReads ids l
    match d, bad with
    | some _, b => (b, s)
    | none, some (a, first) => (some (if first < r.first then (a, first) else (r.last, r.first)), s)
    | none, none => (some (r.last, r.first), s)

/-- The record of a line written to a router. -/
def noteRouter (l : List DmaRtr) (r first last len : Nat) (trans : Bool) : List DmaRtr :=
  if l.any fun x => x.rtr == r then
    l.map fun x => if x.rtr = r then { x with last := last, len := len, trans := trans } else x
  else l ++ [⟨r, first, last, len, trans⟩]

/-- What has been confirmed is counted in DMA_DONE. -/
def State.dmaConfirm (s : State) (c ch : Nat) : State :=
  let x := s.dmaCh c ch
  (s.setDmaCh c ch { x with wrote := [], tail := [] }).setDmaDone c ch x.moved

/-- The write-back reads of a channel: what they confirm, or the read that fails (R265). -/
def State.dmaWriteBack (s : State) (c ch : Nat) : Option (Nat × Nat) × State :=
  match s.writeBackReads (s.dmaIds c ch) (s.dmaCh c ch).wrote with
  | (none, s) => (none, s.dmaConfirm c ch)
  | (some f, s) => (some f, s)

/-- One piece of a block, within one source and one destination line. -/
def pieceLen (src dst left : Nat) : Nat := min left (min (128 - src % 128) (128 - dst % 128))

/-- Move one piece; before a ninth router the eight are read back. The address of an error response is answered. -/
def State.dmaPiece (s : State) (c ch src dst n : Nat) (host : List (Byte × Bool)) (off : Nat) (transOk : Bool) :
    Option (Nat × Nat) × State :=
  let ids := s.dmaIds c ch
  let r := dmaRouter dst
  let w := (s.dmaCh c ch).wrote
  let (bad, s) := if w.length < 8 || w.any fun x => x.rtr == r then (none, s) else s.dmaWriteBack c ch
  match bad with
  | some f => (some f, s)
  | none =>
    match s.dmaRead ids src n host off transOk with
    | (none, s) => (some (src, (s.dmaCh c ch).moved), s)
    | (some d, s) =>
      let s := s.dmaWrite ids dst d transOk
      let x := s.dmaCh c ch
      (none, s.setDmaCh c ch { x with
        moved := x.moved + n, wrote := noteRouter x.wrote r x.moved dst n transOk, tail := x.tail ++ [(dst, n)] })

/-- Move n bytes in address order, piece by piece; `fuel` bounds the pieces. -/
def State.dmaMove (c ch : Nat) (host : List (Byte × Bool)) (transOk : Bool) :
    Nat → State → Nat → Nat → Nat → Nat → Option (Nat × Nat) × State
  | 0, s, _, _, _, _ => (none, s)
  | fuel + 1, s, src, dst, left, off =>
    if left = 0 then (none, s)
    else
      let n := pieceLen src dst left
      match s.dmaPiece c ch src dst n host off transOk with
      | (some f, s) => (some f, s)
      | (none, s) => State.dmaMove c ch host transOk fuel s (src + n) (dst + n) (left - n) (off + n)

/-- The bytes before the entry under way of a list, or of the whole transfer up to here (R268). -/
def State.dmaCap (s : State) (c ch moved : Nat) : Nat := if s.dmaList c ch then moved else (s.dmaCh c ch).moved

/-! ### Starting (R261) -/

/-- The job whose DSP stage the writer's core is running. -/
def State.dmaJob (s : State) (who : Requester) : Option (Nat × Nat) :=
  match who with
  | .tile t => (s.running t).bind fun p => (s.job p.1).map fun j => (p.1, j.order)
  | _ => none

/-- The identity of a writer (Table 09-2). -/
def reqIdent : Requester → Ident
  | .host => Ident.host
  | .zelfa _ | .plumb => Ident.system
  | .tile t => Ident.tile t
  | .dap => Ident.dap

/-- R259 over a block: the channel ends at the first failure, else it holds the block. -/
def State.dmaOpen (s : State) (c ch : Nat) (b : DmaBlock) : State :=
  match s.dmaCheck (s.dmaIds c ch) b.src b.dst b.len with
  | some (o, a) => (s.setDmaFault c ch a).dmaFinish c ch o
  | none => s.setDmaCh c ch { s.dmaCh c ch with block := some b }

/-- A start in single or list mode, the control fields being written. -/
def State.dmaBegin (s : State) (c ch : Nat) (obo : Ident) (job : Option (Nat × Nat)) : State :=
  let src := s.fget (Addr.dmaSrc c ch) Fld.dmaSrcAddr
  let dst := s.fget (Addr.dmaDst c ch) Fld.dmaDstAddr
  let s := s.setDmaCh c ch { DmaCh.init with obo := obo, job := job, srcPtr := src, dstPtr := dst }
  let s := ((s.setReg (Addr.dmaDone c ch) 0).setReg (Addr.dmaFaultAddr c ch) 0).setReg (Addr.dmaDoorbell c ch) 0
  let s := (s.setDmaEntry c ch 0).setDmaState c ch Dma.busy
  if s.dmaList c ch then s
  else
    let n := s.fget (Addr.dmaCnt c ch) Fld.dmaCntCount
    if n = 0 then s.dmaFinish c ch DmaOut.zeroLen else s.dmaOpen c ch ⟨src, dst, n, false, false, false⟩

/-- The fields of DMA_CTRL that keep their value. -/
def State.putDmaCtrl (s : State) (c ch v : Nat) : State :=
  s.setReg (Addr.dmaCtrl c ch) (BitVec.ofNat 64 (v &&& 0x39F3F))

/-- Who may write the channel registers (R260). -/
def dmaWriter (c : Nat) : Requester → Bool
  | .tile t => c == 24 || t.val / 8 == c
  | w => isZelfa w

/-- The channel moves. -/
def State.dmaActive (s : State) (c ch : Nat) : Bool := s.dmaState c ch == Dma.busy || s.dmaState c ch == Dma.stopping

def State.dmaDeny (s : State) (c : Nat) : State := s.count (Addr.dmaWrDenyCnt c)
def State.dmaStartDeny (s : State) (c : Nat) : State := s.count (Addr.dmaStartDenyCnt c)

/-- A START during a bus-error stop is held whole; a second one is refused (R269). -/
def State.dmaHold (s : State) (c ch : Nat) (who : Requester) (v : Nat) : State :=
  let x := s.dmaCh c ch
  if x.held.isSome then s.dmaStartDeny c
  else s.setDmaCh c ch { x with held := some ⟨reqIdent who, s.dmaJob who, v, false⟩ }

/-- A write of DMA_CTRL (R260, R261, R269). -/
def State.writeDmaCtrl (s : State) (c ch : Nat) (who : Requester) (v : Nat) : State :=
  if !dmaWriter c who then s.dmaDeny c
  else if bitOf v 31 && s.dmaStopped c then s.dmaHold c ch who v
  else if s.dmaActive c ch || (s.dmaCh c ch).held.isSome then
    if bitOf v 31 then (s.dmaDeny c).dmaStartDeny c else s.dmaDeny c
  else
    let s := s.putDmaCtrl c ch v
    if bitOf v 31 then s.dmaBegin c ch (reqIdent who) (s.dmaJob who) else s

/-- DMA_START (R261): a write of DMA_CTRL. -/
def execDmaStart (c : Fin 25) (ch : Fin 16) (who : Requester) (value : Word) (s : State) : Res :=
  State.done (s.behindFence (Addr.dmaCtrl c ch) fun s => s.writeDmaCtrl c ch who value.toNat)

/-! ### Lists (R263, R264) -/

/-- Reserved bits of an entry (Table 11-2). -/
def listReserved (e : Nat) : Bool := recF e 6 15 0 != 0 || recF e 0xB 7 3 != 0 || recF e 0xC 31 0 != 0

/-- An entry that has been fetched is checked and becomes the channel's block (R263). -/
def State.dmaEntry (s : State) (c ch e : Nat) : State :=
  let x := s.dmaCh c ch
  let a := recF e 0 47 0
  let n := recF e 8 23 0
  let side := recF e 0xB 2 2 == 1
  let fin := recF e 0xB 0 0 == 1
  let b : DmaBlock := ⟨if side then x.srcPtr else a, if side then a else x.dstPtr, n, side, recF e 0xB 1 1 == 1, fin⟩
  let s := s.setDmaCh c ch { x with
    metEnd := x.metEnd || fin, srcPtr := if side then x.srcPtr + n else x.srcPtr,
    dstPtr := if side then x.dstPtr else x.dstPtr + n }
  if n = 0 then s.setDmaCh c ch { s.dmaCh c ch with block := some b } else s.dmaOpen c ch b

/-- COUNT is copied into SEEN (R271). -/
def State.dmaSee (s : State) (c ch : Nat) : State :=
  let r := Addr.dmaDoorbell c ch
  let n := s.fget r Fld.dmaDoorbellCount
  (s.setDmaCh c ch { s.dmaCh c ch with seen := n }).fset r Fld.dmaDoorbellSeen n

/-- The fetch of the next entry: a fetch that the checks refuse is not issued (R264, R271). -/
def State.dmaFetch (s : State) (c ch : Nat) : State :=
  let x := s.dmaCh c ch
  let a := s.fget (Addr.dmaList c ch) Fld.dmaListAddr * 16 + 16 * x.entry
  if 65535 ≤ x.entry && !x.metEnd then s.dmaFinish c ch DmaOut.lengthError
  else
    match bankOf a with
    | none => (s.setDmaFault c ch a).dmaFinish c ch DmaOut.lengthError
    | some key =>
      if !s.accepts key (s.dmaIds c ch) then (s.setDmaFault c ch a).dmaFinish c ch DmaOut.ownerError
      else
        let s := s.dmaSee c ch
        match s.readBank (s.dmaIds c ch) a 16 with
        | (none, s) => s.dmaBusError c ch a (s.dmaCh c ch).moved
        | (some d, s) =>
          let e := leVal (bytesOf d)
          if anyPoison d then s.dmaFinish c ch DmaOut.listPoison
          else if listReserved e then s.dmaFinish c ch DmaOut.lengthError
          else s.dmaEntry c ch e

/-- The channel waits for its next list entry. -/
def State.dmaWantsEntry (s : State) (c ch : Nat) : Bool :=
  s.dmaState c ch == Dma.busy && s.dmaList c ch && (s.dmaCh c ch).block.isNone

/-- DMA_LIST_FETCH (R264). -/
def execDmaListFetch (c : Fin 25) (ch : Fin 16) (s : State) : Res :=
  State.done (if s.dmaWantsEntry c ch then s.dmaFetch c ch else s)

/-! ### Completion (R265, R271) -/

/-- After an entry with END: the channel goes on if COUNT has changed since the fetch, else it is IDLE_AT_END. -/
def State.dmaAtEnd (s : State) (c ch : Nat) : State :=
  if s.fget (Addr.dmaDoorbell c ch) Fld.dmaDoorbellCount = (s.dmaCh c ch).seen then s.dmaFinish c ch DmaOut.idleAtEnd else s

/-- After the write-back reads of an entry or of the whole transfer. -/
def State.dmaConfirmed (s : State) (c ch : Nat) (b : DmaBlock) : State :=
  if !s.dmaList c ch then s.dmaFinish c ch DmaOut.done
  else
    let s := if b.int then s.fset (Addr.dmaStat c ch) Fld.dmaStatIntPend 1 else s
    if b.fin then s.dmaAtEnd c ch else s

/-- The block is over: ENTRY names the next entry of a list. -/
def State.dmaNextEntry (s : State) (c ch : Nat) : State :=
  let x := s.dmaCh c ch
  let s := s.setDmaCh c ch { x with block := none }
  if s.dmaList c ch then s.setDmaEntry c ch (x.entry + 1) else s

/-- The block has been written. Its write-back reads run before ENTRY moves on, so a read that fails leaves ENTRY at the
entry whose INT or END asked for the reads; R268 does not say which entry is the faulting one when the router was first
written by an earlier entry (DESIGN CHOICE, log 24). -/
def State.dmaBlockMoved (s : State) (c ch : Nat) (b : DmaBlock) : State :=
  if s.dmaList c ch && !b.int && !b.fin then s.dmaNextEntry c ch
  else
    match s.dmaWriteBack c ch with
    | (some (a, first), s) => s.dmaBusError c ch a first
    | (none, s) => (s.dmaNextEntry c ch).dmaConfirmed c ch b

/-- Move the block; an error response stops the engine. -/
def State.dmaBlockRun (s : State) (c ch : Nat) (b : DmaBlock) (host : List (Byte × Bool)) (transOk : Bool) : State :=
  let before := (s.dmaCh c ch).moved
  match State.dmaMove c ch host transOk b.len s b.src b.dst b.len 0 with
  | (some (a, cap), s) => s.dmaBusError c ch a (min cap (s.dmaCap c ch before))
  | (none, s) => s.dmaBlockMoved c ch b

/-- A bank that engine c reaches by its local port (Table 09-1). -/
def dmaLocal (c key : Nat) : Bool := c < 24 && key / 256 == c && 64 ≤ key % 256

/-- DMA_BLOCK_COMPLETE (R265): the block that the channel holds moves and completes; one of its accesses may meet another
port's (R215). -/
def execDmaBlockComplete (c : Fin 25) (ch : Fin 16) (host : List (Byte × Bool)) (transOk : Bool)
    (other : Option PortAccess) (s : State) : Res :=
  State.done (if s.dmaState c ch = Dma.busy then
    match (s.dmaCh c ch).block with
    | none => s
    | some b => (s.withAreas (dmaLocal c) [(true, b.dst, b.len), (false, b.src, b.len)] other fun s =>
        ((), s.dmaBlockRun c ch b host transOk)).2
  else s)

/-! ### Doorbell (R270, R271) -/

/-- A channel in IDLE_AT_END whose COUNT differs from SEEN resumes, but not during a stop. -/
def State.dmaResume (s : State) (c ch : Nat) : State :=
  if s.dmaState c ch == Dma.idleAtEnd && !s.dmaStopped c
      && s.fget (Addr.dmaDoorbell c ch) Fld.dmaDoorbellCount != (s.dmaCh c ch).seen then
    (s.setDmaState c ch Dma.busy).count (Addr.dmaRestartCnt c)
  else s

/-- A write of DMA_DOORBELL. -/
def State.writeDmaDoorbell (s : State) (c ch : Nat) (who : Requester) (v : Nat) : State :=
  let r := Addr.dmaDoorbell c ch
  if !dmaWriter c who then s.dmaDeny c
  else if bitOf v 0 then (s.fset r Fld.dmaDoorbellCount (s.fget r Fld.dmaDoorbellCount + 1)).dmaResume c ch
  else s

/-- DMA_DOORBELL (R270, R271). -/
def execDmaDoorbell (c : Fin 25) (ch : Fin 16) (who : Requester) (value : Word) (s : State) : Res :=
  State.done (s.behindFence (Addr.dmaDoorbell c ch) fun s => s.writeDmaDoorbell c ch who value.toNat)

/-! ### Bus-error stops (R268, R269) -/

/-- The first `progress` bytes of a block land before the stop; `host` is what host memory answered. -/
def State.dmaPartial (s : State) (c ch : Nat) (b : DmaBlock) (progress : Nat) (host : List (Byte × Bool)) : State :=
  let n := min progress b.len
  (State.dmaMove c ch host true n s b.src b.dst n 0).2

/-- The destinations of a transfer's unconfirmed bytes from byte `good` on are undefined; `at_` is the transfer's byte with
which the list begins. -/
def State.dmaTailFrom (s : State) (good : Nat) : Nat → List (Nat × Nat) → State
  | _, [] => s
  | at_, (d, n) :: l =>
    let k := min n (good - at_)
    (s.dmaUndefined (d + k) (n - k)).dmaTailFrom good (at_ + n) l

/-- The destination bytes that R268 leaves undefined: those from DMA_DONE on that were written and not confirmed, and the
part of the block under way that was not written, or all of a list's failing entry. `before` is the byte of the transfer
at which a peer's block began. -/
def State.dmaStopUndefined (s : State) (c ch before good : Nat) : State :=
  let x := s.dmaCh c ch
  let s := s.dmaTailFrom good (x.moved - (x.tail.map (·.2)).sum) x.tail
  match x.block with
  | none => s
  | some b =>
    let k := if !s.dmaList c ch then x.moved else if x.fail.isSome then 0 else x.moved - before
    s.dmaUndefined (b.dst + k) (b.len - k)

/-- DMA_BUS_ERROR (R268): an error response at `addr` to a read of a BUSY channel, `progress` bytes into its block. -/
def State.dmaError (s : State) (c ch addr progress : Nat) : State :=
  let before := (s.dmaCh c ch).moved
  match (s.dmaCh c ch).block with
  | none => s.dmaBusError c ch addr before
  | some b => if s.dmaList c ch then s.dmaBusError c ch addr before
    else s.dmaBusError c ch addr (before + min progress b.len)

/-- DMA_BUS_ERROR (R268). -/
def execDmaBusError (c : Fin 25) (ch : Fin 16) (addr : BitVec 48) (progress : BitVec 24) (s : State) : Res :=
  State.done (if s.dmaState c ch = Dma.busy then s.dmaError c ch addr.toNat progress.toNat else s)

/-- A STOPPING channel records its end (steps 3 and 4): the failing one BUS_ERROR, another its progress. -/
def State.dmaStopChannel (s : State) (c ch progress : Nat) (host : List (Byte × Bool)) : State :=
  let x := s.dmaCh c ch
  let whole := s.dmaList c ch && x.fail.isSome
  let n := match x.fail with
    | some (_, cap) => if whole then 0 else cap - x.moved
    | none => progress
  let s := match x.block with
    | none => s
    | some b => s.dmaPartial c ch b n host
  let (bad, s) := s.writeBackReads (s.dmaIds c ch) (s.dmaCh c ch).wrote
  let moved := (s.dmaCh c ch).moved
  let good := match bad with
    | none => moved
    | some (_, first) => min moved first
  let good := match x.fail with
    | none => good
    | some (_, cap) => min good cap
  let s := (s.dmaStopUndefined c ch x.moved good).setDmaDone c ch good
  match x.fail with
  | some (a, _) => (s.setDmaFault c ch a).dmaFinish c ch DmaOut.busError
  | none => s.dmaFinish c ch DmaOut.stoppedByPeer

/-- Step 5 for one channel: a held start begins or, its job being closed, is dropped; a rung list resumes. -/
def State.dmaAfterStop (s : State) (c ch : Nat) : State :=
  let x := s.dmaCh c ch
  match x.held with
  | none => s.dmaResume c ch
  | some y =>
    let s := s.setDmaCh c ch { x with held := none }
    if y.dropped then s.dmaFinish c ch DmaOut.aborted else (s.putDmaCtrl c ch y.ctrl).dmaBegin c ch y.obo y.job

/-- The stop ends (R268, steps 2 to 5). -/
def State.dmaStopEnd (s : State) (c : Nat) (progress : List Nat) (host : List (List (Byte × Bool))) : State :=
  let s := s.each (List.range 16) fun s ch =>
    if s.dmaState c ch = Dma.stopping then s.dmaStopChannel c ch (progress.getD ch 0) (host.getD ch []) else s
  let s := s.fset (Addr.dmaEngStat c) Fld.dmaEngStatStopped 0
  s.each (List.range 16) fun s ch => s.dmaAfterStop c ch

/-- DMA_STOP_COMPLETE (R268, R269, R272): `progress` gives the bytes of each channel's block that had landed, and `host`
what host memory answered the reads of those bytes. -/
def execDmaStopComplete (c : Fin 25) (progress : List Nat) (host : List (List (Byte × Bool))) (s : State) : Res :=
  State.done (if s.dmaStopped c then s.dmaStopEnd c progress host else s)

/-! ### Other registers of a channel (R260) -/

/-- DMA_SRC, DMA_DST, DMA_CNT or DMA_LIST is written whole within `mask`. -/
def State.writeDmaReg (s : State) (c ch : Nat) (who : Requester) (a mask v : Nat) : State :=
  if !dmaWriter c who || s.dmaActive c ch || (s.dmaCh c ch).held.isSome then s.dmaDeny c
  else s.setReg a (BitVec.ofNat 64 (v &&& mask))

/-- A write of DMA_STAT clears INT_PEND by a 1. -/
def State.writeDmaStat (s : State) (c ch : Nat) (who : Requester) (v : Nat) : State :=
  if !dmaWriter c who then s.dmaDeny c
  else if bitOf v 28 then s.fset (Addr.dmaStat c ch) Fld.dmaStatIntPend 0 else s

end Sys2Proof.Machine
end

