-- ==== Sys2Proof/Machine/Engine.lean ====
section
/-! DEFINITION. How every engine runs a descriptor: the fetch, the halts, the checks and the status block (R140 to R146,
R162). -/

namespace Sys2Proof.Machine

/-- The instance's status register, if it has one: chains report in SDC_STAT. -/
def State.setEngineState (s : State) (q st : Nat) : State :=
  if classOf q = 9 then s else s.fset (instStat q) Fld.cceInstStatState st

/-- R145: the engine halts until its stage's budget is reached. -/
def State.haltEngine (s : State) (q : Nat) : State :=
  ((s.setEngineHalted q true).setEngineState q 2).count (haltCnt (classOf q))

/-- CLK_ACC cycles from selection (Table 06-6); a chain counts CLK_TB cycles. -/
def State.engineCycles (s : State) (x : EngRun) : Nat :=
  (if classOf x.q = 9 then 1 else 2) * (s.time.ticks - x.sel) % 2 ^ 32

/-- The fields that every status block holds. -/
def State.statusBase (s : State) (x : EngRun) (status : Nat) : Nat :=
  recP 0 0 (Desc.op x.d) + recP 1 0 status + recP 0x0C 0 (s.engineCycles x) + recP 0x10 0 x.h + recP 0x12 0 x.k

/-- The mean of I² + Q² of some samples relative to full scale. -/
def meanPower (l : List Word) : Rat := (l.map fun w => (cintOf w.toNat).sq).sum / l.length

/-- The samples have one level from −60 dBFS to 0 dBFS: Table 08-7's conditions, as the output shows them. -/
def steady (l : List Word) : Bool :=
  match l with
  | [] => false
  | w :: r =>
    let p := (cintOf w.toNat).sq
    r.all (fun x => (cintOf x.toNat).sq == p) && decide (1 / 10 ^ 6 ≤ p) && decide (p ≤ 1)

/-- An estimate of the mean power in 1/256 dB relative to full scale: within ±1.5 dB over 16 samples and ±0.05 dB over
1,024 in the conditions of Table 08-7, else with a free error; a level of 0 has no estimate the spec gives. -/
def powerDb (l : List Word) : Int :=
  let e := Config.powerErr l
  let b : Int := if l.length = 16 then 384 else 12
  let m := meanPower l
  let x := if m = 0 then e else logNear 2560 m + (if steady l then max (-b) (min b e) else e)
  max (-32767) (min 32767 x)

/-- A power estimate over the latest n valid samples, 0x8000 while there are fewer (R199). -/
def Chain.power (c : Chain) (n : Nat) : Nat :=
  if c.valid.length < n then 0x8000 else unsigned 16 (powerDb (c.valid.take n))

/-- Fade outputs still to come. -/
def Chain.fadeLeft (c : Chain) : Nat := match c.fade with
  | some (_, n, j) => n - j
  | none => 0

/-- What a chain's status block says of the chain (Table 08-4). -/
def Chain.status (c : Chain) : Nat :=
  recP 2 5 (if c.valid.length < 16 then 0 else 1) + recP 2 4 (if c.valid.length < 1024 then 0 else 1)
  + recP 0xA 0 c.fadeLeft + recP 0x13 0 (if c.bankB then 1 else 0) + recP 0x14 0 (c.power 16) + recP 0x16 0 (c.power 1024)
  + recP 0x18 0 (c.nextIdx % 2 ^ 48)

/-- The status block is written and the stage may complete (R146). -/
def State.writeStatus (s : State) (x : EngRun) (status block : Nat) : State :=
  let block := if classOf x.q = 9 then block + (s.chain (instOf x.q)).status else block
  let s := s.engWrite x.me (Desc.statusAddr x.d) (clean (leBytes 64 (s.statusBase x status + block)))
  let s := if classOf x.q = 9 then s else s.fset (instStat x.q) Fld.cceInstStatLastStatus status
  s.setEngineDone x.q true

/-- A failed check: only the status block is written (R144). The fields beside those every block holds are 0, TB_CRC_OK among
them: no code block was checked (DESIGN CHOICE, log 62). -/
def State.failDesc (s : State) (x : EngRun) (status : Nat) : State :=
  (s.count (if status = 1 then paramCnt (classOf x.q) else accessCnt (classOf x.q))).writeStatus x status 0

/-- The status block's address lets it be written: a bank behind a fence does not (R145, R256). -/
def State.statusOk (s : State) (x : EngRun) : Bool :=
  Desc.statusAddr x.d % 64 == 0 && s.owns [x.me] (Desc.statusAddr x.d) 64
    && !((bankOf (Desc.statusAddr x.d)).any s.bankFenced)

/-- The areas a descriptor reads and writes. -/
def EngRun.areas (x : EngRun) : List (Bool × Nat × Nat) :=
  [(true, Desc.outAddr x.d, Desc.outLen x.d), (true, Desc.statusAddr x.d, 64), (false, Desc.inAddr x.d, Desc.inLen x.d),
   (false, Desc.auxAddr x.d, Desc.auxLen x.d)]

/-- A descriptor that has been fetched. Operation `op` runs it; a descriptor for another operation of the class is left to
that one. One of its accesses may meet another port's (R215): engines reach every bank by its network port. -/
def State.startDesc (s : State) (x : EngRun) (at' op : Nat) (bad : EngRun → State → Bool) (body : EngRun → State → State)
    (other : Option PortAccess) : State :=
  if !s.statusOk x then s.haltEngine x.q
  else if (classOps (classOf x.q)).contains (Desc.op x.d) && Desc.op x.d != op then s
  else if Desc.paramOk x.d (classOf x.q) && bad x s then s.failDesc x 1
  else
    match s.descCheck x.q at' x.d with
    | 0 => (s.withAreas (fun _ => false) x.areas other fun s => ((), body x s)).2
    | e => s.failDesc x e

/-- The stage that an instance runs, with the address of its descriptor. -/
def State.engineStage (s : State) (q : Nat) : Option (Nat × Nat × Job) :=
  if s.engineDone q || s.engineHalted q then none
  else
    match s.running q with
    | none => none
    | some (h, k) => (s.job h).map fun j => (h, k, j)

/-- An instance runs its stage's descriptor by operation `op` (R140, R145). -/
def State.runDesc (s : State) (q op : Nat) (bad : EngRun → State → Bool) (body : EngRun → State → State)
    (other : Option PortAccess) : State :=
  match s.engineStage q with
  | none => s
  | some (h, k, j) =>
    let a := (j.args.getD (j.stageT k).descArg 0).toNat
    let me := instIdent (classOf q) (instOf q)
    if a % 64 ≠ 0 then s.haltEngine q
    else
      match s.readBank [me] a 64 with
      | (none, s) => s.haltEngine q
      | (some d, s) =>
        if anyPoison d then s.faultStage h k
        else s.startDesc ⟨q, h, k, j.tag.toNat, leVal (bytesOf d), (j.stage k).selEdge⟩ a op bad body other

/-- An accelerator runs its stage's descriptor. -/
def State.runEngine (s : State) (q op : Nat) (body : EngRun → State → State) (other : Option PortAccess) : State :=
  s.runDesc q op (fun _ _ => false) body other

/-! ### Output -/

/-- Write an output whose words `bad` carry the poison mark; the data of a poisoned word is left free. -/
def State.writeOut (s : State) (who : Ident) (a : Nat) (l : List Byte) (bad : Nat → Bool) : State :=
  let (s, out) := (List.range (ceilDiv l.length 8)).foldl (fun (acc : State × List (Byte × Bool)) w =>
    let piece := (l.drop (8 * w)).take 8
    if bad w then
      let (v, s) := acc.1.free 64
      (s, acc.2 ++ (leBytes piece.length v.toNat).map fun b => (b, true))
    else (acc.1, acc.2 ++ clean piece)) (s, [])
  s.engWrite who a out

/-- A flag of a status block at bit i of offset 2. -/
def stFlag (b : Bool) (i : Nat) : Nat := if b then recP 2 i 1 else 0

end Sys2Proof.Machine
end

