-- ==== Sys2Proof/Machine/Coding.lean ====
section
/-! DEFINITION. The coding engines: LDPC, turbo and polar decoding and encoding (R147 to R161). -/

namespace Sys2Proof.Machine

/-! ### Decoding (R149 to R151, R153, R154) -/

/-- Output words that hold a bit of a skipped block of n bits each. -/
def skippedWord (skipped : List Nat) (bits : Nat → Nat × Nat) (w : Nat) : Bool :=
  skipped.any fun c => let (o, n) := bits c; n != 0 && o < 64 * w + 64 && 64 * w < o + n

/-- The status fields a decode adds (Table 06-6). -/
def DecAcc.status (a : DecAcc) (d : Desc) (tbOk busy : Bool) : Nat :=
  let all := a.skipped.isEmpty && a.fail == 0
  stFlag a.clip 6 + stFlag (!a.skipped.isEmpty) 5 + stFlag busy 4 + stFlag (a.mism != 0) 3 + stFlag (a.lost != 0) 2
  + stFlag all 1 + stFlag tbOk 0 + recP 4 0 a.done + recP 6 0 a.fail + recP 8 0 (min 0xFFFF a.iterSum)
  + recP 0xA 0 a.iterMax + recP 0x20 0 (a.okMask % 2 ^ Desc.blocks d)

/-- Counts of a decode or an encode (Table 06-10). -/
def State.countDec (s : State) (a : DecAcc) (tbFail busy : Bool) : State :=
  let by' := fun (s : State) r n => if n = 0 then s else s.countBy r n
  let s := by' (by' (by' s Addr.cceCbFailCnt a.fail) Addr.cceEtCnt a.early) Addr.ccePoisonInCnt a.skipped.length
  let s := by' (by' s Addr.cceSbLostCnt a.lost) Addr.cceSbMismatchCnt a.mism
  ((s.countIf tbFail Addr.cceTbFailCnt).countIf a.clip Addr.cceLlrClipCnt).countIf busy Addr.cceSbBusyCnt

/-- An LDPC or turbo decode (R149, R154). -/
def State.runDecode (x : EngRun) (s : State) : State :=
  let d := x.d
  let (a, s) := (List.range (Desc.blocks d)).foldl (State.decodeBlock x) (DecAcc.init, s)
  let s := if a.sb = some true then s.sbTear x else s
  let busy := a.sb == some false
  let crcOk := !Desc.tbCrcEn d || (a.skipped.isEmpty && Desc.tbCheck d a.bits)
  let n := Desc.cbInfo d
  let s := s.writeOut x.me (Desc.outAddr d) (packBits (a.bits.take (Desc.tbBits d))) (skippedWord a.skipped fun c => (c * n, n))
  (s.countDec a (!crcOk) busy).writeStatus x 0 (a.status d (crcOk && a.skipped.isEmpty) busy)

/-- Calendar indices of the coding instances. -/
def execLdpcDecode (e : Fin 48) (other : Option PortAccess) (s : State) : Res :=
  State.done (s.runEngine (calIndex 3 e) 0x01 State.runDecode other)

/-- TURBO_DECODE (R154). -/
def execTurboDecode (e : Fin 16) (other : Option PortAccess) (s : State) : Res :=
  State.done (s.runEngine (calIndex 6 e) 0x05 State.runDecode other)

/-- A polar decode (R153): one block whose check is its CRC. -/
def State.runPolarDecode (x : EngRun) (s : State) : State :=
  let d := x.d
  let (l, s) := s.engRead x.me (Desc.inAddr d) (Desc.pE d)
  let bad := anyPoison l
  let (bits, ok) := Desc.polarDecoded d (Desc.polarSoft d ((bytesOf l).map llrOf))
  let a := if bad then { DecAcc.init with skipped := [0] }
    else { DecAcc.init with clip := clipped l, okMask := if ok then 1 else 0, done := 1, fail := if ok then 0 else 1 }
  let s := s.writeOut x.me (Desc.outAddr d) (packBits bits) fun _ => bad
  (s.countDec a false false).writeStatus x 0 (a.status 0 (!bad) false + recP 0x20 0 a.okMask)

/-- POLAR_DECODE (R153). -/
def execPolarDecode (e : Fin 24) (other : Option PortAccess) (s : State) : Res :=
  State.done (s.runEngine (calIndex 5 e) 0x03 State.runPolarDecode other)

/-! ### Encoding (R152, R153) -/

/-- The code blocks whose bits [o, o + n) meet a poisoned byte of the input. -/
def poisonedBlocks (l : List (Byte × Bool)) (blocks n : Nat) : List Nat :=
  (List.range blocks).filter fun c => n != 0 && (List.range ((c * n + n - 1) / 8 + 1 - c * n / 8)).any fun i =>
    (l.getD (c * n / 8 + i) (0, false)).2

/-- The status of an encode: CB_OK is all ones for the blocks processed. -/
def encodeAcc (blocks : Nat) (skipped : List Nat) : DecAcc :=
  { DecAcc.init with
    skipped := skipped, done := blocks - skipped.length,
    okMask := ((List.range blocks).filter fun c => !skipped.contains c).foldl (fun m c => m + 2 ^ c) 0 }

/-- An LDPC encode (R152). The bits of a poisoned block go into the transport-block CRC as they are stored. -/
def State.runEncode (x : EngRun) (s : State) : State :=
  let d := x.d
  let c := Desc.blocks d
  let (l, s) := s.engRead x.me (Desc.inAddr d) (Desc.inLen d)
  let tb := Desc.withTbCrc d (unpackBits (bytesOf l) (Desc.tbBits d))
  let a := encodeAcc c (poisonedBlocks l c (Desc.cbInfo d))
  let bits := ((List.range c).map (Desc.encoded d tb)).flatten
  let s := s.writeOut x.me (Desc.outAddr d) (packBits bits) (skippedWord a.skipped fun b => (Desc.eOff d b, Desc.eOf d b))
  (s.countDec a false false).writeStatus x 0 (a.status d a.skipped.isEmpty false)

/-- LDPC_ENCODE (R152). -/
def execLdpcEncode (e : Fin 16) (other : Option PortAccess) (s : State) : Res :=
  State.done (s.runEngine (calIndex 4 e) 0x02 State.runEncode other)

/-- A polar encode (R153). -/
def State.runPolarEncode (x : EngRun) (s : State) : State :=
  let d := x.d
  let (l, s) := s.engRead x.me (Desc.inAddr d) (Desc.inLen d)
  let bits := Desc.polarEncoded d (unpackBits (bytesOf l) (Desc.pInfo d - Desc.pCrcLen d))
  let a := encodeAcc 1 (if anyPoison l then [0] else [])
  let s := s.writeOut x.me (Desc.outAddr d) (packBits bits) fun _ => anyPoison l
  (s.countDec a false false).writeStatus x 0 (a.status 0 (!anyPoison l) false + recP 0x20 0 a.okMask)

/-- POLAR_ENCODE (R153). -/
def execPolarEncode (e : Fin 24) (other : Option PortAccess) (s : State) : Res :=
  State.done (s.runEngine (calIndex 5 e) 0x04 State.runPolarEncode other)

end Sys2Proof.Machine
end

