-- ==== Sys2Proof/Machine/Receive.lean ====
section
/-! DEFINITION. The receive engines: FFT and uplink gain (R163 to R168), MATRIX (R169 to R175), PRACH detection (R181, R182)
and poison in them (R184). Every formula is stated over exact rationals; `Config.slip` is what the engines' intermediate
precision, which the spec does not give, adds to a value (log 7). -/

namespace Sys2Proof.Machine

/-- Some byte of [o, o + n) of what was read is poisoned. -/
def poisonIn (l : List (Byte × Bool)) (o n : Nat) : Bool := anyPoison ((l.drop o).take n)

/-- A descriptor's errors, by kind and place. -/
abbrev Slip := Nat → Nat → Rat

def slipped (e : Slip) (kind n : Nat) (a : Cx) : Cx := ⟨a.re + e kind (2 * n), a.im + e kind (2 * n + 1)⟩

/-! ### FFT (R164 to R167) -/

def Desc.fCfoInc (d : Desc) : Int := signed 32 (recF d 0x34 31 0)
def Desc.fPhase0 (d : Desc) : Nat := recF d 0x38 31 0

/-- NCP_j: NCP0 for the descriptor's first symbol. -/
def Desc.fCp (d : Desc) (j : Nat) : Nat := if j = 0 then Desc.fNcp0 d else Desc.fNcp d

/-- Input samples of a symbol: with cyclic prefix for FFT_UL, subcarriers otherwise. -/
def Desc.fSymIn (d : Desc) (j : Nat) : Nat := if Desc.op d = 0x10 then Desc.fCp d j + Desc.fN d else Desc.fNsc d

def Desc.fSymOut (d : Desc) (j : Nat) : Nat := if Desc.op d = 0x11 then Desc.fCp d j + Desc.fN d else Desc.fNsc d

/-- Samples before symbol j of stream r in a stream-major array of the given symbol lengths. -/
def streamOff (count : Nat) (len : Nat → Nat) (r j : Nat) : Nat :=
  r * ((List.range count).map len).sum + ((List.range j).map len).sum

def Desc.fOffIn (d : Desc) (r j : Nat) : Nat := streamOff (Desc.count d) (Desc.fSymIn d) r j

/-- Sample m of symbol j of stream r after step 1, counted per stream from the descriptor's first sample. -/
def Desc.fSample (d : Desc) (x : List Cx) (r j m : Nat) : Cx :=
  let n : Nat := Desc.fOffIn d 0 j + m
  (x.getD (Desc.fOffIn d r j + m) Cx.zero).mul (cis (-((Desc.fPhase0 d + n * Desc.fCfoInc d : Int) : Rat) / 2 ^ 32))

/-- The transforms' divisor. -/
def Desc.fDiv (d : Desc) : Rat := 2 ^ (Nat.log2 (Desc.fN d) / 2)

/-- Bin k of a symbol: steps 2 to 5. -/
def Desc.ulBin (d : Desc) (x : List Cx) (r j k : Nat) : Cx :=
  let n := Desc.fN d
  let back : Int := Desc.fWoff d - Desc.fCp d j
  let t := fun (m : Nat) =>
    let v := Desc.fSample d x r j (Desc.fWoff d + m)
    if Desc.fHalf d then v.mul (cis (-((back + m : Int) : Rat) / (2 * n))) else v
  let s := Cx.sum ((List.range n).map fun m => (t m).mul (cis (-((k * m : Nat) : Rat) / n)))
  (s.scale (1 / Desc.fDiv d)).mul (cis (-((k * back : Int) : Rat) / n))

/-- The bin of subcarrier i; with DCSKIP bin 0 stays empty. -/
def Desc.binOf (d : Desc) (i : Nat) : Nat :=
  let h := Desc.fNsc d / 2
  (i + Desc.fN d - h + (if Desc.fDcSkip d && decide (h ≤ i) then 1 else 0)) % Desc.fN d

/-- Sample m of the inverse transform of symbol j, before its prefix. -/
def Desc.dlSample (d : Desc) (x : List Cx) (r j m : Nat) : Cx :=
  let n := Desc.fN d
  let off := Desc.fOffIn d r j
  let s := Cx.sum ((List.range (Desc.fNsc d)).map fun i =>
    (x.getD (off + i) Cx.zero).mul (cis (((Desc.binOf d i * m : Nat) : Rat) / n)))
  let s := s.scale (1 / Desc.fDiv d)
  if Desc.fHalf d then s.mul (cis ((m : Rat) / (2 * n))) else s

/-- The values of a symbol before gain: subcarriers for FFT_UL and SCALE, a prefix that copies the last samples and the
samples for FFT_DL. -/
def Desc.fSymbol (d : Desc) (e : Slip) (x : List Cx) (r j : Nat) : List Cx :=
  let place := fun (m : Nat) => (r * Desc.count d + j) * 8192 + m
  match Desc.op d with
  | 0x10 => (List.range (Desc.fNsc d)).map fun i => slipped e 0 (place i) (Desc.ulBin d x r j (Desc.binOf d i))
  | 0x11 =>
    let l := (List.range (Desc.fN d)).map fun m => slipped e 0 (place m) (Desc.dlSample d x r j m)
    l.drop (Desc.fN d - Desc.fCp d j) ++ l
  | _ => (List.range (Desc.fNsc d)).map fun i => x.getD (Desc.fOffIn d r j + i) Cx.zero

/-- The sum of CPEST over the cyclic-prefix samples of every symbol and stream. -/
def Desc.cpSum (d : Desc) (x : List Cx) : Cx :=
  Cx.sum ((List.range (Desc.fStreams d)).map fun r => Cx.sum ((List.range (Desc.count d)).map fun j =>
    Cx.sum ((List.range (Desc.fCp d j)).map fun m =>
      (Desc.fSample d x r j m).conj.mul (Desc.fSample d x r j (m + Desc.fN d)))))

/-- The state of the gain decision: the states stored so far, and what was counted. -/
structure AgcAcc where
  steps : List Int
  log : List (Byte × Bool)
  changes : Nat
  low : Nat
  deriving DecidableEq, Repr

/-- The gain step of a symbol (R166): the step before, T and P in 0.1 dB. -/
def agcStep (s : Int) (t p : Int) : Int :=
  if p < -900 then s
  else
    let g := t - p
    if 2 * (g - 15 * s).natAbs ≤ 35 then s else max (-16) (min 16 (-((15 - 2 * g) / 30)))

/-- P of a stream-symbol in 0.1 dB: the mean of I² + Q² relative to full scale, to 0.1 dB on either side. -/
def agcPower (e : Slip) (place : Nat) (l : List Cx) : Int :=
  let m := (l.map Cx.sq).sum / l.length
  if m ≤ 0 then -10000 else logFloor 100 m + (if 0 < e 1 place then 1 else 0)

/-- One stream-symbol, symbol-major. -/
def AgcAcc.next (d : Desc) (input : List (Byte × Bool)) (power : Nat → Nat → Int) (a : AgcAcc) (i : Nat) : AgcAcc :=
  let n := Desc.fStreams d
  let r := i % n
  let j := i / n
  let bad := poisonIn input (4 * Desc.fOffIn d r j) (4 * Desc.fSymIn d j)
  let p := power r j
  let old := a.steps.getD r 0
  let new := if bad then old else agcStep old (5 * Desc.fAgcTgt d) p
  { steps := a.steps.set r new, log := a.log ++ [(BitVec.ofInt 8 new, bad)],
    changes := a.changes + (if new = old then 0 else 1), low := a.low + (if !bad && p < -900 then 1 else 0) }

/-- The gain states at the start; a byte outside ±16 counts as 0 and is bad (R167). -/
def agcStates (l : List (Byte × Bool)) : List Int × Nat :=
  let ok := fun (b : Byte) => -16 ≤ b.toInt && b.toInt ≤ 16
  (l.map fun b => if ok b.1 then b.1.toInt else 0, (l.filter fun b => !ok b.1).length)

/-- 10^(1.5 s / 20) to 16 bits after the point, of a step s from 0 to 16. -/
def gainBase (s : Nat) : Nat :=
  [65536, 77890, 92572, 110022, 130762, 155410, 184706, 219523, 260904, 310084, 368536, 438006, 520571, 618700, 735326,
   873937, 1038676].getD s 65536

/-- The factor g is 10^(1.5 s / 20) with an error of at most 0.01 dB. -/
def gainOk (s : Nat) (g : Rat) : Bool := 10 ^ (150 * s) ≤ 10 * g ^ 2000 && g ^ 2000 ≤ 10 ^ (150 * s + 1)

/-- The factor of a gain step (R166, step 4). -/
def gainFactor (s : Int) : Rat :=
  let b : Rat := gainBase s.natAbs / 65536
  let g := b * (1 + Config.gainErr s)
  let g := if 0 < g && gainOk s.natAbs g then g else b
  if s < 0 then 1 / g else g

/-- Output words of poisoned stream-symbols (R184). -/
def Desc.fBadWord (d : Desc) (input : List (Byte × Bool)) (w : Nat) : Bool :=
  (List.range (Desc.fStreams d)).any fun r => (List.range (Desc.count d)).any fun j =>
    let o := 4 * streamOff (Desc.count d) (Desc.fSymOut d) r j
    o < 8 * w + 8 && 8 * w < o + 4 * Desc.fSymOut d j
      && poisonIn input (4 * Desc.fOffIn d r j) (4 * Desc.fSymIn d j)

/-- Counts of a gain run. -/
def State.countAgc (s : State) (a : AgcAcc) (bad : Nat) : State :=
  let by' := fun (s : State) r n => if n = 0 then s else s.countBy r n
  by' (by' (by' s Addr.fftAgcStepCnt a.changes) Addr.fftAgcLowCnt a.low) Addr.fftAgcBadCnt bad

/-- The gain decisions, the log and the states written back (R166, R167). -/
def State.runAgc (s : State) (x : EngRun) (input : List (Byte × Bool)) (power : Nat → Nat → Int) : AgcAcc × Nat × State :=
  let d := x.d
  if !Desc.fAgc d then ({ steps := [], log := [], changes := 0, low := 0 }, 0, s)
  else
    let n := Desc.fStreams d
    let (st, s) := s.engRead x.me (Desc.auxAddr d) n
    let (steps, bad) := agcStates st
    let a := (List.range (Desc.count d * n)).foldl (AgcAcc.next d input power)
      { steps := steps, log := [], changes := 0, low := 0 }
    let s := s.engWrite x.me (Desc.auxAddr d + 64) a.log
    let s := s.engWrite x.me (Desc.auxAddr d) (clean (a.steps.map fun v => BitVec.ofInt 8 v))
    (a, bad, s.countAgc a bad)

/-- The output values of stream r of symbol j, with the gain of the log's step. -/
def Desc.fOutput (d : Desc) (e : Slip) (x : List Cx) (log : List (Byte × Bool)) (r j : Nat) : List Cx :=
  let l := Desc.fSymbol d e x r j
  if Desc.fAgc d then
    let g := gainFactor (log.getD (j * Desc.fStreams d + r) (0, false)).1.toInt
    l.map (Cx.scale g)
  else l

/-- The stream-symbols, stream-major. -/
def Desc.fAll (d : Desc) : List (Nat × Nat) :=
  (List.range (Desc.fStreams d)).flatMap fun r => (List.range (Desc.count d)).map fun j => (r, j)

/-- FFT_UL, FFT_DL or SCALE. -/
def State.runFft (x : EngRun) (s : State) : State :=
  let d := x.d
  let (input, s) := s.engRead x.me (Desc.inAddr d) (Desc.inLen d)
  let e : Slip := Config.slip d (bytesOf input) []
  let v := cintsOf (bytesOf input)
  let (a, bad, s) := s.runAgc x input fun r j => agcPower e (r * Desc.count d + j) (Desc.fSymbol d e v r j)
  let out := (Desc.fAll d).flatMap fun p => (Desc.fOutput d e v a.log p.1 p.2).flatMap cintBytes
  let s := s.writeOut x.me (Desc.outAddr d) out (Desc.fBadWord d input)
  let good := (Desc.fAll d).filter fun p => !poisonIn input (4 * Desc.fOffIn d p.1 p.2) (4 * Desc.fSymIn d p.2)
  let sat := (good.map fun p => ((Desc.fOutput d e v a.log p.1 p.2).map cintSat).sum).sum
  let pz := anyPoison input
  let s := (s.countIf (sat != 0) Addr.fftSatCnt).countIf pz Addr.fftPoisonInCnt
  let c := Desc.cpSum d v
  let cfo := if Desc.fCpest d then recP 2 5 1 + recP 8 0 (unsigned 16 (int16Of (2 ^ 15 * (Config.angle c.re c.im + e 2 0)))) else 0
  s.writeStatus x 0 (stFlag (bad != 0) 7 + stFlag (a.low != 0) 3 + stFlag (sat != 0) 2 + stFlag pz 0
    + recP 4 0 (Desc.count d) + cfo + recP 0x20 0 (min 0xFFFFFFFF sat))

/-- FFT_UL (R164). -/
def execFftUl (e : Fin 16) (other : Option PortAccess) (s : State) : Res :=
  State.done (s.runEngine (calIndex 7 e) 0x10 State.runFft other)
/-- FFT_DL (R164). -/
def execFftDl (e : Fin 16) (other : Option PortAccess) (s : State) : Res :=
  State.done (s.runEngine (calIndex 7 e) 0x11 State.runFft other)
/-- SCALE (R166). -/
def execScale (e : Fin 16) (other : Option PortAccess) (s : State) : Res :=
  State.done (s.runEngine (calIndex 7 e) 0x12 State.runFft other)

/-! ### MATRIX (R169 to R175) -/

def pow2 (e : Int) : Rat := (2 : Rat) ^ e

/-- A matrix block at offset o of what was read: its elements and SIGMA2 as they stand for (R172). -/
def blockAt (l : List Byte) (rows cols o : Nat) : Mat × Rat :=
  let b := l.drop o
  let e := signed 8 ((b.getD 2 0).toNat)
  (Mat.scale (pow2 e) (Mat.ofCols (cintsOf ((b.drop 16).take (4 * (rows * cols)))) rows cols 0),
   (leVal ((b.drop 4).take 4) : Rat) * pow2 (2 * e - 30))

/-- What an item writes: matrix blocks in column-major order, with SIGMA2 where the operation gives one, SINR lines (none:
+60 dB), and plain elements. -/
inductive MtxVal where
  | block (rows cols : Nat) (v : List Cx) (sigma2 : Option Rat)
  | sinr (v : List (Option Rat))
  | elems (v : List Cx)
  deriving DecidableEq, Repr

/-- The largest part of some values as int16 mantissas of an exponent. -/
def topPart (v : List Cx) (e : Int) : Nat :=
  (v.map fun c => max (rne (c.re * pow2 (15 - e))).natAbs (rne (c.im * pow2 (15 - e))).natAbs).foldl max 0

/-- EXP of a block (R172): the largest part lies between 16,384 and 32,767, or 0 for an all-zero block. -/
def blockExp (v : List Cx) : Int :=
  if v.all (· == Cx.zero) then 0
  else
    match ((List.range 256).map fun (i : Nat) => (i : Int) - 128).find? fun e => between 16384 (topPart v e) 32767 with
    | some e => e
    | none => if 32767 < topPart v 127 then 127 else -128

/-- SINR in 1/256 dB, clamped to −40 dB to +60 dB. -/
def sinrField : Option Rat → Int
  | none => 15360
  | some x => if x ≤ 0 then -10240 else max (-10240) (min 15360 (logNear 2560 x))

/-- Values with the errors of their place, o bytes into the output. -/
def slipAll (e : Slip) (o : Nat) (v : List Cx) : List Cx := v.mapIdx fun i c => slipped e 3 (o + i) c

/-- The bytes of a value that starts o bytes into the output, and how many of its parts are saturated. -/
def MtxVal.bytes (e : Slip) (free : Nat → Byte) (o : Nat) : MtxVal → List Byte × Nat
  | .block r c v sig =>
    let v := slipAll e o v
    let k := blockExp v
    let v := v.map (Cx.scale (pow2 (-k)))
    let sigma := match sig with
      | some x => leBytes 4 (min 0xFFFFFFFF (rne (x * pow2 (30 - 2 * k) + e 4 o)).toNat)
      | none => (List.range 4).map fun i => free (o + 4 + i)
    let l := [BitVec.ofNat 8 r, BitVec.ofNat 8 c, BitVec.ofInt 8 k, 0] ++ sigma ++ List.replicate 8 0 ++ v.flatMap cintBytes
    (l ++ List.replicate (blockBytes r c - l.length) 0, (v.map cintSat).sum)
  | .sinr v =>
    let l := (v.mapIdx fun i x => leBytes 2 (unsigned 16 (sinrField (x.map (· + e 5 (o + i)))))).flatten
    (l ++ (List.range (64 - l.length)).map fun i => free (o + l.length + i), 0)
  | .elems v =>
    let v := slipAll e o v
    (v.flatMap cintBytes, (v.map cintSat).sum)

/-- The bytes of an item's values from offset o, and how many parts are saturated. -/
def itemBytes (e : Slip) (free : Nat → Byte) : Nat → List MtxVal → List Byte × Nat
  | _, [] => ([], 0)
  | o, p :: l =>
    let (b, n) := p.bytes e free o
    let (b', n') := itemBytes e free (o + b.length) l
    (b ++ b', n + n')

/-- Items written: groups of CEF, items of COUNT, or one per resource element. -/
def Desc.mItems (d : Desc) : Nat :=
  match Desc.op d with
  | 0x20 => Desc.groups d
  | 0x24 | 0x26 => Desc.count d * Desc.mNre d
  | _ => Desc.count d

/-- Bytes that one item writes (Table 07-8). -/
def Desc.mItemSize (d : Desc) : Nat :=
  let a := Desc.mA d
  let l := Desc.mL d
  match Desc.op d with
  | 0x20 => blockBytes a l
  | 0x21 => Desc.weightBytes d
  | 0x22 => blockBytes a a
  | 0x23 => blockBytes a l + blockBytes l l
  | 0x25 => Desc.sicBytes d
  | 0x24 => 4 * (if Desc.mDl d then a else l)
  | _ => 4 * l

/-- Bytes of a block in AUX that one group of an APPLY or SIC uses. -/
def Desc.auxGroup (d : Desc) : Nat :=
  if Desc.op d = 0x26 then Desc.sicBytes d
  else if Desc.mDl d then blockBytes (Desc.mA d) (Desc.mL d) + 64 else Desc.weightBytes d

/-! #### CEF (R169) -/

/-- The estimate at position i of DMRS symbol s: A × L elements. -/
def Desc.cefEst (d : Desc) (x : List Cx) (s i : Nat) : List Cx :=
  let n := Desc.mA d * Desc.mL d
  (x.drop ((s * Desc.mNre d + i) * n)).take n

/-- Σ conj(a) × b. -/
def corr (a b : List Cx) : Cx := Cx.sum (List.zipWith (fun u v => u.conj.mul v) a b)

/-- The phase from one position to the next, in turns: −τ × SP × SCS (step 1). -/
def Desc.cefTurns (d : Desc) (x : List Cx) : Rat :=
  let c := Cx.sum ((List.range (Desc.count d)).flatMap fun s => (List.range (Desc.mNre d - 1)).map fun i =>
    corr (Desc.cefEst d x s i) (Desc.cefEst d x s (i + 1)))
  Config.angle c.re c.im

/-- τ in 0.5 ns. -/
def Desc.cefTau (d : Desc) (x : List Cx) : Rat :=
  -Desc.cefTurns d x * 2000000 / ((Desc.mSp d * Desc.mScs d : Nat) : Rat)

/-- The filtered estimate at position i of symbol s, its slope restored (steps 2 to 4). -/
def Desc.cefFilter (d : Desc) (x c : List Cx) (s i : Nat) : List Cx :=
  let turn := Desc.cefTurns d x
  let h := (Desc.mTaps d - 1) / 2
  let at' := fun (t : Nat) => min (i + t - h) (Desc.mNre d - 1)
  let terms := (List.range (Desc.mTaps d)).map fun t =>
    (Desc.cefEst d x s (at' t)).map fun v => (v.mul (cis (-(at' t : Rat) * turn))).mul (c.getD t Cx.zero)
  (terms.foldl (List.zipWith Cx.add) (List.replicate (Desc.mA d * Desc.mL d) Cx.zero)).map fun v => v.mul (cis ((i : Rat) * turn))

/-- The estimate at position i, averaged over two symbols (step 5). -/
def Desc.cefHat (d : Desc) (x c : List Cx) (i : Nat) : List Cx :=
  let f := Desc.cefFilter d x c
  if Desc.count d = 2 then (List.zipWith Cx.add (f 0 i) (f 1 i)).map (Cx.scale (1 / 2)) else f 0 i

/-- CFO_EST of two symbols, in 2^−15 of the subcarrier spacing. -/
def Desc.cefCfo (d : Desc) (x c : List Cx) : Rat :=
  let z := Cx.sum ((List.range (Desc.mNre d)).map fun i => corr (Desc.cefFilter d x c 0 i) (Desc.cefFilter d x c 1 i))
  2 ^ 15 * Config.angle z.re z.im
    / ((Desc.mDsep d : Rat) * (1 + ((Desc.mCplen d * Desc.mScs d : Nat) : Rat) / 2000000))

/-- The block of group g (step 6). SIGMA2's mean takes the estimates of every symbol (DEDUCED, log 63). -/
def Desc.cefBlock (d : Desc) (x c : List Cx) (g : Nat) : MtxVal :=
  let per := max 1 (Desc.mGrp d / max 1 (Desc.mSp d))
  let n := min per (Desc.mNre d - g * per)
  let dist := fun (s i : Nat) => ((List.zipWith Cx.sub (Desc.cefEst d x s i) (Desc.cefHat d x c i)).map Cx.sq).sum
  let total := ((List.range (Desc.count d)).flatMap fun s => (List.range n).map fun i => dist s (g * per + i)).sum
  let mean := total / ((Desc.count d * n * (Desc.mA d * Desc.mL d) : Nat) : Rat)
  .block (Desc.mA d) (Desc.mL d) (Desc.cefHat d x c (g * per + n / 2))
    (some (mean / (1 - (c.getD ((Desc.mTaps d - 1) / 2) Cx.zero).re)))

/-! #### Weights and factorisations (R173, R174) -/

/-- SINR_l from μ_l. -/
def sinrOf (mu : Rat) : Option Rat := if 1 ≤ mu then none else some (mu / (1 - mu))

/-- W with row l divided by μ_l = [WH]_ll, and the SINR line. -/
def detector (h w : Mat) : Mat × List (Option Rat) :=
  let m := w.mul h
  (Mat.of w.rows w.cols fun r c => (w.at r c).div (m.at r r), (List.range w.rows).map fun l => sinrOf (m.at l l).re)

/-- MMSE: (HᴴH + σ²I)⁻¹Hᴴ, and whether a pivot was replaced. -/
def mmse (h : Mat) (s2 : Rat) (slip : Nat → Rat) : Mat × Bool :=
  let f := ((h.herm.mul h).addDiag s2).factors slip
  (f.solve h.herm, f.replaced)

/-- IRC, from the residual vectors r: L_R never appears alone, since H̃ᴴH̃ = HᴴR⁻¹H and H̃ᴴL_R⁻¹ = HᴴR⁻¹. -/
def irc (h r : Mat) (slip : Nat → Rat) : Mat × Bool :=
  let cov := Mat.scale (1 / (r.cols : Rat)) (r.mul r.herm)
  let f := (cov.addDiag (cov.trace / 2 ^ 20 / (h.rows : Rat))).factors slip
  let hr := (f.solve h).herm
  let g := ((hr.mul h).addDiag 1).factors fun k => slip (64 + k)
  (g.solve hr, f.replaced || g.replaced)

/-- SICW: (HᴴH V + σ²I)⁻¹Hᴴ. -/
def sicw (h : Mat) (s2 : Rat) (v : List Rat) (slip : Nat → Rat) : Mat × Bool :=
  let g := h.herm.mul h
  let f := ((Mat.of g.rows g.cols fun r c => (g.at r c).scale (v.getD c 0)).addDiag s2).factors slip
  (f.solve h.herm, f.replaced)

/-- CHOL: the lower factor with each column scaled by the root of its pivot. -/
def cholesky (a : Mat) (slip : Nat → Rat) : Mat × Bool :=
  let f := a.factors slip
  (Mat.of a.rows a.rows fun r c => (f.lower.at r c).scale (Config.sqrt (f.upper.at c c).re), f.replaced)

/-- QR by its orthogonal columns: of each the column, its squared length and its coefficients on the earlier ones. The
factors with a non-negative diagonal are those of Householder reflections (R173). -/
def orthoCols : List (List Cx × Rat × List Cx) → List (List Cx) → List (List Cx × Rat × List Cx)
  | done, [] => done
  | done, a :: l =>
    let k := done.map fun b => (corr b.1 a).scale (1 / b.2.1)
    let b := (List.zip done k).foldl (fun x p => List.zipWith (fun u v => Cx.sub u (v.mul p.2)) x p.1.1) a
    orthoCols (done ++ [(b, (b.map Cx.sq).sum, k)]) l

def qrFactors (a : Mat) : Mat × Mat :=
  let c := orthoCols [] ((List.range a.cols).map fun j => (List.range a.rows).map fun i => a.at i j)
  let root := fun j => Config.sqrt (c.getD j ([], 0, [])).2.1
  (Mat.of a.rows a.cols fun i j => ((c.getD j ([], 0, [])).1.getD i Cx.zero).scale (1 / root j),
   Mat.of a.cols a.cols fun i j =>
    if i = j then ⟨root j, 0⟩ else if i < j then ((c.getD j ([], 0, [])).2.2.getD i Cx.zero).scale (root i) else Cx.zero)

def MtxVal.ofMat (m : Mat) : MtxVal := .block m.rows m.cols (m.elems m.rows m.cols) none

/-! #### APPLY and SIC -/

/-- The rotation of symbol j: exp(−j2π × PHSTEP × (SYM0 + j − SREF) / 65,536). -/
def Desc.mRot (d : Desc) (j : Nat) : Cx :=
  cis (-((signed 16 (Desc.mPhstep d) * ((Desc.mSym0 d + j : Nat) - (Desc.mSref d : Int)) : Int) : Rat) / 65536)

/-- n elements from element o as a column. -/
def column (x : List Cx) (o n : Nat) : Mat := (List.range n).map fun i => [x.getD (o + i) Cx.zero]

/-- RE i of symbol j. -/
def Desc.applyRe (d : Desc) (x : List Cx) (aux : List Byte) (j i : Nat) : List Cx :=
  let a := Desc.mA d
  let l := Desc.mL d
  let re := j * Desc.mNre d + i
  let o := i / max 1 (Desc.mGrp d) * Desc.auxGroup d
  let y := (column x (re * a) a).map (·.map (Cx.mul (Desc.mRot d j)))
  let out :=
    if Desc.op d = 0x26 then
      let soft := column x (roundUp64 (4 * (Desc.count d * Desc.mNre d * a)) / 4 + re * l) l
      List.zipWith (List.zipWith Cx.sub) ((blockAt aux l a o).1.mul y) ((blockAt aux l l (o + Desc.weightBytes d)).1.mul soft)
    else if Desc.mDl d then (blockAt aux a l o).1.mul (column x (re * l) l)
    else (blockAt aux l a o).1.mul y
  out.map (·.headD Cx.zero)

/-! #### The descriptor -/

/-- What item g writes, and whether it replaced a pivot. -/
def Desc.mItem (d : Desc) (e : Slip) (input aux : List Byte) (g : Nat) : List MtxVal × Bool :=
  let a := Desc.mA d
  let l := Desc.mL d
  let slip := fun k => e 6 (128 * g + k)
  let x := cintsOf input
  let (h, s2) := blockAt input a l (g * blockBytes a l)
  match Desc.op d with
  | 0x20 => ([Desc.cefBlock d x (cintsOf aux) g], false)
  | 0x21 =>
    let (w, b) := if Desc.mIrc d then irc h (blockAt aux a (Desc.mNres d) (g * blockBytes a (Desc.mNres d))).1 slip
      else mmse h s2 slip
    let (w, sinr) := detector h w
    ([.ofMat w, .sinr sinr], b)
  | 0x22 =>
    let (m, b) := cholesky (blockAt input a a (g * blockBytes a a)).1 slip
    ([.ofMat m], b)
  | 0x23 =>
    let (q, r) := qrFactors h
    ([.ofMat q, .ofMat r], false)
  | 0x25 =>
    let v := (List.range l).map fun i => (signed 16 (leVal ((aux.drop (64 * g + 2 * i)).take 2)) : Rat) / 32768
    let (w, b) := sicw h s2 v slip
    let (w, sinr) := detector h w
    let c := w.mul h
    ([.ofMat w, .sinr sinr, .ofMat (Mat.of l l fun i j => if i = j then Cx.zero else c.at i j)], b)
  | _ => ([.elems (Desc.applyRe d x aux (g / max 1 (Desc.mNre d)) (g % max 1 (Desc.mNre d)))], false)

/-- The input of item g carries poison (R184). -/
def Desc.mBad (d : Desc) (input aux : List (Byte × Bool)) (g : Nat) : Bool :=
  let n := Desc.count d
  let a := Desc.mA d
  let re := fun k => poisonIn input (4 * (g * k)) (4 * k)
  let grp := poisonIn aux (g % max 1 (Desc.mNre d) / max 1 (Desc.mGrp d) * Desc.auxGroup d) (Desc.auxGroup d)
  match Desc.op d with
  | 0x20 => anyPoison input || anyPoison aux
  | 0x24 => re (if Desc.mDl d then Desc.mL d else a) || grp
  | 0x26 => re a || poisonIn input (roundUp64 (4 * n * Desc.mNre d * a) + 4 * (g * Desc.mL d)) (4 * Desc.mL d) || grp
  | _ =>
    poisonIn input (g * (Desc.inLen d / max 1 n)) (Desc.inLen d / max 1 n)
      || poisonIn aux (g * (Desc.auxLen d / max 1 n)) (Desc.auxLen d / max 1 n)

/-- Counts and flags of a MATRIX descriptor (Tables 07-2 and 07-12): parts saturated, a pivot replaced, poison met. -/
def State.mtxStatus (s : State) (x : EngRun) (e : Slip) (input aux : List Byte) (sat : Nat) (sing pz : Bool) : State :=
  let d := x.d
  let v := cintsOf input
  let cef := Desc.op d == 0x20
  let tau := Desc.cefTau d v
  let late := cef && (Desc.mCplen d : Rat) < 4 * max tau (-tau)
  let s := ((s.countIf (sat != 0) Addr.mtxSatCnt).countIf pz Addr.mtxPoisonInCnt).countIf sing Addr.mtxSingularCnt
  let s := s.countIf late Addr.mtxToffRangeCnt
  let est := if cef then recP 0xA 0 (unsigned 16 (int16Of tau)) else 0
  let cfo := if cef && Desc.count d == 2 && !pz then
      recP 2 5 1 + recP 8 0 (unsigned 16 (int16Of (Desc.cefCfo d v (cintsOf aux) + e 2 0))) else 0
  s.writeStatus x 0 (stFlag late 6 + stFlag (sat != 0) 2 + stFlag sing 1 + stFlag pz 0 + recP 4 0 (Desc.count d) + est + cfo
    + recP 0x20 0 (min 0xFFFFFFFF sat))

/-- A MATRIX operation: its output item by item, poisoned items marked. -/
def State.runMatrix (x : EngRun) (s : State) : State :=
  let d := x.d
  let (input, s) := s.engRead x.me (Desc.inAddr d) (Desc.inLen d)
  let (aux, s) := s.engRead x.me (Desc.auxAddr d) (Desc.auxLen d)
  let i := bytesOf input
  let u := bytesOf aux
  let e : Slip := Config.slip d i u
  let n := Desc.mItemSize d
  let items := (List.range (Desc.mItems d)).map fun g =>
    let (v, b) := Desc.mItem d e i u g
    (itemBytes e (Config.mtxFree d i u) (g * n) v, b, Desc.mBad d input aux g)
  let good := items.filter fun p => !p.2.2
  let bad := (List.range (Desc.mItems d)).filter (Desc.mBad d input aux)
  let s := s.writeOut x.me (Desc.outAddr d) (items.flatMap fun p => p.1.1)
    fun w => bad.any fun g => g * n < 8 * w + 8 && 8 * w < g * n + n
  s.mtxStatus x e i u (good.map fun p => p.1.2).sum (good.any fun p => p.2.1) (anyPoison input || anyPoison aux)

/-- CEF (R169). -/
def execCef (e : Fin 16) (other : Option PortAccess) (s : State) : Res :=
  State.done (s.runEngine (calIndex 2 e) 0x20 State.runMatrix other)
/-- WEIGHTS (R173). -/
def execWeights (e : Fin 16) (other : Option PortAccess) (s : State) : Res :=
  State.done (s.runEngine (calIndex 2 e) 0x21 State.runMatrix other)
/-- CHOL (R173). -/
def execChol (e : Fin 16) (other : Option PortAccess) (s : State) : Res :=
  State.done (s.runEngine (calIndex 2 e) 0x22 State.runMatrix other)
/-- QR (R173). -/
def execQr (e : Fin 16) (other : Option PortAccess) (s : State) : Res :=
  State.done (s.runEngine (calIndex 2 e) 0x23 State.runMatrix other)
/-- APPLY (R173). -/
def execApply (e : Fin 16) (other : Option PortAccess) (s : State) : Res :=
  State.done (s.runEngine (calIndex 2 e) 0x24 State.runMatrix other)
/-- SICW (R173). -/
def execSicw (e : Fin 16) (other : Option PortAccess) (s : State) : Res :=
  State.done (s.runEngine (calIndex 2 e) 0x25 State.runMatrix other)
/-- SIC (R173). -/
def execSic (e : Fin 16) (other : Option PortAccess) (s : State) : Res :=
  State.done (s.runEngine (calIndex 2 e) 0x26 State.runMatrix other)

/-! ### PRACH detection (R182) -/

/-- Element n of the Zadoff–Chu sequence of root u: exp(−jπ u n (n + 1) / L) (TS 38.211 clause 6.3.3.1). -/
def zadoffChu (l u n : Nat) : Cx := cis (-((u * n * (n + 1) : Nat) : Rat) / (2 * l))

/-- The sequence that step 1 multiplies by: the Zadoff–Chu sequence, or the transform of it that clause 6.3.3.1 maps to
subcarriers (log 63). -/
def praSequence (l u n : Nat) : Cx :=
  if Config.zcTime then zadoffChu l u n
  else Cx.sum ((List.range l).map fun m => (zadoffChu l u m).mul (cis (-((m * n : Nat) : Rat) / l)))

/-- Position n of the inverse DFT of size N_I of one sequence of the input: product, zero-padding, transform. -/
def Desc.praPoint (d : Desc) (x : List Cx) (u k n : Nat) : Cx :=
  let l := Desc.rLra d
  let ni := praNi l
  (Cx.sum ((List.range l).map fun m =>
    ((x.getD (k * l + m) Cx.zero).mul (praSequence l u m).conj).mul (cis (((m * n : Nat) : Rat) / ni)))).scale (1 / (ni : Rat))

/-- The power delay profile of root q, from position 0: |z|² summed over antennas and repetitions (R182). -/
def praProfile (d : Desc) (e : Slip) (input aux : List Byte) (q : Nat) : List Rat :=
  let x := cintsOf input
  let u := leVal ((aux.drop (2 * q)).take 2)
  (List.range (praNi (Desc.rLra d))).map fun n =>
    max 0 (((List.range (Desc.rRep d * Desc.rA d)).map fun k => (Desc.praPoint d x u k n).sq).sum + e 7 (4096 * q + n))

/-- N0′ as a sum and a count of positions (R182, step 3). -/
def praNoise (pdp : List Rat) : Rat × Nat :=
  let low := pdp.filter fun p => p * pdp.length ≤ 4 * pdp.sum
  if low.isEmpty then (pdp.sum, pdp.length) else (low.sum, low.length)

/-- The zone of preamble v: its PDP in order of d. -/
def praZone (d : Desc) (pdp : List Rat) (v : Nat) : List Rat :=
  let ni := praNi (Desc.rLra d)
  let c := (2 * v * Desc.rNcs d * ni + Desc.rLra d) / (2 * Desc.rLra d)
  (List.range (Desc.rZl d)).map fun k => pdp.getD ((k + ni - c % ni) % ni) 0

/-- The largest sum of w consecutive values. -/
def maxWindow (w : Nat) (l : List Rat) : Rat :=
  ((List.range (l.length + 1 - w)).map fun k => ((l.drop k).take w).sum).foldl max 0

/-- The first index of the largest value. -/
def argMax (l : List Rat) : Nat := l.findIdx fun v => v == l.foldl max 0

/-- num / den ≥ 10^(t / 100), with t in 0.1 dB; a value equal to the threshold passes. -/
def praPass (num den : Rat) (t : Nat) : Bool := den ^ 100 * 10 ^ t ≤ num ^ 100

/-- 10 log10 of a ratio in 1/256 dB, clamped to 0 to 0xFFFF (Table 07-11). -/
def praDb (num den : Rat) : Nat := if num ≤ den then 0 else if den ≤ 0 then 0xFFFF else min 0xFFFF (logNear 2560 (num / den)).toNat

/-- The record of a preamble that passes both tests (Table 07-11). -/
def praRecord (d : Desc) (zone : List Rat) (noise : Rat × Nat) (te tq pre q : Nat) : List (List Byte) :=
  let e := maxWindow (Desc.rWlen d) zone
  let peak := zone.foldl max 0
  if praPass (e * noise.2) (Desc.rWlen d * noise.1) te && praPass (peak * zone.length) zone.sum tq then
    [leBytes 8 (recP 0 0 pre + recP 1 0 q + recP 2 0 (argMax zone)
      + recP 4 0 (praDb (peak * noise.2) noise.1)
      + recP 6 0 (praDb (e * noise.2) (Desc.rWlen d * noise.1)))]
  else []

/-- The records of every preamble searched, in ascending index order. -/
def praRecords (d : Desc) (pdp : List (List Rat)) (te tq : Nat) : List (List Byte) :=
  let noise := praNoise pdp.flatten
  ((List.range (min (Desc.count d * Desc.rP d) (64 - Desc.rPbase d))).map fun m =>
    let q := m / Desc.rP d
    praRecord d (praZone d (pdp.getD q []) (m % Desc.rP d)) noise te tq (Desc.rPbase d + m) q).flatten

/-- The noise floor in 1/256 dB relative to full scale, the least value where there is none. -/
def noiseDb (noise : Rat × Nat) : Nat :=
  unsigned 16 (if noise.1 ≤ 0 then -32768 else max (-32768) (min 32767 (logNear 2560 (noise.1 / noise.2))))

/-- PRACH detection (R182, R184). -/
def State.runPra (x : EngRun) (s : State) : State :=
  let d := x.d
  let (input, s) := s.engRead x.me (Desc.inAddr d) (Desc.inLen d)
  let (aux, s) := s.engRead x.me (Desc.auxAddr d) (Desc.auxLen d)
  let pz := anyPoison input || anyPoison aux
  let e : Slip := Config.slip d (bytesOf input) (bytesOf aux)
  let thr := Addr.praThr (Desc.carrier d)
  let pdp := (List.range (Desc.count d)).map fun q => praProfile d e (bytesOf input) (bytesOf aux) q
  let recs := if pz then [] else praRecords d pdp (s.fget thr Fld.praThrTe) (s.fget thr Fld.praThrTq)
  let s := s.engWrite x.me (Desc.outAddr d) (clean recs.flatten)
  let s := if recs.isEmpty then s else s.countBy Addr.praDetCnt recs.length
  let noise := praNoise pdp.flatten
  (s.countIf pz Addr.praPoisonInCnt).writeStatus x 0 (stFlag pz 0 + recP 4 0 (Desc.count d) + recP 6 0 recs.length
    + recP 0x24 0 (noiseDb noise))

/-- PRA_DETECT (R182). -/
def execPraDetect (e : Fin 32) (other : Option PortAccess) (s : State) : Res :=
  State.done (s.runEngine (calIndex 8 e) 0x30 State.runPra other)

end Sys2Proof.Machine
end

