-- ==== Sys2Proof/Machine/Sdc.lean ====
section
/-! DEFINITION. The sample-domain chains: RUN sample by sample, coefficient banks and fades, commits at slot boundaries,
estimators and poison (R185 to R204). -/

namespace Sys2Proof.Machine

/-- The image's entry of a chain. -/
def State.chainT (s : State) (n : Nat) : ChainT :=
  SMap.get (fun _ => { bound := false, tx := false, ctx := 0, stream := 0, fLine := 0 }) s.img.chains n

/-- The active settings of a chain. -/
structure SdcSet where
  hb : Nat
  rsEn : Bool
  nco : Nat
  inc : Nat
  deriving DecidableEq, Repr

def State.sdcSet (s : State) (n : Nat) : SdcSet :=
  let r := Addr.sdcActCfg n
  ⟨s.fget r Fld.sdcShCfgHb, s.flag r Fld.sdcShCfgRsEn, (s.reg (Addr.sdcActNco n)).toNat, (s.reg (Addr.sdcActRs n)).toNat⟩

/-! ### Fill (R197, Table 08-5) -/

def rxFill (k : Nat) : Nat := [0, 15, 23, 27, 29, 30, 30].getD k 30

/-- D_fill. -/
def dFill (tx : Bool) (x : SdcSet) : Nat :=
  if tx then
    let dr := if x.rsEn then ceilDiv (23 * 2 ^ 28) x.inc else 0
    2 ^ x.hb * dr + 30 * (2 ^ x.hb - 1)
  else if x.rsEn then ceilDiv ((rxFill x.hb + 23) * 2 ^ 28) x.inc
  else rxFill x.hb

/-- A synchronising reset (R196). -/
def Chain.sync (c : Chain) (tx : Bool) (x : SdcSet) : Chain :=
  { c with needSync := false, count := 0, outs := 0, pos := 0, lines := List.replicate x.hb [], hist := [],
           fillLeft := dFill tx x, valid := [] }

/-! ### Boundaries (R200) -/

/-- The slot in which a line sample lies, by the context's own time: index s is s line periods after its epoch (R186). -/
def lineSlot (c : CtxT) (f s : Nat) : Nat := slotAt { c with toff := 0 } (s * 1000000000 / f)

/-! ### A descriptor under way -/

/-- What a RUN gathers; `out` latest first. -/
structure SdcAcc where
  c : Chain
  out : List (Word × Bool)
  n : Nat
  invalid : Nat
  sat : Nat
  swapped : Bool
  reset : Bool
  poison : Bool
  /-- the last line index handled -/
  last : Nat
  /-- the free number of the run's arithmetic -/
  run : Nat
  deriving DecidableEq, Repr

/-! ### Swaps (R191, R192) -/

/-- A swap completes: the target is the active bank and the estimators restart. -/
def SdcAcc.swap (a : SdcAcc) (target : Bool) : SdcAcc :=
  { a with c := { a.c with bankB := target, fade := none, valid := [] }, swapped := true }

/-- A waiting request starts at a resampler output when no fade runs; one whose target is active completes at once. -/
def State.startSwap (s : State) (a : SdcAcc) : SdcAcc × State :=
  match a.c.fade, a.c.queued with
  | none, some (t, n) =>
    let a := { a with c := { a.c with queued := none } }
    if t = a.c.bankB then ({ a with swapped := true }, s.count Addr.sdcSwapCnt)
    else ({ a with c := { a.c with fade := some (t, n, 0) } }, s)
  | _, _ => (a, s)

/-- The fade has had its last output (R191). -/
def State.endFade (s : State) (a : SdcAcc) : SdcAcc × State :=
  match a.c.fade with
  | some (t, n, j) => if n ≤ j then (a.swap t, s.count Addr.sdcSwapCnt) else (a, s)
  | none => (a, s)

/-- A request is issued by a commit: at once without a resampler and a fade, else it waits; one that waits already is
replaced. With RS_EN = 0 and a fade that has not ended, R192's queue is taken to hold the request (DEDUCED, log 64). -/
def State.issueSwap (s : State) (a : SdcAcc) (rsEn : Bool) (t : Bool) (len : Nat) : SdcAcc × State :=
  if !rsEn && a.c.fade.isNone then ({ a with c := { a.c with bankB := t }, swapped := true }, s.count Addr.sdcSwapCnt)
  else ({ a with c := { a.c with queued := some (t, len) } }, s.countIf a.c.queued.isSome Addr.sdcSwapReplacedCnt)

/-! ### Commits (R200, R201) -/

/-- The shadow set is one that may be applied. -/
def State.sdcShadowOk (s : State) (n : Nat) : Bool :=
  let r := Addr.sdcShCfg n
  let inc := (s.reg (Addr.sdcShRs n)).toNat
  s.fget r Fld.sdcShCfgHb ≤ 6 && (!s.flag r Fld.sdcShCfgRsEn || between (2 ^ 26) inc (2 ^ 30))
    && (!s.flag r Fld.sdcShCfgSwapReq || between 64 (s.fget r Fld.sdcShCfgFadeLen) 4096)

/-- The shadow set becomes active. -/
def State.sdcApply (s : State) (n : Nat) : State :=
  let s := (s.setReg (Addr.sdcActCfg n) (s.reg (Addr.sdcShCfg n))).fset (Addr.sdcActCfg n) Fld.sdcShCfgSwapReq 0
  (s.setReg (Addr.sdcActNco n) (s.reg (Addr.sdcShNco n))).setReg (Addr.sdcActRs n) (s.reg (Addr.sdcShRs n))

/-- The active set as its registers hold it. -/
def State.sdcRegs (s : State) (n : Nat) : DWord × DWord × DWord :=
  (s.reg (Addr.sdcActCfg n), s.reg (Addr.sdcActNco n), s.reg (Addr.sdcActRs n))

def State.clearSdcCommit (s : State) (n : Nat) : State := s.fset (Addr.sdcCommit n) Fld.sdcCommitCommit 0

/-- The copy at a boundary sample. -/
def State.sdcCommitAt (s : State) (n : Nat) (tx : Bool) (a : SdcAcc) : SdcAcc × State :=
  if !s.flag (Addr.sdcCommit n) Fld.sdcCommitCommit then (a, s)
  else
    let s := s.clearSdcCommit n
    if !s.sdcShadowOk n then (a, (s.fset (Addr.sdcCommit n) Fld.sdcCommitBadset 1).count Addr.sdcBadsetCnt)
    else
      let old := s.sdcSet n
      let was := s.sdcRegs n
      let r := Addr.sdcShCfg n
      let s := s.sdcApply n
      let new := s.sdcSet n
      let sync := old.hb != new.hb || old.rsEn != new.rsEn || s.flag r Fld.sdcShCfgSyncRst
      let a := if sync then { a with c := a.c.sync tx new, reset := true }
        else if was = s.sdcRegs n then a else { a with c := { a.c with valid := [] } }
      if s.flag r Fld.sdcShCfgSwapReq then
        s.issueSwap a new.rsEn (s.flag r Fld.sdcShCfgSwapTgt) (s.fget r Fld.sdcShCfgFadeLen)
      else (a, s)

/-- A boundary lies after the last line sample handled, at or before this one. -/
def State.sdcBoundary (s : State) (n : Nat) (a : SdcAcc) (idx : Nat) : Bool :=
  let t := s.chainT n
  lineSlot (s.ctx t.ctx) t.fLine a.last != lineSlot (s.ctx t.ctx) t.fLine idx

/-- A line sample is handled: a commit first, if it is a boundary's. -/
def State.sdcAtLine (s : State) (n : Nat) (tx : Bool) (a : SdcAcc) (idx : Nat) : SdcAcc × State :=
  let (a, s) := if s.sdcBoundary n a idx then s.sdcCommitAt n tx a else (a, s)
  ({ a with last := idx }, s)

/-! ### The resampler (R188, R190) -/

def noCoef : Nat → BitVec 18 := fun _ => 0
def coefKey (n : Nat) (b : Bool) (e : Nat) : Nat := (2 * n + (if b then 1 else 0)) * 12288 + e

/-- The entry of tap t of phase p, if it has one: phase 512 is phase 0 shifted one input sample, and tap t weighs the input
t samples before the latest (DEDUCED, log 64). -/
def coefEntry (p t : Nat) : Option Nat := if p < 512 then some (24 * p + t) else if t < 23 then some (t + 1) else none

/-- Entries of the two phases around a fractional position. -/
def coefEntries (frac : Nat) : List Nat :=
  let p := frac / 2 ^ 19
  (List.range 24).filterMap (coefEntry p) ++ (List.range 24).filterMap (coefEntry (p + 1))

/-- A coefficient with its 16 fractional bits (R190). -/
def State.coefAt (s : State) (n : Nat) (b : Bool) (p t : Nat) : Rat :=
  match coefEntry p t with
  | some e => ((SMap.get noCoef s.coef (coefKey n b e)).toInt : Rat) / 65536
  | none => 0

def State.coefBad (s : State) (n : Nat) (b : Bool) (frac : Nat) : Bool :=
  (coefEntries frac).any fun e => SMap.get noFlag s.coefPoison (coefKey n b e)

def sampleAt (l : List Sample) (t : Nat) : Cx := (l.getD t ⟨Cx.zero, false⟩).v

/-- The 24-tap filter of a bank at a fractional position: the coefficients of phase p, interpolated toward phase p + 1 by
bits [18:9] of the position (R188). -/
def State.polyphase (s : State) (n : Nat) (b : Bool) (frac : Nat) (l : List Sample) : Cx :=
  let p := frac / 2 ^ 19
  let w : Rat := ((frac / 2 ^ 9 % 2 ^ 10 : Nat) : Rat) / 2 ^ 10
  Cx.sum ((List.range 24).map fun t =>
    (sampleAt l t).scale ((1 - w) * s.coefAt n b p t + w * s.coefAt n b (p + 1) t))

/-- The resampler's output at the chain's position, and its place in a fade (R188, R191). -/
def State.resample (s : State) (n : Nat) (a : SdcAcc) : Sample × SdcAcc × State :=
  let (a, s) := s.startSwap a
  let frac := a.c.pos % 2 ^ 28
  let l := a.c.hist.take 24
  let x := s.polyphase n a.c.bankB frac l
  let bad := l.any (·.bad) || s.coefBad n a.c.bankB frac
  let a := { a with c := { a.c with pos := a.c.pos + (s.sdcSet n).inc } }
  match a.c.fade with
  | none => (⟨x, bad⟩, a, s)
  | some (t, len, j) =>
    let y := s.polyphase n t frac l
    let k : Rat := ((j + 1 : Nat) : Rat) / ((len : Nat) : Rat)
    (⟨(x.scale (1 - k)).add (y.scale k), bad || s.coefBad n t frac⟩, { a with c := { a.c with fade := some (t, len, j + 1) } }, s)

/-! ### The half-bands (R187) -/

/-- A delay line with a sample put in. -/
def pushLine (n : Nat) (l : List Sample) (x : Sample) : List Sample := (x :: l).take n

/-- An output of a half-band decimator from the latest 31 samples. -/
def hbDecim (l : List Sample) : Sample :=
  ⟨Cx.sum ((List.range 31).map fun t => (sampleAt l t).scale (Config.hbTap t)), (l.take 31).any (·.bad)⟩

/-- Output q of a half-band interpolator, of parity i, from the latest 16 samples: the 31 taps over the input with zeros
between (DEDUCED, log 64). -/
def hbInterp (l : List Sample) (i : Nat) : Sample :=
  ⟨Cx.sum ((List.range 16).map fun t => (sampleAt l t).scale (if 2 * t + i < 31 then 2 * Config.hbTap (2 * t + i) else 0)),
   (l.take 16).any (·.bad)⟩

/-- Sample number k, counted from the last reset, through the decimators: an output for every 2^HB-th. -/
def decimate : List (List Sample) → Nat → Sample → List (List Sample) × Option Sample
  | [], _, x => ([], some x)
  | l :: rest, k, x =>
    let l := pushLine 31 l x
    if k % 2 ≠ 0 then (l :: rest, none)
    else
      let (rest, o) := decimate rest (k / 2) (hbDecim l)
      (l :: rest, o)

/-- Samples through one interpolator with its delay line: two outputs each. -/
def hbStage (l : List Sample) (xs : List Sample) : List Sample × List Sample :=
  xs.foldl (fun a x =>
    let l := pushLine 16 a.1 x
    (l, a.2 ++ [hbInterp l 0, hbInterp l 1])) (l, [])

/-- Samples through the interpolators: 2^HB outputs each, in order. -/
def interpolate : List (List Sample) → List Sample → List (List Sample) × List Sample
  | [], xs => ([], xs)
  | l :: rest, xs =>
    let (l, ys) := hbStage l xs
    let (rest, zs) := interpolate rest ys
    (l :: rest, zs)

/-- The frequency shifter at line index idx: RX takes the minus sign, TX the plus sign (R186). -/
def shiftBy (tx : Bool) (inc idx : Nat) (x : Cx) : Cx :=
  let phase : Rat := ((idx * inc % 2 ^ 32 : Nat) : Rat) / 2 ^ 32
  x.mul (cis (if tx then phase else -phase))

/-! ### Outputs (R189, R197, R199) -/

/-- One output sample: zero and invalid while the chain fills, with the poison of its span (R203). -/
def SdcAcc.emit (a : SdcAcc) (x : Sample) : SdcAcc :=
  if a.c.fillLeft ≠ 0 then
    { a with c := { a.c with fillLeft := a.c.fillLeft - 1 }, out := (0, x.bad) :: a.out, n := a.n + 1, invalid := a.invalid + 1 }
  else
    let e := Config.sdcSlip a.run a.n
    let v : Cx := ⟨x.v.re + e.1, x.v.im + e.2⟩
    let w : Word := BitVec.ofNat 32 (leVal (cintBytes v))
    { a with
      c := if x.bad then a.c else { a.c with valid := (w :: a.c.valid).take 1024 }
      out := (w, x.bad) :: a.out, n := a.n + 1, sat := a.sat + (if x.bad then 0 else cintSat v) }

/-! ### RX: line samples in, carrier samples out -/

/-- Resampler outputs that the input just taken, number m, makes available; at most 8 at the ratios of R188. -/
def State.rxOutputs (n m : Nat) : Nat → SdcAcc → State → SdcAcc × State
  | 0, a, s => (a, s)
  | fuel + 1, a, s =>
    if m < a.c.pos / 2 ^ 28 then (a, s)
    else
      let (x, a, s) := s.resample n a
      let (a, s) := s.endFade (a.emit x)
      State.rxOutputs n m fuel a s

/-- One line sample of an RX chain. -/
def State.rxSample (n : Nat) (acc : SdcAcc × State) (x : Word × Bool) : SdcAcc × State :=
  let idx : Nat := acc.1.c.nextIdx
  let (a, s) := acc.2.sdcAtLine n false acc.1 idx
  let set := s.sdcSet n
  let k := a.c.count
  let (lines, o) := decimate a.c.lines k ⟨shiftBy false set.nco idx (cintOf x.1.toNat), x.2⟩
  let a := { a with c := { a.c with nextIdx := idx + 1, count := k + 1, lines := lines }, poison := a.poison || x.2 }
  match o with
  | none => (a, s)
  | some y =>
    if set.rsEn then State.rxOutputs n (k / 2 ^ set.hb) 8 { a with c := { a.c with hist := pushLine 24 a.c.hist y } } s
    else (a.emit y, s)

/-! ### TX: carrier samples in, line samples out -/

/-- The line samples of one resampler output; a synchronising reset drops the rest. -/
def State.txLines (n : Nat) : List Sample → SdcAcc → State → SdcAcc × State
  | [], a, s => (a, s)
  | x :: l, a, s =>
    let idx := a.c.nextIdx
    let (a', s) := s.sdcAtLine n true a idx
    if a'.c.count = 0 ∧ a.c.count ≠ 0 then (a', s)
    else
      let y := shiftBy true (s.sdcSet n).nco idx x.v
      State.txLines n l ({ a' with c := { a'.c with nextIdx := idx + 1, outs := a'.c.outs + 1 } }.emit ⟨y, x.bad⟩) s

/-- A sample through the interpolators and the shifter. -/
def State.txPush (n : Nat) (a : SdcAcc) (s : State) (x : Sample) : SdcAcc × State :=
  let (lines, l) := interpolate a.c.lines [x]
  State.txLines n l { a with c := { a.c with lines := lines } } s

/-- Resampler outputs that the input just taken makes available, each giving its line samples. -/
def State.txOutputs (n : Nat) : Nat → SdcAcc → State → SdcAcc × State
  | 0, a, s => (a, s)
  | fuel + 1, a, s =>
    if a.c.count ≤ a.c.pos / 2 ^ 28 then (a, s)
    else
      let (x, a, s) := s.resample n a
      let (a, s) := State.txPush n a s x
      let (a, s) := s.endFade a
      State.txOutputs n fuel a s

/-- One carrier sample of a TX chain. -/
def State.txSample (n : Nat) (acc : SdcAcc × State) (x : Word × Bool) : SdcAcc × State :=
  let a := acc.1
  let s := acc.2
  let e : Sample := ⟨cintOf x.1.toNat, x.2⟩
  let a := { a with c := { a.c with count := a.c.count + 1, hist := pushLine 24 a.c.hist e }, poison := a.poison || x.2 }
  if (s.sdcSet n).rsEn then State.txOutputs n 8 a s else State.txPush n a s e

/-! ### RUN (R194) -/

/-- The line index at which the descriptor starts. -/
def Desc.lineIdx (d : Desc) (c : Chain) : Nat := if Desc.auxAddr d = 2 ^ 64 - 1 then c.nextIdx else Desc.auxAddr d

/-- A LINE_IDX below the next expected index fails PARAM. -/
def sdcLate (x : EngRun) (s : State) : Bool :=
  Desc.op x.d == 0x40 && Desc.lineIdx x.d (s.chain (instOf x.q)) < (s.chain (instOf x.q)).nextIdx

/-- The samples of a byte string, little-endian words. -/
def samplesOf : List (Byte × Bool) → List (Word × Bool)
  | a :: b :: c :: d :: l =>
    (BitVec.ofNat 32 (leVal [a.1, b.1, c.1, d.1]), a.2 || b.2 || c.2 || d.2) :: samplesOf l
  | _ => []

/-- The chain at the start of a RUN: a gap or a needed reset takes effect at the first sample. -/
def State.sdcStart (s : State) (n : Nat) (d : Desc) (tx : Bool) (run : Nat) : SdcAcc × Bool :=
  let c := s.chain n
  let idx := Desc.lineIdx d c
  let gap := c.nextIdx < idx
  let sync := gap || c.needSync
  let c' := if sync then c.sync tx (s.sdcSet n) else c
  ({ c := { c' with nextIdx := idx }, out := [], n := 0, invalid := 0, sat := 0, swapped := false, reset := sync, poison := false,
     last := c.nextIdx - 1, run := run }, gap)

/-- A RUN descriptor. -/
def State.runSdc (x : EngRun) (s : State) : State :=
  let d := x.d
  let n := instOf x.q
  let tx := (s.chainT n).tx
  let (input, s) := s.engRead x.me (Desc.inAddr d) (Desc.inLen d)
  let (a, gap) := s.sdcStart n d tx s.freeCtr
  let s := { s with freeCtr := s.freeCtr + 1 }
  let (a, s) := (samplesOf input).foldl (if tx then State.txSample n else State.rxSample n) (a, s)
  let keep := (a.out.reverse).take (Desc.sOutMax d)
  let clip := decide (Desc.sOutMax d < a.n)
  let s := s.engWrite x.me (Desc.outAddr d) ((keep.map fun v => (leBytes 4 v.1.toNat).map fun b => (b, v.2)).flatten)
  let s := s.setChain n a.c
  let s := ((s.countIf gap Addr.sdcGapCnt).countIf clip Addr.sdcOutClipCnt).countIf (a.sat != 0) Addr.sdcSatCnt
  let s := s.countIf a.poison Addr.sdcPoisonInCnt
  s.writeStatus x 0 (stFlag (a.sat != 0) 7 + stFlag a.swapped 6 + stFlag clip 3 + stFlag gap 2 + stFlag a.reset 1
    + stFlag a.poison 0 + recP 4 0 a.n + recP 8 0 (a.invalid % 65536) + recP 0x20 0 (min 0xFFFFFFFF a.sat))

/-- SDC_RUN (R194). -/
def execSdcRun (n : Fin 128) (other : Option PortAccess) (s : State) : Res :=
  State.done (s.runDesc (calIndex 9 n) 0x40 sdcLate State.runSdc other)

/-! ### COEF_LOAD (R190, R203) -/

/-- The bank may be written. -/
def Chain.coefBusy (c : Chain) (target : Bool) : Bool := target == c.bankB || c.fade.isSome || c.queued.isSome

def State.setCoef (s : State) (key : Nat) (v : Word × Bool) : State :=
  { s with coef := SMap.set noCoef s.coef key (v.1.setWidth 18), coefPoison := SMap.set noFlag s.coefPoison key v.2 }

/-- A COEF_LOAD descriptor: BUSY after the other checks; a word with high bits set fails PARAM. -/
def State.runCoef (x : EngRun) (s : State) : State :=
  let n := instOf x.q
  let t := Desc.sTarget x.d
  if (s.chain n).coefBusy t then (s.count Addr.sdcCoefBusyCnt).writeStatus x 4 0
  else
    let (input, s) := s.engRead x.me (Desc.inAddr x.d) (4 * 12288)
    let l := samplesOf input
    if l.any fun v => decide (2 ^ 18 ≤ v.1.toNat) then s.failDesc x 1
    else
      let pz := l.any (·.2)
      let s := (l.foldl (fun (acc : Nat × State) v => (acc.1 + 1, acc.2.setCoef (coefKey n t acc.1) v)) (0, s)).2
      (s.countIf pz Addr.sdcPoisonInCnt).writeStatus x 0 (stFlag pz 0)

/-- COEF_LOAD (R190). -/
def execCoefLoad (n : Fin 128) (other : Option PortAccess) (s : State) : Res :=
  State.done (s.runDesc (calIndex 9 n) 0x41 (fun _ _ => false) State.runCoef other)

/-- SDC_FADE_END (R191): a fade that has had its FADE_LEN outputs ends. -/
def execSdcFadeEnd (n : Fin 128) (s : State) : Res :=
  let (a, s) := s.endFade
    { c := s.chain n, out := [], n := 0, invalid := 0, sat := 0, swapped := false, reset := false, poison := false, last := 0,
      run := 0 }
  State.done (s.setChain n a.c)

/-! ### Shadow settings (R200, R202) -/

/-- A shadow register of a chain and the bits it holds. -/
def sdcShadow (n r : Nat) : Nat × Nat :=
  match r with
  | 0 => (Addr.sdcShCfg n, 0xDF001FFF)
  | 1 => (Addr.sdcShNco n, 0xFFFFFFFF)
  | _ => (Addr.sdcShRs n, 0xFFFFFFFF)

/-- A shadow write after COMMIT tears the set. -/
def State.tearSdc (s : State) (n : Nat) : State :=
  let r := Addr.sdcCommit n
  if s.flag r Fld.sdcCommitCommit then ((s.clearSdcCommit n).fset r Fld.sdcCommitTorn 1).count Addr.sdcTornCnt else s

/-- A write of the chain's shadow register r. -/
def State.writeSdcShadow (s : State) (n r : Nat) (who : Requester) (v : Nat) : State :=
  if isZelfa who then (s.tearSdc n).setReg (sdcShadow n r).1 (BitVec.ofNat 64 (v &&& (sdcShadow n r).2))
  else s.count Addr.sdcWrDenyCnt

/-- SDC_SHADOW_WRITE (R200, R202). -/
def execSdcShadowWrite (n : Fin 128) (r : Fin 3) (who : Requester) (value : Word) (s : State) : Res :=
  State.done (s.behindFence (sdcShadow n r).1 fun s => s.writeSdcShadow n r who value.toNat)

/-- A write of SDC_COMMIT. -/
def State.writeSdcCommit (s : State) (n : Nat) (who : Requester) (v : Nat) : State :=
  let r := Addr.sdcCommit n
  if isZelfa who then
    let s := if bitOf v 2 then s.fset r Fld.sdcCommitBadset 0 else s
    let s := if bitOf v 1 then s.fset r Fld.sdcCommitTorn 0 else s
    if bitOf v 0 then s.fset r Fld.sdcCommitCommit 1 else s
  else s.count Addr.sdcWrDenyCnt

/-- SDC_COMMIT_SET (R200, R202). -/
def execSdcCommitSet (n : Fin 128) (who : Requester) (value : Word) (s : State) : Res :=
  State.done (s.behindFence (Addr.sdcCommit n) fun s => s.writeSdcCommit n who value.toNat)

end Sys2Proof.Machine
end

