-- ==== Sys2Proof/Machine/Fronthaul.lean ====
section
/-! DEFINITION. The fronthaul ports: receive disposal and symbol completion (R278, R281, R282), the launch queues (R283 to
R289), one-way delay messages (R280) and the vote's test for traffic (R298). -/

namespace Sys2Proof.Machine

/-! ### Streams -/

def StreamT.none : StreamT :=
  { port := 64, stream := 0, dl := false, bfp := false, iqWidth := 0, eaxc := 0, contBits := 0, carrier := 0, nprb := 0,
    prbBytes := 0, cap := 0, tAdvU := 0, tAdvC := 0, txWin := 0, rxStart := 0, rxEnd := 0, ringBank := 0, ringSlots := 1,
    ringStride := 0, symPerBank := 1, areaOff := 0, dstMac := 0 }

def State.stream (s : State) (i : Nat) : StreamT := s.img.streams.getD i StreamT.none

/-- Index of the first stream entry that satisfies a test. -/
def State.streamIdx (s : State) (f : StreamT → Bool) : Option Nat :=
  (List.range s.img.streams.length).find? fun i => f (s.stream i)

/-- The context of a stream's carrier (R10). -/
def State.streamCtx (s : State) (x : StreamT) : CtxT := s.ctx (x.carrier / 8)

/-! ### Uplink symbols (R281, R325) -/

/-- Record time at which uplink symbol n of a context starts. -/
def ulStart (c : CtxT) (n : Nat) : Int := symStart c n - c.taOff

/-- The uplink frame under way at record time t, counted since the epoch. -/
def ulFrame (c : CtxT) (t : Nat) : Nat := (t + c.taOff + c.toff) / 10000000

/-- The frame whose number modulo 256 is `id` and which lies nearest to frame f. -/
def nearestFrame (f id : Nat) : Nat := f + (id + 384 - f % 256) % 256 - 128

/-- The uplink symbol a message names, counted since the context's epoch. -/
def ulSymbol (c : CtxT) (t : Nat) (x : RxMessage) : Nat :=
  let f := nearestFrame (ulFrame c t) x.frame.toNat
  (f * (10 * 2 ^ c.mu) + x.subframe * 2 ^ c.mu + x.slot) * symPerSlot c.ecp + x.symbol

/-- The bank that holds uplink symbol n of a stream, as a global bank number of the fronthaul buffer (R281). -/
def StreamT.bankOf (x : StreamT) (c : CtxT) (n : Nat) : Nat :=
  let k := symPerSlot c.ecp
  x.ringBank + x.ringStride * (n / k % x.ringSlots) + n % k / x.symPerBank

/-- Address of the first byte of uplink symbol n in the stream's area (R281). -/
def StreamT.areaOf (x : StreamT) (c : CtxT) (n : Nat) : Nat :=
  bankBase (globalBank (x.bankOf c n)) + x.areaOff + n % symPerSlot c.ecp % x.symPerBank * x.nprb * x.prbBytes

def noRx : Nat → RxSym := fun _ => { prbs := 0, complete := false, handed := false }
def rxKey (i n : Nat) : Nat := i * 2 ^ 56 + n
def State.rxSym (s : State) (i n : Nat) : RxSym := SMap.get noRx s.fh.rx (rxKey i n)
def State.setRxSym (s : State) (i n : Nat) (x : RxSym) : State :=
  { s with fh := { s.fh with rx := SMap.set noRx s.fh.rx (rxKey i n) x } }

def popcountN (x n : Nat) : Nat := ((List.range n).filter fun k => bitOf x k).length

/-- Every PRB of the symbol has been received. -/
def RxSym.full (x : RxSym) (nprb : Nat) : Bool := nprb ≤ popcountN x.prbs nprb

/-! ### Stamps (R304) -/

/-- Receive stamp of a point registered now at phase P (steps of 31.25 ps), in 2^-16 ns. -/
def State.rxStamp (s : State) (p phase : Nat) : Int :=
  (s.time.fine : Int) - phase * 2048 - s.fget (Addr.ptpRxdlyEff p) Fld.ptpRxdlyEffValue * 256

/-- Transmit stamp. -/
def State.txStamp (s : State) (p phase : Nat) : Int :=
  (s.time.fine : Int) + phase * 2048 + s.fget (Addr.ptpTxdlyEff p) Fld.ptpTxdlyEffValue * 256

/-! ### Receive (R281) -/

/-- PRBs of a section: `num` 0 stands for the rest of the stream's. -/
def StreamT.prbsOf (x : StreamT) (y : RxSection) : Nat :=
  if y.num.toNat = 0 then x.nprb - y.start.toNat else y.num.toNat

/-- An accepted section is written at the stream's symbol area through the bank's local port; a write over PRBs already
received counts each of them (Table 12-3). The answer tells that it is a message's good part. -/
def State.rxWrite (s : State) (p i n : Nat) (y : RxSection) : Bool × State :=
  let x := s.stream i
  let num := x.prbsOf y
  let bytes := if s.isCpri p then y.data else (List.range (num * x.prbBytes)).map fun k => y.data.getD k 0
  let a := x.areaOf (s.streamCtx x) n + y.start.toNat * x.prbBytes
  let (ok, _, s) := s.withPort true true a bytes.length y.other fun s => s.writeBank [Ident.framer (p / 8)] a (clean bytes)
  if !ok then (false, s.count (Addr.fhRxOwnErrCnt p))
  else
    let r := s.rxSym i n
    let mask := (2 ^ num - 1) * 2 ^ y.start.toNat
    let dup := popcountN (r.prbs &&& mask) x.nprb
    let s := s.setRxSym i n { r with prbs := r.prbs ||| mask }
    if dup = 0 then (true, s) else (false, s.countBy (Addr.fhRxDupCnt p) dup)

/-- The lines of Table 12-3 from NPRB on, for one section. -/
def State.rxSection (s : State) (p i n : Nat) (y : RxSection) : Bool × State :=
  let x := s.stream i
  let num := x.prbsOf y
  if x.nprb < y.start.toNat + num || num = 0 then (false, s.count (Addr.fhRxRangeCnt p)) else s.rxWrite p i n y

/-- The sections of a message; one that is written whole, or some, counts the message once. -/
def State.rxSections (s : State) (p i n : Nat) (l : List RxSection) : State :=
  let (good, s) := l.foldl (fun (a : Bool × State) y => let (g, s) := a.2.rxSection p i n y; (a.1 || g, s)) (false, s)
  if good then s.count (Addr.fhRxFrameCnt p) else s

/-- The lines of Table 12-3 from the receive window on. -/
def State.rxWindow (s : State) (p i : Nat) (m : RxMessage) : State :=
  let x := s.stream i
  let c := s.streamCtx x
  let n := ulSymbol c s.now m
  let t : Int := s.now
  if t < ulStart c n + x.rxStart then s.count (Addr.fhRxEarlyCnt p)
  else if ulStart c n + x.rxEnd < t || (s.rxSym i n).complete || (s.rxSym i n).full x.nprb then s.count (Addr.fhRxLateCnt p)
  else s.rxSections p i n m.sections

/-- Words of a CPRI link's C&M channels and vendor-specific words (R276). -/
def State.rxControl (s : State) (p : Nat) (m : RxMessage) : State :=
  { s with fh := { s.fh with cm := s.fh.cm ++ [(p, m.type.toNat, m.data)] } }

/-- Table 12-3 for a message of a good frame, or a CPRI span. Type 2 goes to the Zelfa cores, and type 5 is answered by the
port itself (R278, R280). -/
def State.rxMessage (s : State) (p : Nat) (m : RxMessage) : State :=
  if s.isCpri p && m.type.toNat ≠ 0 then s.rxControl p m
  else if !s.isCpri p && m.type.toNat == 2 then { s with fh := { s.fh with rtc := s.fh.rtc ++ [(p, m.data)] } }.latch 3
  else if s.mode = Mode.safe then s.count (Addr.fhRxSafeDropCnt p)
  else if m.type.toNat = 5 then s
  else if m.type.toNat ≠ 0 then s.count (Addr.fhRxTypeCnt p)
  else match s.streamIdx fun x => x.port == p && !x.dl && x.eaxc == m.id.toNat with
    | none => s.count (Addr.fhRxUnknownCnt p)
    | some i => s.rxWindow p i m

/-- The messages of a frame, each up to the first without the concatenation bit, at most n of them. -/
def upToLast : Nat → List RxMessage → List RxMessage
  | n + 1, m :: l => m :: (if m.more then upToLast n l else [])
  | _, _ => []

/-- The messages that are parsed (R278). -/
def parsedMessages (x : RxFrame) : List RxMessage := upToLast 8 x.messages

/-- A frame arrives: one with an FCS error or too long is dropped whole, the others are disposed of message by message. -/
def State.rxFrame (s : State) (p : Nat) (x : RxFrame) : State :=
  if !x.fcsOk || 9600 < x.len.toNat then
    s.count (if s.mode = Mode.safe then Addr.fhRxSafeDropCnt p else Addr.fhRxFcsCnt p)
  else s.each (parsedMessages x) fun s m => s.rxMessage p m

/-- A U-plane or C-plane frame is noted for the vote (R298). -/
def State.noteRx (s : State) (p : Nat) (x : RxFrame) : State :=
  if x.fcsOk && !s.isCpri p && (parsedMessages x).any fun m => m.type.toNat == 0 || m.type.toNat == 2 then
    { s with fh := { s.fh with lastRx := SMap.set (fun _ => none) s.fh.lastRx p (some s.time.ticks) } }
  else s

/-- A hyperframe start is stamped as it is received (R304). -/
def State.noteHyper (s : State) (p : Nat) (x : RxFrame) : State :=
  match x.hyper with
  | some phase =>
    if s.isCpri p then
      { s with fh := { s.fh with hyperRx := SMap.set (fun _ => none) s.fh.hyperRx p (some (s.rxStamp p phase.toNat)) } }
    else s
  | none => s

/-- FH_RX_MESSAGE (R281): while the port is down nothing is delineated on it, and without the root PLL the framers stand
still (R15). -/
def execFhRxMessage (p : Fin 64) (x : RxFrame) (s : State) : Res :=
  State.done (if s.locked && (s.portT p).isSome && s.portUp p then ((s.noteHyper p x).noteRx p x).rxFrame p x else s)

/-! ### Symbol completion (R282) -/

/-- The uplink streams whose areas lie in the same ring: their symbols share banks. -/
def State.ringStreams (s : State) (x : StreamT) : List Nat :=
  (List.range s.img.streams.length).filter fun i =>
    !(s.stream i).dl && (s.stream i).ringBank == x.ringBank && (s.stream i).carrier / 8 == x.carrier / 8

/-- The uplink symbols that lie in the bank of symbol n. -/
def StreamT.bankSyms (x : StreamT) (c : CtxT) (n : Nat) : List Nat :=
  let k := symPerSlot c.ecp
  let first := n % k / x.symPerBank * x.symPerBank
  (List.range (min x.symPerBank (k - first))).map fun m => n / k * k + first + m

/-- The FH_SYM bindings of accepted jobs that name uplink symbol n of a context: job, stage, flag, first stream and stream
count (Table 03-2). -/
def State.fhBindings (s : State) (ctx n : Nat) : List (Nat × Nat × Nat × Nat × Nat) :=
  (s.cmp.jobs.map fun e => match e.2 with
    | none => []
    | some j => if j.closed then [] else ((List.range j.stages.length).map fun k => ((List.range 32).filterMap fun f =>
        let b := (j.stageT k).bind f
        let first := bitsOf b.arg2 11 0
        if b.source = Src.fhSym ∧ (s.stream first).carrier / 8 = ctx ∧ firstUlSym (s.ctx ctx) j.w + b.arg1 = n then
          some (e.1, k, f, first, bitsOf b.arg2 23 12)
        else none)).flatten).flatten

/-- The binding's streams. -/
def bindStreams (b : Nat × Nat × Nat × Nat × Nat) : List Nat := (List.range b.2.2.2.2).map (b.2.2.2.1 + ·)

/-- The FH_SYM flags of uplink symbol n whose streams have all been handed over are set. -/
def State.fhFlags (s : State) (ctx : Nat) (members : List Nat) (n : Nat) : State :=
  s.each (s.fhBindings ctx n) fun s b =>
    if (bindStreams b).any members.contains && (bindStreams b).all fun i => (s.rxSym i n).handed then
      s.flagEvent b.1 b.2.1 b.2.2.1 Src.fhSym
    else s

/-- The framer group hands the bank to instance (cls, inst) for job h; refused under R210, no flag is set. -/
def State.handRxBank (s : State) (g bank h : Nat) (new : Ident) (ctx : Nat) (members syms : List Nat) : State :=
  let key := globalBank bank
  let me := Ident.framer g
  let ok := s.ownerWriteOk key (.owner me) new
  let s := s.ownerWrites key [(.owner me, new)]
  if !ok then s
  else
    let s := s.completeHandover key
    let s := s.modJob h fun j => { j with moved := if j.moved.contains key then j.moved else key :: j.moved }
    let s := s.each members fun s i => s.each syms fun s n => s.setRxSym i n { s.rxSym i n with handed := true }
    s.each syms fun s n => s.fhFlags ctx members n

/-- A symbol has completed: with every symbol of its bank complete, the bank goes to the instance booked for the stage that
binds the bank's last symbol; without an accepted job that binds it, it stays. -/
def State.bankComplete (s : State) (i n : Nat) : State :=
  let x := s.stream i
  let c := s.streamCtx x
  let members := s.ringStreams x
  let syms := x.bankSyms c n
  if !(members.all fun k => syms.all fun m => (s.rxSym k m).complete) then s
  else
    match (s.fhBindings (x.carrier / 8) (syms.getLastD n)).find? fun b => (bindStreams b).any members.contains with
    | none => s
    | some b => match s.job b.1 with
      | none => s
      | some j =>
        s.handRxBank (x.port / 8) (x.bankOf c n) b.1 (instIdent (j.stage b.2.1).cls (j.stage b.2.1).inst) (x.carrier / 8)
          members syms

/-- A stream's symbol completes: at NPRB, or when the time reaches RXWIN_END. -/
def State.symComplete (s : State) (i n : Nat) : State :=
  let x := s.stream i
  let c := s.streamCtx x
  let s := if (s.rxSym i n).full x.nprb then s else s.advanceTo (ulStart c n + x.rxEnd).toNat
  let s := s.setRxSym i n { s.rxSym i n with complete := true }
  s.bankComplete i n

/-- FH_SYMBOL_COMPLETE (R282). -/
def execFhSymbolComplete (i : Fin 4096) (sym : BitVec 56) (s : State) : Res :=
  let x := s.stream i
  let ready := s.locked && ((s.rxSym i sym.toNat).full x.nprb || s.time.counting)
  State.done (if i.val < s.img.streams.length && !x.dl && ready && !(s.rxSym i sym.toNat).complete then
    s.symComplete i sym.toNat
  else s)

/-! ### Pushes (R283, R284) -/

def Lq.kind (r : Nat) : Nat := recF r 0 7 0
def Lq.stream (r : Nat) : Nat := recF r 2 7 0
def Lq.len (r : Nat) : Nat := recF r 4 31 0
def Lq.launch (r : Nat) : Nat := recF r 8 63 0
def Lq.payload (r : Nat) : Nat := recF r 0x10 47 0

/-- Reserved bits, KIND and VERSION of Table 12-4. -/
def Lq.malformed (r : Nat) : Bool :=
  recF r 3 7 0 != 0 || recF r 0x16 15 0 != 0 || recF r 0x18 63 0 != 0 || recF r 1 7 0 != 1
    || !([1, 2, 3].contains (Lq.kind r))

/-- The job and stage of the DSP stage that a tile's core runs. -/
def State.dspStage (s : State) : Requester → Option (Nat × Nat)
  | .tile t => s.running t.val
  | _ => none

/-- Advance of a stream for a KIND. -/
def StreamT.advance (x : StreamT) (kind : Nat) : Nat := if kind = 2 then x.tAdvC else x.tAdvU

/-- The first refusal reason of Table 12-5 that holds; `run` tells that a DSP stage runs on the writer. -/
def State.pushReason (s : State) (p r : Nat) (run : Bool) : Option Nat :=
  let kind := Lq.kind r
  let lt := Lq.launch r
  if 4096 ≤ (s.lq p).length then some 1
  else if Lq.malformed r then some 2
  else if !run then some 3
  else match s.streamIdx fun x => x.port == p && x.stream == Lq.stream r with
    | none => some 4
    | some i =>
      let x := s.stream i
      if (kind ≠ 2 ∧ !x.dl) ∨ (kind == 3) ≠ s.isCpri p then some 4
      else if Lq.len r = 0 ∨ x.cap < Lq.len r ∨ (kind ≠ 3 ∧ 9570 < Lq.len r) then some 5
      else if !isSymStart (s.streamCtx x) (lt + x.advance kind) then some 6
      else if lt < s.now + 2000 then some 7
      else if Lq.payload r < 0x20000000 ∨ 0x21000000 < Lq.payload r + Lq.len r then some 8
      else none

/-- FH_LQ_ERR_LOG with VALID set. -/
def lqErrWord (p reason h : Nat) (who : Ident) : DWord :=
  BitVec.ofNat 64 (2 ^ 63 + p * 2 ^ 56 + reason * 2 ^ 52 + h * 2 ^ 16 + who.kind * 2 ^ 12 + who.index)

/-- A refused push is counted, and the first since the log was cleared is logged (R284). -/
def State.refusePush (s : State) (p reason h : Nat) (who : Ident) : State :=
  let s := s.count (Addr.fhLqRefuseCnt p)
  let log := Addr.fhLqErrLog
  if s.flag log Fld.fhLqErrLogValid then s.fset log Fld.fhLqErrLogOvf 1
  else s.setReg log (lqErrWord p reason (if reason = 3 then 0 else h) who)

/-- An entry enters the port's queue, or is discarded when the job's last FH_TX stage there has ended (R285). -/
def State.enqueue (s : State) (p h r : Nat) : State :=
  let e : LqEntry :=
    { order := s.fh.order, job := h, kind := Lq.kind r, stream := Lq.stream r, len := Lq.len r, launch := Lq.launch r,
      payload := Lq.payload r, eligible := false, armed := false }
  if (s.job h).any fun j => j.fhTxOver p then (s.safeContent p e).count (Addr.fhWithdrawnCnt p)
  else
    let s := { s with fh := { s.fh with order := s.fh.order + 1 } }.setLq p (s.lq p ++ [e])
    let st := Addr.fhLqStat p
    if s.fget st Fld.fhLqStatPeak < (s.lq p).length then s.fset st Fld.fhLqStatPeak (s.lq p).length else s

/-- A 32-byte write of FH_LQ_PUSH; the answer is false for an error response. -/
def State.pushEntry (s : State) (p : Nat) (who : Requester) (r : Nat) : Bool × State :=
  let run := s.dspStage who
  let h := (run.map (·.1)).getD 0
  match s.pushReason p r run.isSome with
  | some reason => (false, s.refusePush p reason h (reqIdent who))
  | none => (true, s.enqueue p h r)

/-! ### Arming (R285, R286) -/

/-- Entries in the order of R287: LAUNCH_TIME, STREAM, push order. -/
def LqEntry.before (a b : LqEntry) : Bool :=
  a.launch < b.launch || (a.launch == b.launch && (a.stream < b.stream || (a.stream == b.stream && a.order < b.order)))

def firstEntry : List LqEntry → Option LqEntry
  | [] => none
  | e :: l => match firstEntry l with
    | none => some e
    | some x => some (if x.before e then x else e)

def State.removeEntry (s : State) (p : Nat) (e : LqEntry) : State :=
  s.setLq p ((s.lq p).filter fun x => x.order != e.order)

/-- One entry is armed, or dropped with safe content where the group does not own its payload banks. -/
def State.armEntry (s : State) (p : Nat) (e : LqEntry) : State :=
  let mine := (banksOf e.payload e.len).all fun b => b.any fun key => s.owner key == Ident.framer (p / 8)
  if mine then s.setLq p ((s.lq p).map fun x => if x.order = e.order then { x with armed := true } else x)
  else ((s.removeEntry p e).safeContent p e).count (Addr.fhArmOwnErrCnt p)

/-- Arm up to n of the job's eligible entries on the port, in LAUNCH_TIME order. -/
def State.armEntries (p h : Nat) : Nat → State → State
  | 0, s => s
  | n + 1, s =>
    match firstEntry ((s.lq p).filter fun e => e.job == h && e.eligible && !e.armed) with
    | none => s
    | some e => State.armEntries p h n (s.armEntry p e)

/-- Entries that a stage's budget lets it arm: 16 cycles and 4 per entry (R286). -/
def armBudget (cost : Nat) : Nat := (cost - 16) / 4

/-! ### The wire (R287 to R289) -/

/-- The armed entry that is sent next. -/
def State.nextFrame (s : State) (p : Nat) : Option LqEntry := firstEntry ((s.lq p).filter fun e => e.armed)

def State.wireFree (s : State) (p : Nat) : Nat := SMap.get (fun _ => 0) s.fh.free p

/-- Record time at which the entry's frame can start. -/
def State.frameStart (s : State) (p : Nat) (e : LqEntry) : Nat := max s.now (max e.launch (s.wireFree p))

/-- The map's entry of a port's stream. -/
def State.streamOn (s : State) (p st : Nat) : StreamT :=
  s.stream ((s.streamIdx fun x => x.port == p && x.stream == st).getD s.img.streams.length)

/-- Data rate of an Ethernet port in Mb/s (Table 12-2). -/
def PortT.rate (t : PortT) : Nat := [1, 10000, 25000, 50000, 100000, 100000].getD t.type 100000

/-- Time of an n-byte frame on the wire, in ns, its VLAN tag not counted in n, with its preamble and gap. -/
def PortT.wireNs (t : PortT) (n : Nat) : Nat :=
  if t.isCpri then 0 else ceilDiv ((max 64 ((if t.vlanEn then 4 else 0) + n) + 20) * 8000) t.rate

/-- Time of a frame with an n-byte eCPRI payload. -/
def PortT.frameNs (t : PortT) (n : Nat) : Nat := t.wireNs (26 + n)

/-- The port's wire is taken for n ns from now. -/
def State.takeWire (s : State) (p n : Nat) : State :=
  { s with fh := { s.fh with free := SMap.set (fun _ => 0) s.fh.free p (s.now + n) } }

/-- A PTP, type 5 or management frame of n bytes can start now: the wire is free, and the frame ends before the next armed
frame's start (R287). -/
def State.gapFor (s : State) (p n : Nat) : Bool :=
  match s.portT p with
  | none => false
  | some t => s.wireFree p ≤ s.now && (s.nextFrame p).all fun e => s.now + t.wireNs n < s.frameStart p e

/-- Such a frame goes out. -/
def State.useGap (s : State) (p n : Nat) : State := s.takeWire p ((s.portT p).elim 0 fun t => t.wireNs n)

/-- Read one bank's part of a payload: what the bank refuses returns poisoned (R246, R287). -/
def State.readPart (s : State) (p a n : Nat) : List (Byte × Bool) × State :=
  match s.readBank [Ident.framer (p / 8)] a n with
  | (some d, s) => (d, s)
  | (none, s) => (List.replicate n (0, true), s)

/-- The payload as it is read while its frame is sent. -/
def State.readPayload (s : State) (p a n : Nat) : List (Byte × Bool) × State :=
  let k := min n (0x10000 - a % 0x10000)
  let (d, s) := s.readPart p a k
  if k = n then (d, s)
  else
    let (d', s) := s.readPart p (a + k) (n - k)
    (d ++ d', s)

/-- Poisoned 64-bit words among the bytes read from address a. -/
def poisonWords (a : Nat) (d : List (Byte × Bool)) : Nat :=
  ((wordsOf a d.length).filter fun w => (List.range 8).any fun k => a ≤ 8 * w + k && (d.getD (8 * w + k - a) (0, false)).2).length

/-- Poisoned words are sent as zero bytes (R289). -/
def zeroPoison (d : List (Byte × Bool)) : List Byte := d.map fun b => if b.2 then 0 else b.1

/-- The samples of an entry are the stream's IQ from their first basic frame on; spans that have ended are forgotten. -/
def State.fillContainers (s : State) (p : Nat) (x : CpriSpan) : State :=
  let left := (s.cpriSpans p).filter fun y =>
    basicFrame s.now < y.first + ceilDiv (8 * y.samples.length) (max 1 (s.streamOn p y.stream).contBits)
  { s with fh := { s.fh with cpri := SMap.set noSpans s.fh.cpri p (x :: left) } }

/-- The frame or the CPRI samples of an entry go out. -/
def State.sendEntry (s : State) (p : Nat) (t : PortT) (e : LqEntry) (data : List Byte) : State :=
  let x := s.streamOn p e.stream
  let s := s.count (Addr.fhTxFrameCnt p)
  if t.isCpri then
    let first := basicFrameFrom e.launch
    (s.fillContainers p ⟨e.stream, first, data⟩).emit (.cpriSend p e.stream e.launch first x.eaxc x.contBits data)
  else
    let key := 4 * (s.streamIdx fun y => y.port == p && y.stream == e.stream).getD 0 + e.kind
    let seq := SMap.get (fun _ => 0) s.fh.seq key
    let s := { s with fh := { s.fh with seq := SMap.set (fun _ => 0) s.fh.seq key ((seq + 1) % 256) } }
    s.emit (.frame p (if e.kind = 2 then 2 else 0) x.dstMac t.srcMac (if t.vlanEn then some t.vlanTci else none) x.eaxc
      (seq * 256 + 0x80) data)

/-- A frame starts: its entry leaves the queue; a down port loses it (R288). -/
def State.launch (s : State) (p : Nat) (t : PortT) (e : LqEntry) (other : Option PortAccess) : State :=
  let s := s.advanceTo (s.frameStart p e)
  let s := s.removeEntry p e
  if !s.portUp p then (s.safeContent p e).count (Addr.fhTxDownDropCnt p)
  else
    let (d, s) := s.withAreas (fun key => key / 256 == 24) [(false, e.payload, e.len)] other fun s =>
      s.readPayload p e.payload e.len
    let s := s.countBy (Addr.fhPoisonWordCnt p) (poisonWords e.payload d)
    (s.takeWire p (t.frameNs e.len)).sendEntry p t e (zeroPoison d)

/-- Latest record time at which an entry's frame may start. -/
def State.lateAfter (s : State) (p : Nat) (e : LqEntry) : Nat := e.launch + (s.streamOn p e.stream).txWin

/-- FH_FRAME_LAUNCH (R287); the framers run from the root PLL (R15). -/
def execFhFrameLaunch (p : Fin 64) (other : Option PortAccess) (s : State) : Res :=
  match s.nextFrame p, s.portT p with
  | some e, some t => State.done (if s.locked && decide (s.frameStart p e ≤ s.lateAfter p e) then s.launch p t e other else s)
  | _, _ => s.done

/-- FH_TX_LATE (R287, R288). -/
def execFhTxLate (p : Fin 64) (s : State) : Res :=
  match s.nextFrame p with
  | some e =>
    State.done (if !s.locked || decide (s.frameStart p e ≤ s.lateAfter p e) then s
      else
        let s := s.advanceTo (s.lateAfter p e + 1)
        ((s.removeEntry p e).safeContent p e).count (Addr.fhTxLateCnt p))
  | none => s.done

/-! ### One-way delay (R280) -/

/-- An Ethernet port that is up sends PTP and type 5 messages; in SAFE only while time is valid (R299). -/
def State.portTalks (s : State) (p : Nat) : Bool :=
  s.locked && (s.portT p).isSome && !s.isCpri p && s.portUp p && (s.mode != Mode.safe || s.timeValid)

/-- Bytes of a type 5 message's frame: two headers, 20 bytes and the FCS. -/
def delayFrame : Nat := 42

/-- ECPRI_DELAY_REQUEST (R280): the port is reached by a Request and answers it as a gap lets it (R287). -/
def execEcpriDelayRequest (p : Fin 64) (id phase : BitVec 8) (s : State) : Res :=
  State.done (if s.portTalks p && s.gapFor p delayFrame then
    (s.useGap p delayFrame).emit (.delayMsg p true id.toNat (s.rxStamp p phase.toNat) 0)
  else s)

/-- ECPRI_DELAY_SEND (R280): the Request goes out in a gap (R287). -/
def execEcpriDelaySend (p : Fin 64) (id phase : BitVec 8) (s : State) : Res :=
  State.done (if s.portTalks p && s.gapFor p delayFrame then
    (s.useGap p delayFrame).emit (.delayMsg p false id.toNat (s.txStamp p phase.toNat) 0)
  else s)

/-! ### The vote (R298) -/

/-- A port carries traffic. -/
def State.portBusy (s : State) (p : Nat) : Bool :=
  !(s.lq p).isEmpty || (s.isCpri p && s.fget (Addr.fhPortStat p) Fld.fhPortStatCpriState == 5)
    || (SMap.get (fun _ => (none : Option Nat)) s.fh.lastRx p).any fun t => s.time.ticks < t + 4915200

/-- Lane group g refuses the vote. -/
def State.groupBusy (s : State) (g : Nat) : Bool := (List.range 8).any fun k => s.portBusy (8 * g + k)

end Sys2Proof.Machine
end

