-- ==== Sys2Proof/Machine/Lanes.lean ====
section
/-! DEFINITION. The fronthaul lanes: lock stages, polarity and loss of signal (R290 to R292), CPRI start-up (R276), eye
characterisation (R294), test patterns (R295 to R297) and the exit from the deep lane state (R298). -/

namespace Sys2Proof.Machine

/-! ### Lock stages (Table 12-6) -/

inductive LockStage where
  | comma | hyper | block | marker | pcs
  deriving DecidableEq, Repr

/-- The stages of a lane, in order, from its port's type, its FEC and its rate: Block where the line code of Table 12-1 is
64b/66b, the markers with RS-FEC. -/
def lockStages (t : PortT) (rate : Nat) : List LockStage :=
  if t.isCpri then (if rate ≤ 7 then [.comma, .hyper] else [.block, .hyper])
  else (if rate = 0x12 then [] else [.block]) ++ (if 2 ≤ t.fec then [.marker] else []) ++ [.pcs]

/-- Lanes of a port (Table 12-2). -/
def PortT.lanes (t : PortT) : Nat := if t.type = 4 then 2 else if t.type = 5 then 4 else 1

def State.laneStages (s : State) (l : Nat) : List LockStage :=
  match s.portT (s.portOf l) with
  | none => []
  | some t => lockStages t (s.fget (Addr.laneCfg l) Fld.laneCfgRate)

def State.locksOf (s : State) (l : Nat) : Nat := SMap.get (fun _ => 0) s.fh.locks l
def State.los (s : State) (l : Nat) : Bool := s.flag (Addr.laneStat l) Fld.laneStatLos
def State.charRuns (s : State) (l : Nat) : Bool := s.flag (Addr.laneCharCtrl l) Fld.laneCharCtrlGo

/-- Every lane of the port has locked its last stage. -/
def State.portLocked (s : State) (p : Nat) (t : PortT) : Bool :=
  (List.range t.lanes).all fun k => s.laneState (p + k) == Lane.locked

/-- The port comes up; lanes in the wrong order keep it down (R290, R291). -/
def State.portMayRise (s : State) (p : Nat) (inOrder : Bool) : State :=
  match s.portT p with
  | none => s
  | some t => if s.portLocked p t && (inOrder || t.lanes == 1) then s.fset (Addr.fhPortStat p) Fld.fhPortStatUp 1 else s

/-- A lane that hunts gains the next of its stages; the first sets ALIGN. -/
def State.gainStage (s : State) (l align : Nat) (inOrder : Bool) : State :=
  let n := s.locksOf l
  let s := if n = 0 then s.fset (Addr.laneStat l) Fld.laneStatAlign align else s
  let s := s.setLockStages l (n + 1)
  if n + 1 = (s.laneStages l).length then (s.setLaneState l Lane.locked).portMayRise (s.portOf l) inOrder else s

/-- LANE_LOCK_GAINED (R290). -/
def execLaneLockGained (l : Fin 64) (align : BitVec 16) (inOrder : Bool) (s : State) : Res :=
  State.done (if s.laneState l = Lane.hunt ∧ !s.los l ∧ !s.charRuns l ∧ s.locksOf l < (s.laneStages l).length then
    s.gainStage l align.toNat inOrder
  else s)

/-- The first stage lost when stage k is: a comma is lost only with hyperframe lock, which then takes the comma with it. -/
def lostFrom (l : List LockStage) (k : Nat) : Option Nat :=
  if l.head? = some .comma then (if k = 1 then some 0 else none) else some k

/-- The stages from k on are lost, each counted; the lane hunts again and its port goes down (R290). -/
def State.loseStages (s : State) (l k : Nat) : State :=
  let n := s.locksOf l
  let s := (s.countBy (Addr.laneLockLossCnt l) (n - k)).setLockStages l k
  let s := if s.laneState l = Lane.locked then s.setLaneState l Lane.hunt else s
  s.portDown (s.portOf l)

/-- LANE_LOCK_LOST (R290): `cv`, `ce` and `ue` are the code violations and FEC codewords found since the last report. -/
def execLaneLockLost (l : Fin 64) (stage : Fin 3) (cv ce ue : BitVec 32) (s : State) : Res :=
  let s := s.countBy (Addr.laneCvCnt l) cv.toNat
  let s := (s.countBy (Addr.laneFecCeCnt l) ce.toNat).countBy (Addr.laneFecUeCnt l) ue.toNat
  match lostFrom (s.laneStages l) stage with
  | some k => State.done (if k < s.locksOf l ∧ stage.val < s.locksOf l then s.loseStages l k else s)
  | none => s.done

/-- LANE_POLARITY_FLIP (R291): 2 ms have passed without the last stage. -/
def execLanePolarityFlip (l : Fin 64) (s : State) : Res :=
  let st := Addr.laneStat l
  State.done (if s.laneState l = Lane.hunt ∧ !s.los l ∧ !s.charRuns l then
    ((s.fset st Fld.laneStatRxInv (1 - s.fget st Fld.laneStatRxInv)).count (Addr.lanePolFlipCnt l)).restartHunt l
  else s)

/-- LANE_LOS_DETECT (R292). -/
def execLaneLosDetect (l : Fin 64) (s : State) : Res :=
  State.done (if s.laneState l ≤ Lane.waking ∨ s.los l then s
    else
      let s := (s.fset (Addr.laneStat l) Fld.laneStatLos 1).count (Addr.laneLosCnt l)
      let s := if s.laneState l = Lane.test then s else s.restartHunt l
      s.portDown (s.portOf l))

/-- LANE_SIGNAL_RESTORED (R292). -/
def execLaneSignalRestored (l : Fin 64) (s : State) : Res :=
  State.done (if !s.los l then s
    else
      let s := s.fset (Addr.laneStat l) Fld.laneStatLos 0
      if s.laneState l = Lane.test then s else s.restartHunt l)

/-! ### CPRI start-up (R276) -/

/-- A hyperframe start is stamped as it is sent (R304). -/
def State.noteHyperTx (s : State) (p phase : Nat) : State :=
  { s with fh := { s.fh with hyperTx := SMap.set (fun _ => none) s.fh.hyperTx p (some (s.txStamp p phase)) } }

/-- CPRI_STARTUP (R276): at a hyperframe start, which is stamped, the link reaches state `st`; states beyond B need lock, and
states beyond C a peer that answers with the image's rate and protocol version. -/
def execCpriStartup (p : Fin 64) (st : Fin 6) (agreed : Bool) (phase : BitVec 8) (s : State) : Res :=
  State.done (if s.isCpri p && (st.val ≤ 1 || s.portUp p) && (st.val ≤ 2 || agreed) then
    (s.noteHyperTx p phase.toNat).fset (Addr.fhPortStat p) Fld.fhPortStatCpriState st
  else s)

/-- Lane rate in kb/s (Table 12-1); option 1 sends each bit twice, so its bits are counted at its own rate. -/
def laneKbps (rate : Nat) : Nat :=
  match rate with
  | 0x10 => 10312500
  | 0x11 => 25781250
  | 0x12 => 53125000
  | r => [0, 614400, 1228800, 2457600, 3072000, 4915200, 6144000, 9830400, 8110080, 10137600, 12165120, 24330240].getD r 0

/-- Bits of a word of a basic frame: 16 words fill 1 / 3.84 MHz at the lane's rate, less the line code (R276). -/
def cpriWordBits (rate : Nat) : Nat :=
  if rate ≤ 7 then laneKbps rate * 8 / 10 / 61440 else laneKbps rate * 64 / 66 / 61440

/-- Bit b of the IQ part of basic frame k: a stream's containers carry its latest span of samples, and every other bit is
zero; in SAFE all are (R277, R288, R299). -/
def State.cpriIq (s : State) (p k b : Nat) : Bool :=
  s.mode != Mode.safe && decide (b < 15 * cpriWordBits (s.fget (Addr.laneCfg p) Fld.laneCfgRate))
    && ((s.cpriSpans p).find? fun y =>
      let x := s.streamOn p y.stream
      decide (y.first ≤ k) && decide (x.eaxc ≤ b) && decide (b < x.eaxc + x.contBits)
        && decide (k - y.first < ceilDiv (8 * y.samples.length) (max 1 x.contBits))).any fun y =>
    let x := s.streamOn p y.stream
    let n := (k - y.first) * x.contBits + (b - x.eaxc)
    bitOf (y.samples.getD (n / 8) 0).toNat (n % 8)

/-- What word 0 of a basic frame carries. -/
inductive CpriControl where
  /-- K28.5, at 8b/10b rates -/
  | comma
  /-- the hyperframe-start sync block, at 64b/66b rates -/
  | sync
  /-- a byte of its own, then what the firmware supplies -/
  | byte (b : Byte)
  /-- C&M, vendor-specific and other words from the firmware -/
  | firmware
  deriving DecidableEq, Repr

/-- The L1 inband byte: RAI bit 1, SDI bit 2, LOS bit 3 and LOF bit 4. -/
def State.cpriInband (s : State) (p : Nat) : Byte :=
  let los := s.los p
  let lof := !s.portUp p
  BitVec.ofNat 8 (2 * (los || lof).toNat + 4 * (Config.cpriSdi p s.time.ticks).toNat + 8 * los.toNat + 16 * lof.toNat)

/-- The control word of basic frame k of a CPRI link: Z.0.0 starts the hyperframe, Z.2.0 offers the protocol version, and
Z.130.0 holds the L1 inband bits (R276). -/
def State.cpriControl (s : State) (p k : Nat) : CpriControl :=
  match k % 256 with
  | 0 => if s.fget (Addr.laneCfg p) Fld.laneCfgRate ≤ 7 then .comma else .sync
  | 2 => .byte (BitVec.ofNat 8 ((s.portT p).elim 0 PortT.cpriVer))
  | 130 => .byte (s.cpriInband p)
  | _ => .firmware

/-! ### Eye characterisation (R294) -/

/-- A write of LANE_CHAR_CTRL: GO starts activity 6; GO is RWL (R297, R449). -/
def State.writeCharCtrl (s : State) (l v : Nat) : State :=
  if !bitOf v 31 || s.charRuns l then s
  else
    let s := s.countIf (!s.rwlOpen) Addr.devRwlDenyCnt
    let (ok, s) := s.maintStart 6 l (s.laneUsed l)
    if !ok then s
    else
      let s := (s.fset (Addr.laneCharCtrl l) Fld.laneCharCtrlGo 1).restartHunt l
      s.portDown (s.portOf l)

/-- LANE_CHAR_START (R294). -/
def execLaneCharStart (l : Fin 64) (_who : Requester) (value : Word) (s : State) : Res :=
  State.done (s.writeCharCtrl l value.toNat)

/-- LANE_CHAR_DONE (R294). -/
def execLaneCharDone (l : Fin 64) (eyeH eyeW : BitVec 8) (sug : DWord) (s : State) : Res :=
  let r := Addr.laneCharCtrl l
  State.done (if s.charRuns l then
    let s := ((s.fset r Fld.laneCharCtrlValid 1).fset r Fld.laneCharCtrlEyeH eyeH.toNat).fset r Fld.laneCharCtrlEyeW eyeW.toNat
    (s.setReg (Addr.laneEqSug l) sug).maintEnd 6 l Maint.done 0
  else s)

/-! ### Test patterns (R295 to R297) -/

/-- BURST_LEN as it is held: 0 and values above 64 give 64. -/
def burstLen (n : Nat) : Nat := if n = 0 ∨ 64 < n then 64 else n

/-- LANE_PRBS_CTRL after a write: PATTERN 6 and 7 leave the field unchanged. -/
def prbsNew (old : DWord) (v : Nat) : DWord :=
  let pat := if 6 ≤ bitsOf v 29 27 then bitsOf old.toNat 29 27 else bitsOf v 29 27
  BitVec.ofNat 64 (bitsOf v 31 30 * 2 ^ 30 + pat * 2 ^ 27 + burstLen (bitsOf v 6 0))

/-- A write would change an RWL field: one that carries each at its current value does not (R449). -/
def prbsChanges (old v : Nat) : Bool :=
  bitsOf v 31 30 != bitsOf old 31 30 || (bitsOf v 29 27 < 6 && bitsOf v 29 27 != bitsOf old 29 27)
    || (bitsOf v 6 0 != bitsOf old 6 0 && burstLen (bitsOf v 6 0) != bitsOf old 6 0)

/-- An injection written now replaces one that has not been sent (R296). -/
def State.inject (s : State) (l : Nat) (n : Option Nat) : State :=
  { s with fh := { s.fh with inj := SMap.set (fun _ => none) s.fh.inj l (n.map fun n => (n, s.time.ticks)) } }

/-- The lane's pattern begins now (R295). -/
def State.beginPattern (s : State) (l : Nat) : State :=
  { s with fh := { s.fh with gen := SMap.set (fun _ => 0) s.fh.gen l s.time.ticks } }

def State.prbsOn (s : State) (l : Nat) : Bool :=
  s.flag (Addr.lanePrbsCtrl l) Fld.lanePrbsCtrlGenEn || s.flag (Addr.lanePrbsCtrl l) Fld.lanePrbsCtrlChkEn

/-- The lane goes to TEST with its port down. -/
def State.startTest (s : State) (l : Nat) : State :=
  let s := (s.setLockStages l 0).setLaneState l Lane.test
  (s.fset (Addr.lanePrbsErr l) Fld.lanePrbsErrLock 0).portDown (s.portOf l)

/-- Both enables are 0: the test ends and the lane hunts again. -/
def State.stopTest (s : State) (l : Nat) : State := ((s.inject l none).restartHunt l).maintEnd 2 l Maint.done 0

/-- The accepted write of LANE_PRBS_CTRL takes effect. -/
def State.applyPrbs (s : State) (l v : Nat) : State :=
  let r := Addr.lanePrbsCtrl l
  let was := s.prbsOn l
  let chk := s.flag r Fld.lanePrbsCtrlChkEn
  let old := s.reg r
  let s := s.setReg r (prbsNew old v)
  let s := if bitsOf old.toNat 31 31 != bitsOf (s.reg r).toNat 31 31 || bitsOf old.toNat 29 27 != bitsOf (s.reg r).toNat 29 27 then
      s.beginPattern l else s
  let s := if chk && !s.flag r Fld.lanePrbsCtrlChkEn then s.fset (Addr.lanePrbsErr l) Fld.lanePrbsErrLock 0 else s
  let s := if bitOf v 26 then s.inject l (some 0) else s
  let s := if bitOf v 25 then s.inject l (some (burstLen (bitsOf v 6 0))) else s
  if was && !s.prbsOn l then s.stopTest l else s

/-- A write of LANE_PRBS_CTRL (R295 to R297, R449): an enable that rises starts activity 2 on a lane that is not in TEST. -/
def State.writePrbsCtrl (s : State) (l v : Nat) : State :=
  let r := Addr.lanePrbsCtrl l
  let rises := !s.prbsOn l && bitsOf v 31 30 != 0
  if !s.rwlOpen then
    let s := s.countIf (prbsChanges (s.reg r).toNat v) Addr.devRwlDenyCnt
    if rises then (s.maintStart 2 l (s.laneUsed l)).2 else s
  else if rises then
    let (ok, s) := s.maintStart 2 l (s.laneUsed l)
    if ok then (s.startTest l).applyPrbs l v else s
  else s.applyPrbs l v

/-- LANE_PRBS_ENABLE (R295). -/
def execLanePrbsEnable (l : Fin 64) (_who : Requester) (value : Word) (s : State) : Res :=
  State.done (s.writePrbsCtrl l value.toNat)

/-- INJ_ONE (R296): a write of LANE_PRBS_CTRL with INJ_ONE set. -/
def execInjOne (l : Fin 64) (_who : Requester) (value : Word) (s : State) : Res :=
  State.done (s.writePrbsCtrl l (value ||| 0x04000000).toNat)

/-- INJ_BURST (R296): a write of LANE_PRBS_CTRL with INJ_BURST set. -/
def execInjBurst (l : Fin 64) (_who : Requester) (value : Word) (s : State) : Res :=
  State.done (s.writePrbsCtrl l (value ||| 0x02000000).toNat)

/-- The degree of a pattern's polynomial and its other power (R295). -/
def prbsPowers : Nat → Nat × Nat
  | 0 => (7, 6)
  | 1 => (9, 5)
  | 2 => (15, 14)
  | 3 => (23, 18)
  | _ => (31, 28)

/-- The bit that follows those of a window, the latest first. -/
def prbsNext (pat : Nat) (w : List Bool) : Bool :=
  let (d, k) := prbsPowers pat
  w.getD (d - 1) false != w.getD (k - 1) false

/-- A window of the pattern's degree, n bits on. -/
def prbsRun (pat : Nat) : Nat → List Bool → List Bool
  | 0, w => w
  | n + 1, w => prbsRun pat n (prbsNext pat w :: w.dropLast)

/-- The window that the generator begins with: free, but not all zeros. -/
def prbsSeed (pat l start : Nat) : List Bool :=
  let w := (List.range (prbsPowers pat).1).map fun k => Config.prbsSeed l start k
  if w.any id then w else true :: w.tail

/-- The bit that follows the window once n bits have been sent. -/
def prbsBit (pat l start n : Nat) : Bool := prbsNext pat (prbsRun pat n (prbsSeed pat l start))

def State.pattern (s : State) (l : Nat) : Nat := s.fget (Addr.lanePrbsCtrl l) Fld.lanePrbsCtrlPattern
def State.userPattern (s : State) (l : Nat) : Nat := (s.reg (Addr.lanePrbsUser l)).toNat

/-- Bits of the pattern that a lane has sent at an edge count. -/
def State.bitsSent (s : State) (l ticks : Nat) : Nat :=
  (ticks - SMap.get (fun _ => 0) s.fh.gen l) * laneKbps (s.fget (Addr.laneCfg l) Fld.laneCfgRate) / 491520

/-- Bit n of the lane's pattern is inverted: INJ_ONE picks one of the 64 bits that follow its write, INJ_BURST inverts a run
that begins among them (R296). -/
def State.injected (s : State) (l n : Nat) : Bool :=
  match SMap.get (fun _ => (none : Option (Nat × Nat))) s.fh.inj l with
  | none => false
  | some (len, at_) =>
    let first := s.bitsSent l at_ + Config.injAt l at_ % 64
    decide (first ≤ n) && decide (n < first + max 1 len)

/-- Bit n that the generator of a lane sends, counted from the pattern's beginning (R295, R296). -/
def State.genBit (s : State) (l n : Nat) : Bool :=
  let b := if s.pattern l = 5 then bitOf (s.userPattern l) (n % 64) else prbsBit (s.pattern l) l (SMap.get (fun _ => 0) s.fh.gen l) n
  b != s.injected l n

/-- Symbol n of a PAM4 lane: a Gray-mapped pair of bits (R295). -/
def State.genSymbol (s : State) (l n : Nat) : Nat :=
  let a := s.genBit l (2 * n)
  let b := s.genBit l (2 * n + 1)
  2 * a.toNat + (a != b).toNat

/-- 128 received bits let the checker seed itself from the first 64 and find no error in the last 64 (R296): of a PRBS, each
bit follows from those before it, which are not all zeros; of the user pattern, all of them are its repetition from some
bit on. -/
def checkerSeeds (pat user rx : Nat) : Bool :=
  if pat = 5 then (List.range 64).any fun r => (List.range 128).all fun k => bitOf rx k == bitOf user ((k + r) % 64)
  else
    let (d, t) := prbsPowers pat
    (List.range 64).all (fun k => bitOf rx (64 + k) == (bitOf rx (64 + k - d) != bitOf rx (64 + k - t)))
      && (List.range d).any fun k => bitOf rx (63 - k)

/-- Bits in error are counted up to 2^48 − 1. -/
def State.addPrbsErr (s : State) (l n : Nat) : State :=
  let r := Addr.lanePrbsErr l
  s.fset r Fld.lanePrbsErrErr (min (s.fget r Fld.lanePrbsErrErr + n) (2 ^ 48 - 1))

def State.checks (s : State) (l : Nat) : Bool := s.flag (Addr.lanePrbsCtrl l) Fld.lanePrbsCtrlChkEn
def State.prbsLock (s : State) (l : Nat) : Bool := s.flag (Addr.lanePrbsErr l) Fld.lanePrbsErrLock

/-- PRBS_CHECKER_LOCK (R296): a checker not in lock locks where the received bits `rx` let it; `errs` bits in error have come
since. -/
def execPrbsCheckerLock (l : Fin 64) (rx : BitVec 128) (errs : BitVec 48) (s : State) : Res :=
  State.done (if s.checks l && (s.prbsLock l || checkerSeeds (s.pattern l) (s.userPattern l) rx.toNat) then
    (s.fset (Addr.lanePrbsErr l) Fld.lanePrbsErrLock 1).addPrbsErr l errs.toNat
  else s)

/-- PRBS_CHECKER_RESYNC (R296): after `errs` further bits in error, the bits that `last` names of 64 consecutive ones are in
error; lock is lost with 32 of them. -/
def execPrbsCheckerResync (l : Fin 64) (errs : BitVec 48) (last : BitVec 64) (s : State) : Res :=
  let bad := popcountN last.toNat 64
  State.done (if s.checks l && s.prbsLock l && decide (32 ≤ bad) then
    ((s.addPrbsErr l (errs.toNat + bad)).fset (Addr.lanePrbsErr l) Fld.lanePrbsErrLock 0).count (Addr.lanePrbsResyncCnt l)
  else s)

/-! ### Deep lane state (R298) -/

/-- DEEP_LANE_EXIT (R298, Table 12-8): the group's PLL and receivers have locked and the hunt starts. -/
def execDeepLaneExit (g : Fin 8) (s : State) : Res :=
  State.done (s.each (List.range 8) fun s k =>
    let l := 8 * g + k
    if s.laneUsed l && s.laneState l == Lane.waking then s.restartHunt l else s)

end Sys2Proof.Machine
end

