-- ==== Sys2Proof/Machine/Meridian.lean ====
section
/-! DEFINITION. Meridian: reads, steps and sets (R302, R303), calibration (R305, R384, R385), PTP and captures (R307 to
R310, R319), the time outputs (R316 to R318), the tuning DAC (R320 to R322) and the carrier contexts (R324 to R328). -/

namespace Sys2Proof.Machine

/-- No job is in flight (R303). -/
def State.noJobs (s : State) : Bool := s.jobsHeld == 0

/-- Meridian's value jumps: with no job in flight no booking is left in the calendars, and no frame or span of a launch
entry. -/
def State.jumpTo (s : State) (e : Nat) : State :=
  let s := { s with fh := { s.fh with free := [], cpri := [] } }
  (s.setMeridian (e / edgesPerSec) (e % edgesPerSec)).setCal []

/-- TIME_VALID changes: vector 72. The first PPS_OUT pulse once it is 1 is the next whole second's (R316). -/
def State.setTimeValid (s : State) (b : Bool) : State :=
  if s.timeValid = b then s
  else
    let s := if b then { s with servo := { s.servo with ppsFrom := s.time.sec + 1 } } else s
    (s.fset Addr.tbServoStat Fld.tbServoStatTimeValid (if b then 1 else 0)).hostEvent Evt.servo

/-- A read of TB_NS latches FRAC and SEC of the same edge for its reader (R302). -/
def State.latchTime (s : State) (dap : Bool) : State :=
  if dap then { s with time := { s.time with dapSec := s.time.sec, dapFrac := s.time.frac } }
  else
    (s.setReg Addr.tbFracL (BitVec.ofNat 64 s.time.frac)).setReg Addr.tbSecL (BitVec.ofNat 64 (s.time.sec % 2 ^ 48))

/-- TB_NS_READ (R302). -/
def execTbNsRead (who : Requester) (s : State) : Res := State.done (s.latchTime (who == .dap))

/-- A write of TB_SET (R303): with GO it is refused while a job is in flight. -/
def State.writeTbSet (s : State) (v : Nat) : State :=
  let s := s.fset Addr.tbSet Fld.tbSetSec (bitsOf v 47 0)
  if !bitOf v 63 then s
  else if !s.noJobs then s.count Addr.tbStepDenyCnt
  else { s with time := { s.time with setSec := some (bitsOf v 47 0) } }

/-- TB_SET (R303). -/
def execTbSet (value : DWord) (s : State) : Res := State.done (s.writeTbSet value.toNat)

/-- At the next second boundary SEC takes the written value; a set is taken only while no job is in flight. -/
def State.applySet (s : State) (sec : Nat) : State :=
  let s := s.advanceToEdge ((s.time.sec + 1) * edgesPerSec)
  let s := { s with time := { s.time with setSec := none } }
  if !s.noJobs then s.count Addr.tbStepDenyCnt
  else (s.jumpTo (sec * edgesPerSec + s.time.edge)).setTimeValid false

/-- TB_SET_APPLY (R303). -/
def execTbSetApply (s : State) : Res :=
  match s.time.setSec with
  | none => s.done
  | some sec => State.done (if s.time.counting then s.applySet sec else s)

/-- A write of TB_PTP_OFFS (R309). -/
def State.writePtpOffs (s : State) (who : Requester) (v : Nat) : State :=
  if isZelfa who then { s with servo := { s.servo with ptp := some (signed 64 v) } } else s.count Addr.tbWrDenyCnt

/-- TB_PTP_OFFS (R309). -/
def execTbPtpOffs (who : Requester) (value : DWord) (s : State) : Res := State.done (s.writePtpOffs who value.toNat)

/-! ### Calibration (R305, R384, R385, Tables 13-1 and 16-9) -/

/-- A calibration item: its FACT, USER and EFF registers, whether FACT and EFF are signed, and the USER and EFF limits. -/
structure CalItem where
  fact : Nat
  user : Nat
  eff : Nat
  signed' : Bool
  uMin : Int
  uMax : Int
  eMin : Int
  eMax : Int
  deriving DecidableEq, Repr

/-- The item with an ID and an index, if there is one. -/
def State.calItem (s : State) (id i : Nat) : Option CalItem :=
  let r := s.fget (Addr.laneCfg i) Fld.laneCfgRate
  match id with
  | 1 => if i < 64 then
      some ⟨Addr.ptpRxdlyFact i r, Addr.ptpRxdlyUser i, Addr.ptpRxdlyEff i, false, -32768, 32767, 0, 65535⟩ else none
  | 2 => if i < 64 then
      some ⟨Addr.ptpTxdlyFact i r, Addr.ptpTxdlyUser i, Addr.ptpTxdlyEff i, false, -32768, 32767, 0, 65535⟩ else none
  | 3 => if i = 0 then some ⟨Addr.tuneGainFact, Addr.tuneGainUser, Addr.tuneGainEff, true, -4096, 4096, -8192, 8192⟩ else none
  | 4 => if i = 0 then some ⟨Addr.tuneOffsFact, Addr.tuneOffsUser, Addr.tuneOffsEff, true, -1024, 1024, -2048, 2048⟩ else none
  | 5 => if i < 20 then
      some ⟨Addr.devTsensOffsFact i, Addr.devTsensOffsUser i, Addr.devTsensOffsEff i, true, -64, 64, -192, 192⟩ else none
  | 6 => if i = 0 then
      some ⟨Addr.pwrVsenseGainFact, Addr.pwrVsenseGainUser, Addr.pwrVsenseGainEff, true, -1311, 1311, -3932, 3932⟩ else none
  | 7 => if i < 40 then
      some ⟨Addr.pwrIsenseGainFact i, Addr.pwrIsenseGainUser i, Addr.pwrIsenseGainEff i, true, -1311, 1311, -7864, 7864⟩
    else none
  | _ => none

def clampInt (lo x hi : Int) : Int := max lo (min x hi)

/-- The value of a 16-bit register field. -/
def State.reg16 (s : State) (a : Nat) (sgn : Bool) : Int :=
  if sgn then signed 16 (s.reg a).toNat else ((s.reg a).toNat % 65536 : Nat)

/-- EFF = FACT + USER, saturated and counted. -/
def State.calMerge (s : State) (x : CalItem) : State :=
  let e := s.reg16 x.fact x.signed' + s.reg16 x.user true
  let s := s.countIf (e < x.eMin || x.eMax < e) Addr.devCalSatCnt
  s.setReg x.eff (BitVec.ofNat 64 (unsigned 16 (clampInt x.eMin e x.eMax)))

/-- USER takes a value, saturated to its range and counted, and EFF follows. -/
def State.calSet (s : State) (x : CalItem) (u : Int) : State :=
  let s := s.countIf (u < x.uMin || x.uMax < u) Addr.devCalSatCnt
  (s.setReg x.user (BitVec.ofNat 64 (unsigned 16 (clampInt x.uMin u x.uMax)))).calMerge x

/-- A write of a USER register, RWL (R385, R449): outside LOAD and SERVICE it counts where the saturated value differs from
the one held. -/
def State.writeCalUser (s : State) (x : CalItem) (v : Nat) : State :=
  if s.rwlOpen then s.calSet x (signed 16 v)
  else s.countIf (unsigned 16 (clampInt x.uMin (signed 16 v) x.uMax) != (s.reg x.user).toNat % 65536) Addr.devRwlDenyCnt

/-- CAL_USER_WRITE (R305): the item by its ID of Table 16-9 and its index. -/
def execCalUserWrite (item : Fin 8) (idx : BitVec 8) (value : Word) (s : State) : Res :=
  match s.calItem item idx.toNat with
  | none => s.done
  | some x => State.done (s.writeCalUser x value.toNat)

/-! ### PTP (R307, R308) -/

/-- Event messages: Sync, Delay_Req, Pdelay_Req and Pdelay_Resp. -/
def ptpEvent (m : PtpMsg) : Bool := m.type.val < 4

/-- Meridian's value n edges ago, in 2^-16 ns. -/
def Meridian.fineAgo (m : Meridian) (n : Nat) : Int :=
  let e := m.edges - n
  ((e / edgesPerSec * 65536000000000 + edgeFrac (e % edgesPerSec) : Nat) : Int)

def State.tcPort (s : State) (p : Nat) : Option Nat :=
  ((s.img.ptpPorts.find? fun e => e.1 == p).map fun e => e.2.tcFwd).bind fun q =>
    if q < 64 ∧ (s.portT q).isSome ∧ !s.isCpri q then some q else none

def State.ethUp (s : State) (p : Nat) : Bool := s.locked && (s.portT p).isSome && !s.isCpri p && s.portUp p

/-- Bytes of a PTP message's frame. -/
def ptpFrame (m : PtpMsg) : Nat := 18 + 9 + m.body.length

/-- PTP_TC_FORWARD (R307): the message was received `ago` CLK_TB edges before its frame starts, in a gap of the egress port
(R287). -/
def execPtpTcForward (p : Fin 64) (m : PtpMsg) (ago : BitVec 24) (rxPhase txPhase : BitVec 8) (s : State) : Res :=
  match s.tcPort p with
  | none => s.done
  | some q =>
    State.done (if !s.ethUp p || !s.ethUp q || m.udp || 491520 < ago.toNat || !s.gapFor q (ptpFrame m) then s
      else if ptpEvent m then
        let rx := s.time.fineAgo ago.toNat - rxPhase.toNat * 2048 - s.fget (Addr.ptpRxdlyEff p) Fld.ptpRxdlyEffValue * 256
        let c := unsigned 64 (m.correction.toNat + (s.txStamp q txPhase.toNat - rx))
        ((s.useGap q (ptpFrame m)).count Addr.ptpTcFwdCnt).emit (.ptp q m.type none c m.body)
      else (s.useGap q (ptpFrame m)).emit (.ptp q m.type none m.correction.toNat m.body))

/-- PTP_TC_DROP (R307). -/
def execPtpTcDrop (p : Fin 64) (s : State) : Res :=
  State.done (if (s.tcPort p).isSome && s.ethUp p then s.count Addr.ptpTcDropCnt else s)

/-- The image runs PTP on the port. -/
def State.ptpOn (s : State) (p : Nat) : Bool := (s.img.ptpPorts.find? fun e => e.1 == p).any fun e => e.2.en

/-- The port sends the device's own PTP messages; in SAFE only while time is valid (R299). -/
def State.ptpRuns (s : State) (p : Nat) : Bool := s.portTalks p && s.ptpOn p

/-- PTP_EVENT_RECEIVE (R308): the message waits for the Zelfa cores with its receive stamp. -/
def execPtpEventReceive (p : Fin 64) (m : PtpMsg) (phase : BitVec 8) (s : State) : Res :=
  let x : PtpRx := ⟨p, m.type, s.rxStamp p phase.toNat, s.timeValid, m.body⟩
  State.done (if s.ethUp p && s.ptpOn p && !m.udp then { s with fh := { s.fh with ptp := s.fh.ptp ++ [x] } }.latch 4 else s)

/-- PTP_MESSAGE_SEND (R308): in a gap of the port (R287); an event message carries SEC and NS of t_tx in originTimestamp, and FRAC joins correctionField. -/
def execPtpMessageSend (p : Fin 64) (m : PtpMsg) (phase : BitVec 8) (s : State) : Res :=
  let t := s.txStamp p phase.toNat
  let c := unsigned 64 (m.correction.toNat + t % 65536)
  let u := s.useGap p (ptpFrame m)
  State.done (if !s.ptpRuns p || m.udp || !s.gapFor p (ptpFrame m) then s
    else if ptpEvent m then u.emit (.ptp p m.type (some (t / 65536)) c m.body)
    else u.emit (.ptp p m.type none m.correction.toNat m.body))

/-! ### Captures (R319) -/

/-- A capture of channel k writes SEC, NS and FRAC of a time in 2^-16 ns. -/
def State.capture (s : State) (k : Nat) (t : Int) : State :=
  let a := Addr.tbCapSec k
  let held := s.flag a Fld.tbCapSecValid
  let n := t.toNat
  let s := ((s.fset a Fld.tbCapSecSec (n / 65536000000000)).fset a Fld.tbCapSecValid 1)
  let s := s.setReg (Addr.tbCapNs k) (BitVec.ofNat 64 (n % 65536000000000))
  if held then (s.fset a Fld.tbCapSecOvf 1).count Addr.tbCapOvfCnt else s

/-- Servo parameter j (Table 13-4). -/
def State.servoP (s : State) (j : Nat) : Nat := s.fget (Addr.tbServoP j) Fld.tbServoPValue

/-- A capture less PPS_IN_DLY, in 2^-16 ns. -/
def State.ppsTime (s : State) (t : Int) : Int := t - (s.servoP 14 % 65536 : Nat) * 256

/-- The time taken to the nearest second boundary and negated: reference minus Meridian (R312). -/
def ppsError (t : Int) : Int :=
  let r := t % 65536000000000
  if r ≤ 32768000000000 then -r else 65536000000000 - r

/-- PPS_IN_CAPTURE (R319): a rising edge, `phase` steps of 31.25 ps before the registering edge. -/
def execPpsInCapture (phase : BitVec 8) (s : State) : Res :=
  let t : Int := (s.time.fine : Int) - phase.toNat * 2048
  let s := s.capture 0 t
  State.done { s with servo := { s.servo with pps := some (ppsError (s.ppsTime t))
                                              lastPps := some (s.time.ticks, t.toNat) } }

/-- GPIO_CAPTURE (R319): an edge on GPIO g is captured into every enabled channel that selects it. -/
def execGpioCapture (g : Fin 32) (falling : Bool) (s : State) : Res :=
  State.done (s.each (List.range 4) fun s k =>
    let sel := (s.reg Addr.tbCapSel).toNat / 256 ^ k % 256
    if bitOf sel 7 && bitOf sel 6 == falling && sel % 32 == g.val then s.capture (k + 1) s.time.fine else s)

/-- PPS_IN_MISS (R319): no measurement is given. -/
def execPpsInMiss (s : State) : Res :=
  State.done ({ s with servo := { s.servo with pps := none, tod := none } }.count Addr.tbPpsMissCnt)

/-! ### Time outputs (R316, R318) -/

/-- PPS_OFF in ns. -/
def State.ppsOff (s : State) : Int := signed 32 (s.servoP 12)

/-- PPS_OUT is high. -/
def State.ppsOutHigh (s : State) : Bool := s.servo.ppsRise.any fun t => s.time.ticks < t + ceilDiv (s.servoP 13 * 12288) 25

/-- The second of the next pulse: none has risen for it at this edge, and it lies after TIME_VALID became 1. -/
def State.nextPps (s : State) : Int :=
  let d := (s.now : Int) - s.ppsOff
  let k := -((-d) / 1000000000)
  max s.servo.ppsFrom (if s.servo.ppsRise = some s.time.ticks ∧ d % 1000000000 = 0 then k + 1 else k)

/-- PPS_OUT_PULSE (R316): Meridian reaches the next second plus PPS_OFF. -/
def execPpsOutPulse (s : State) : Res :=
  let t := s.nextPps * 1000000000 + s.ppsOff
  State.done (if s.timeValid && s.time.counting then
    let s := s.advanceTo t.toNat
    { s with servo := { s.servo with ppsRise := some s.time.ticks } }.emitPad (.ppsPulse (t * 65536) (s.servoP 13))
  else s)

/-- The level of the ball SYNC_CLK_OUT at this edge: CLK_TB divided by 2^SCLK_DIV, rising at every second; it runs while the
root PLL is locked (R317), and is low while the pads are held (R365). -/
def State.syncClkOut (s : State) : Bool :=
  let n := s.servoP 15 % 16
  !s.padsHeld && s.locked && decide (s.time.edge % 2 ^ n < 2 ^ (n - 1))

/-- The bytes of a time-of-day message but its CRC (Table 13-6). -/
def todBody (flags sec utc cls : Nat) : List Byte :=
  leBytes 2 0x5AA5 ++ leBytes 1 1 ++ leBytes 1 flags ++ leBytes 6 sec ++ leBytes 2 utc ++ leBytes 1 cls ++ leBytes 1 0

/-- The second that the next message names: its message starts 10 ms after the second, or its pulse. -/
def State.nextTod (s : State) (off : Int) : Nat :=
  let k := (-((-((s.now : Int) - off)) / 1000000000)).toNat
  match s.servo.todSent with
  | some t => if k ≤ t then t + 1 else k
  | none => k

/-- TOD_TX_MESSAGE (R318): LEAP61 and LEAP59, UTC_OFFSET and CLOCK_CLASS come from the firmware. -/
def execTodTxMessage (leap : BitVec 2) (utc : BitVec 16) (cls : Byte) (s : State) : Res :=
  let off : Int := (if s.timeValid then s.ppsOff else 0) + 10000000
  let k := s.nextTod off
  State.done (if s.time.counting then
    let s := s.advanceTo ((k : Int) * 1000000000 + off).toNat
    let hold := s.fget Addr.tbServoStat Fld.tbServoStatState == 3
    let b := todBody (leap.toNat * 4 + (if hold then 2 else 0) + (if s.timeValid then 1 else 0)) k utc.toNat cls.toNat
    { s with servo := { s.servo with todSent := some k } }.emitPad (.tod (b ++ leBytes 2 (crc16 b)))
  else s)

/-- A message names the second of the last PPS_IN edge (R318). -/
def State.todRx (s : State) (m : Nat) : State :=
  let bad := s.count Addr.tbTodErrCnt
  match s.servo.lastPps with
  | none => bad
  | some (tick, t) =>
    let d := s.time.ticks - tick
    if crc16 (leBytes 14 m) ≠ recF m 0xE 15 0 ∨ d * 25 < 12288 * 10000 ∨ 12288 * 900000 < d * 25 then bad
    else if recF m 3 0 0 = 0 then s
    else { s with servo := { s.servo with tod := some ((recF m 4 47 0 : Nat) * 65536000000000 - s.ppsTime t) } }

/-- TOD_RX_MESSAGE (R318). -/
def execTodRxMessage (msg : BitVec 128) (s : State) : Res := State.done (s.todRx msg.toNat)

/-! ### Tuning DAC (R320, R321) -/

/-- The applied code for a written CODE (R320). -/
def State.appliedCode (s : State) (code : Nat) : Nat :=
  let g := s.reg16 Addr.tuneGainEff true
  (clampInt 0 ((code * (1048576 + g) + 524288) / 1048576 + s.reg16 Addr.tuneOffsEff true) 1048575).toNat

/-- TARGET = DAC. -/
def State.targetDac (s : State) : Bool := bitOf (s.servoP 9) 0

def State.dacCode (s : State) : Nat := s.fget Addr.tuneDacCode Fld.tuneDacCodeCode

/-- CODE waits for the next tick; the code of the cycles before this one is kept for a tick in this cycle (R321). -/
def State.putCode (s : State) (c : Nat) : State :=
  let prev := match s.servo.codeNew with
    | some (t, old) => if t = s.time.ticks then old else s.dacCode
    | none => s.dacCode
  let s := { s with servo := { s.servo with codeNew := some (s.time.ticks, prev) } }
  (s.fset Addr.tuneDacCode Fld.tuneDacCodeCode c).fset Addr.tuneDacCode Fld.tuneDacCodePend 1

/-- A write of TUNE_DAC_CODE (R321). -/
def State.writeDacCode (s : State) (who : Requester) (v : Nat) : State :=
  if isZelfa who && !s.targetDac then s.putCode (bitsOf v 19 0) else s.count Addr.tuneWrDenyCnt

/-- TUNE_DAC_WRITE (R321). -/
def execTuneDacWrite (who : Requester) (value : Word) (s : State) : Res := State.done (s.writeDacCode who value.toNat)

/-- A tick applies the CODE of the cycles before it, unless the output is at the safe word (R321, R322). -/
def State.dacTick (s : State) : State :=
  if s.mode = Mode.safe then s
  else
    let late := s.servo.codeNew.any fun x => x.1 == s.time.ticks
    let code := if late then (s.servo.codeNew.map (·.2)).getD 0 else s.dacCode
    let c := s.appliedCode code
    let s := (s.fset Addr.tuneDacCode Fld.tuneDacCodePend late.toNat).fset Addr.tuneDacCode Fld.tuneDacCodeSafe 0
    { s with servo := { s.servo with dacOut := c } }

/-! ### Carrier contexts (R327, R328) -/

/-- Enabled members of lock group g. -/
def State.lgMembers (s : State) (g : Nat) : List Nat :=
  (List.range 64).filter fun n => (s.ctx n).enabled && (s.ctx n).grouped && (s.ctx n).lg == g

/-- What commits together under a key: context n itself, or the members of lock group g. -/
def State.commitSet (s : State) (group : Bool) (n : Nat) : List Nat :=
  if group then s.lgMembers n else if (s.ctx n).enabled && !(s.ctx n).grouped then [n] else []

/-- The slot grid of the boundaries (R327). -/
def State.commitGrid (s : State) (group : Bool) (n : Nat) : CtxT :=
  let c := s.ctx ((s.commitSet group n).headD 0)
  if group then
    let mu := SMap.get (fun _ => 0) s.img.lgMu n
    { c with mu := mu, ecp := c.ecp && 2 ≤ mu }
  else c

def commitReg (group : Bool) (n : Nat) : Nat := if group then Addr.tbLgCommit n else Addr.tbCtxCommit n
def commitKey (group : Bool) (n : Nat) : Nat := if group then 64 + n else n

def State.ctxArmed (s : State) (group : Bool) (n : Nat) : Bool := s.flag (commitReg group n) Fld.tbCtxCommitCommit

/-- This CLK_TB edge is a boundary of the grid. -/
def State.atBoundary (s : State) (c : CtxT) : Bool :=
  edgesAt (slotStart c (slotAt c s.now)).toNat == s.time.edges

/-- COMMIT was set before this edge. -/
def State.armedBefore (s : State) (key : Nat) : Bool := SMap.get (fun _ => 0) s.time.armed key ≤ s.time.ticks

/-- Meridian reaches the boundary at which the commit is due. -/
def State.toCommit (s : State) (group : Bool) (n : Nat) : State :=
  let c := s.commitGrid group n
  if s.atBoundary c && s.armedBefore (commitKey group n) then s else s.advanceTo (nextSlot c s.now)

/-- Every profile of the set is declared. -/
def State.profilesOk (s : State) (l : List Nat) : Bool :=
  l.all fun n => bitOf (s.ctx n).profiles (s.fget (Addr.tbCtxSh n) Fld.tbCtxShProfile)

/-- The copy, or the refusal of the whole set (R327). -/
def State.commitCopy (s : State) (group : Bool) (n : Nat) : State :=
  let l := s.commitSet group n
  let r := commitReg group n
  let s := s.fset r Fld.tbCtxCommitCommit 0
  if s.profilesOk l then
    (s.each l fun s n =>
      let a := Addr.tbCtxAct n
      (s.fset a Fld.tbCtxActProfile (s.fget (Addr.tbCtxSh n) Fld.tbCtxShProfile)).fset a Fld.tbCtxActCommits
        (s.fget a Fld.tbCtxActCommits + 1)).count Addr.tbCtxCommitCnt
  else (s.fset r Fld.tbCtxCommitBadset 1).count Addr.tbCtxBadsetCnt

/-- CTX_SLOT_COMMIT (R327): context n, or lock group n. -/
def execCtxSlotCommit (group : Bool) (n : Fin 64) (s : State) : Res :=
  State.done (if (!group || n.val < 16) && s.ctxArmed group n && !(s.commitSet group n).isEmpty && s.time.counting then
    (s.toCommit group n).commitCopy group n
  else s)

def State.ctxDeny (s : State) : State := s.count Addr.tbCtxWrDenyCnt

/-- The copy of a boundary at this edge comes before a shadow or COMMIT write of its cycle, which counts toward the next
boundary (R327). -/
def State.copyDue (s : State) (group : Bool) (n : Nat) : State :=
  if s.ctxArmed group n && !(s.commitSet group n).isEmpty && s.time.counting && s.armedBefore (commitKey group n)
      && s.atBoundary (s.commitGrid group n) then
    s.commitCopy group n
  else s

/-- A shadow write while COMMIT = 1 clears it and sets TORN (R327). -/
def State.tearCtx (s : State) (n : Nat) : State :=
  let g := (s.ctx n).grouped
  let k := if g then (s.ctx n).lg else n
  let s := s.copyDue g k
  if s.ctxArmed g k then
    ((s.fset (commitReg g k) Fld.tbCtxCommitCommit 0).fset (commitReg g k) Fld.tbCtxCommitTorn 1).count Addr.tbCtxTornCnt
  else s

/-- A write of TB_CTX_SH (R327, R328). -/
def State.writeCtxSh (s : State) (n : Nat) (who : Requester) (v : Nat) : State :=
  if !isHostOrZelfa who || !(s.ctx n).enabled then s.ctxDeny
  else (s.tearCtx n).fset (Addr.tbCtxSh n) Fld.tbCtxShProfile (bitsOf v 2 0)

/-- TB_CTX_SH_WRITE (R327). -/
def execTbCtxShWrite (n : Fin 64) (who : Requester) (value : Word) (s : State) : Res :=
  State.done (s.writeCtxSh n who value.toNat)

/-- An accepted write of a commit register: BADSET and TORN clear by 1, COMMIT sets by 1. -/
def State.writeCommit (s : State) (group : Bool) (n v : Nat) : State :=
  let r := commitReg group n
  let s := s.copyDue group n
  let s := if bitOf v 2 then s.fset r Fld.tbCtxCommitBadset 0 else s
  let s := if bitOf v 1 then s.fset r Fld.tbCtxCommitTorn 0 else s
  if !bitOf v 0 || s.ctxArmed group n then s
  else
    let s := s.fset r Fld.tbCtxCommitCommit 1
    { s with time := { s.time with
        armed := SMap.set (fun _ => 0) s.time.armed (commitKey group n) (s.time.ticks + 1) } }

/-- A write of TB_CTX_COMMIT (R328). -/
def State.writeCtxCommit (s : State) (n : Nat) (who : Requester) (v : Nat) : State :=
  if !isHostOrZelfa who || !(s.ctx n).enabled || ((s.ctx n).grouped && bitOf v 0) then s.ctxDeny
  else s.writeCommit false n v

/-- TB_CTX_COMMIT (R328). -/
def execTbCtxCommit (n : Fin 64) (who : Requester) (value : Word) (s : State) : Res :=
  State.done (s.writeCtxCommit n who value.toNat)

/-- A write of TB_LG_COMMIT (R327, R328). -/
def State.writeLgCommit (s : State) (g : Nat) (who : Requester) (v : Nat) : State :=
  if !isHostOrZelfa who then s.ctxDeny else s.writeCommit true g v

/-- TB_LG_COMMIT (R327). -/
def execTbLgCommit (g : Fin 16) (who : Requester) (value : Word) (s : State) : Res :=
  State.done (s.writeLgCommit g who value.toNat)

end Sys2Proof.Machine
end

