-- ==== Sys2Proof/Machine/Servo.lean ====
section
/-! DEFINITION. The servo (R310 to R315): sources, the phase error, the frequency, the states of Table 13-5 and holdover.
Frequencies are exact integers in 2^-47 of 10^-15. -/

namespace Sys2Proof.Machine

def Sv.freerun : Nat := 0
def Sv.acquiring : Nat := 1
def Sv.locked : Nat := 2
def Sv.holdover : Nat := 3
def Sv.expired : Nat := 4

def State.svState (s : State) : Nat := s.fget Addr.tbServoStat Fld.tbServoStatState
def State.svSrc (s : State) : Nat := s.fget Addr.tbServoStat Fld.tbServoStatSrc

def State.modServo (s : State) (f : Servo → Servo) : State := { s with servo := f s.servo }

/-- The servo's state changes: vector 72. -/
def State.setSvState (s : State) (st : Nat) : State :=
  if s.svState = st then s else (s.fset Addr.tbServoStat Fld.tbServoStatState st).hostEvent Evt.servo

/-! ### Sources (R310, R311) -/

def Servo.meas (v : Servo) : Nat → Option Int
  | 1 => v.ptp
  | 2 => v.pps
  | 3 => v.tod
  | _ => none

def Servo.age (v : Servo) : Nat → Nat
  | 1 => v.agePtp
  | 2 => v.agePps
  | 3 => v.ageTod
  | _ => 255

def newAge (m : Option Int) (age : Nat) : Nat := if m.isSome then 0 else min 255 (age + 1)

/-- Ticks without a measurement, of each source. -/
def Servo.aged (v : Servo) : Servo :=
  { v with agePtp := newAge v.ptp v.agePtp, agePps := newAge v.pps v.agePps, ageTod := newAge v.tod v.ageTod }

/-- The highest-ranked valid source, 0 for none. -/
def State.pickSource (s : State) : Nat :=
  let ranks := [bitsOf (s.servoP 9) 3 2, bitsOf (s.servoP 9) 5 4, bitsOf (s.servoP 9) 7 6]
  (ranks.find? fun k => k != 0 && s.servo.age k < s.servoP 6).getD 0

/-- A SyncE candidate is valid (R310). -/
def State.seValid (s : State) (p : Nat) (m : SyncMeas) : Bool :=
  p < 64 && (s.portT p).isSome && !s.isCpri p && s.portUp p && !s.los p && m.ok && m.offs.natAbs ≤ 10000000

/-- The selected SyncE port and its offset. -/
def State.pickSe (s : State) (se : List SyncMeas) : Option (Nat × Int) :=
  ((List.range 4).filterMap fun k => match s.img.seCand[k]?, se[k]? with
    | some p, some m => if s.seValid p m then some (p, m.offs) else none
    | _, _ => none).head?

/-! ### Frequencies -/

/-- One ppb in the servo's units. -/
def ppb : Int := 1000000 * 2 ^ 47

def State.pull (s : State) : Int := (s.servoP 3 : Int) * ppb

def State.clampPull (s : State) (x : Int) : Int := clampInt (-s.pull) x s.pull

/-- I_k (R312). -/
def State.nextI (s : State) (e : Int) : Int :=
  s.clampPull (s.servo.i + (s.servoP 2 : Int) * e * 1000000 * (128 / s.servoP 0 : Nat))

/-- y_k (R312). -/
def State.nextY (s : State) (e i f : Int) : Int := s.clampPull ((s.servoP 1 : Int) * e * 1000000 * 32768 + i + f)

/-- Division to the nearest, halves away from 0. -/
def roundDiv (a b : Int) : Int := if 0 ≤ a then (2 * a + b) / (2 * b) else -((2 * (-a) + b) / (2 * b))

/-- |e| at most n ps, and at most n ns. -/
def withinPs (e : Int) (n : Nat) : Bool := e.natAbs * 1000 ≤ n * 65536
def withinNs (e : Int) (n : Nat) : Bool := e.natAbs ≤ n * 65536

/-! ### States (Table 13-5) -/

/-- LOCKED is left: the holdover timer starts (R314). -/
def State.startTimer (s : State) : State := s.modServo fun v => { v with timerRun := true, timerStart := s.time.ticks }

/-- LOCKED is entered. -/
def State.enterLocked (s : State) : State :=
  let s := s.modServo fun v => { v with timerRun := false, lockedTicks := 0, bad := 0 }
  (s.setSvState Sv.locked).setTimeValid true

def State.toAcquiring (s : State) : State := (s.modServo fun v => { v with good := 0 }).setSvState Sv.acquiring

def State.toHoldover (s : State) : State := (s.setSvState Sv.holdover).count Addr.tbHoldCnt

/-- What the source in use does to the state; `old` is the source of the last tick. -/
def State.sourceEvent (s : State) (old src : Nat) : State :=
  let st := s.svState
  if st = Sv.locked then
    if src = 0 then s.startTimer.toHoldover
    else if src ≠ old then (s.startTimer.count Addr.tbLockLossCnt).toAcquiring
    else s
  else if st = Sv.acquiring then
    if src = 0 then (if s.timeValid then s.toHoldover else s.setSvState Sv.freerun) else s
  else if src ≠ 0 then s.toAcquiring else s

/-- What a phase error does to the state. -/
def State.errorEvent (s : State) (e : Int) : State :=
  if s.svState = Sv.acquiring then
    let n := if withinPs e (s.servoP 4 % 65536) then s.servo.good + 1 else 0
    let s := s.modServo fun v => { v with good := n }
    if 16 ≤ n then s.enterLocked else s
  else if s.svState = Sv.locked then
    let n := if withinPs e (s.servoP 4 / 65536) then 0 else s.servo.bad + 1
    let s := s.modServo fun v => { v with bad := n }
    if 4 ≤ n then (s.startTimer.count Addr.tbLockLossCnt).toAcquiring else s
  else s

/-! ### The tick (R312, R313, R315) -/

/-- A step of e, to the nearest whole three-edge cycle (R303). -/
def State.stepBy (s : State) (e : Int) : State :=
  (s.jumpTo ((s.time.edges : Int) + 3 * roundDiv e 400000).toNat).setTimeValid false

/-- With a phase error: a step, a slew, or the loop filter. -/
def State.steer (s : State) (e f : Int) : State :=
  let acquiring := s.svState == Sv.acquiring
  if 65536000000000 ≤ (e.natAbs : Int) then s
  else if acquiring && !withinNs e (s.servoP 5) then
    if s.noJobs then (s.stepBy e).modServo fun v => { v with y := s.nextY 0 v.i f }
    else (s.count Addr.tbSlewCnt).modServo fun v => { v with y := if 0 ≤ e then s.pull else -s.pull }
  else
    let i := s.nextI e
    s.modServo fun v => { v with i := i, y := s.nextY e i f }

/-- y held at y_hold, with F in hybrid operation (R315). -/
def State.holdY (s : State) (f : Int) : State := s.modServo fun v => { v with y := v.yHold + f }

/-- A tick of a valid source that gives no measurement: y is kept, and follows F in hybrid operation (R312). -/
def State.coastY (s : State) (hybrid : Bool) (f : Int) : State :=
  if hybrid then s.modServo fun v => { v with y := s.clampPull (v.i + f) } else s

/-- While LOCKED, y_hold is the mean of y over the last HOLD_AVG ticks in LOCKED. -/
def State.learn (s : State) : State :=
  if s.svState = Sv.locked then
    s.modServo fun v =>
      let h := (v.y :: v.hist).take (s.servoP 7)
      { v with hist := h, yHold := roundDiv h.sum (max 1 h.length), lockedTicks := v.lockedTicks + 1 }
  else s

/-- The holdover record (R315, Table 16-11): y_hold in 10^-15 and the count of ticks it averages. -/
def State.saveHold (s : State) : State :=
  let due := s.servo.holdSavedAt.all fun t => t + 900 * edgesPerSec ≤ s.time.ticks
  if s.svState = Sv.locked ∧ s.servoP 7 ≤ s.servo.lockedTicks ∧ due then
    let p := recP 0 0 (unsigned 64 (roundDiv s.servo.yHold (2 ^ 47))) + recP 8 0 (s.servo.hist.length % 2 ^ 32)
    (s.modServo fun v => { v with holdSavedAt := some s.time.ticks }).journal 1 p
  else s

/-- The frequency, rounded to 10^-15, goes to the words of the root PLL and of every lane-group PLL; with TARGET = DAC they
stay nominal and CODE takes it (R313). -/
def State.applyY (s : State) : State :=
  let y := roundDiv s.servo.y (2 ^ 47)
  let s := s.setReg Addr.tbServoFreq (BitVec.ofNat 64 (unsigned 64 y))
  let s := s.modServo fun v => { v with pll := List.replicate 17 (if s.targetDac then 0 else y) }
  if s.targetDac then
    let d := roundDiv (s.servo.y * signed 32 (s.servoP 11)) (ppb * 256)
    s.putCode (clampInt 0 ((s.servoP 10 : Int) + d) 1048575).toNat
  else s

/-- The source in use and the hybrid bit are shown; a change of the source counts. -/
def State.showSource (s : State) (src : Nat) (se : Option (Nat × Int)) : State :=
  let s := s.countIf (s.svSrc != src) Addr.tbSrcSwitchCnt
  let s := s.fset Addr.tbServoStat Fld.tbServoStatSrc src
  match se with
  | some (p, _) => (s.fset Addr.tbServoStat Fld.tbServoStatHybrid 1).fset Addr.tbServoStat Fld.tbServoStatSePort p
  | none => s.fset Addr.tbServoStat Fld.tbServoStatHybrid 0

/-- The loop of one tick, at its edge. -/
def State.servoLoop (s : State) (se : List SyncMeas) : State :=
  let s := s.dacTick
  let s := s.modServo Servo.aged
  let hyb := if bitOf (s.servoP 9) 1 then s.pickSe se else none
  let f := ((hyb.map (·.2)).getD 0) * 1000 * 2 ^ 47
  let src := s.pickSource
  let old := s.svSrc
  let e := s.servo.meas src
  let s := (s.showSource src hyb).sourceEvent old src
  let s := match e with
    | some e => ((s.setReg Addr.tbServoErr (BitVec.ofNat 64 (unsigned 64 e))).steer e f).errorEvent e
    | none => if src = 0 then s.holdY f else s.coastY hyb.isSome f
  let s := s.learn.saveHold.applyY
  (s.modServo fun v => { v with ptp := none, pps := none, tod := none }).latch 5

/-- CLK_TB edges between ticks (R312). -/
def State.tickEdges (s : State) : Nat := edgesPerSec / s.servoP 0

/-- Meridian reaches the next tick: this edge, if no tick has run at it. -/
def State.toTick (s : State) : State :=
  let n := s.tickEdges
  let here := s.time.edges % n == 0 && s.servo.lastTick != some s.time.ticks
  if here then s else s.advanceToEdge ((s.time.edges / n + 1) * n)

/-- SERVO_TICK (R312): `se` is what the tick finds of the SyncE candidates, in the image's order. -/
def execServoTick (se : List SyncMeas) (s : State) : Res :=
  State.done (if !s.time.counting || s.servoP 0 = 0 then s
    else
      let s := s.toTick
      (s.servoLoop se).modServo fun v => { v with lastTick := some s.time.ticks })

/-! ### Holdover expiry (R314) -/

/-- Seconds of the holdover timer (TB_HOLD). -/
def State.holdElapsed (s : State) : Nat :=
  if s.servo.timerRun then (s.time.ticks - s.servo.timerStart) / edgesPerSec else 0

/-- HOLDOVER_EXPIRED (R314): the timer exceeds HOLD_MAX in ACQUIRING or HOLDOVER. -/
def execHoldoverExpired (s : State) : Res :=
  let st := s.svState
  State.done (if s.servo.timerRun && (st == Sv.acquiring || st == Sv.holdover) && s.time.counting then
    let s := s.advanceToTick (s.servo.timerStart + s.servoP 8 * edgesPerSec + 1)
    let s := ((s.setSvState Sv.expired).setTimeValid false).count Addr.tbExpiredCnt
    s.doubt Doubt.timeHold
  else s)

end Sys2Proof.Machine
end

