-- ==== Sys2Proof/Machine/HostPort.lean ====
section
/-! DEFINITION. The CXL port (R330 to R349): the link and its loss, configuration space, BAR2, the host mover's HX_BW stages,
the queue registers and the grace timer. -/

namespace Sys2Proof.Machine

/-! ### The link (R330, R331, R347) -/

/-- HX_LINK in 64-byte units per bin (Table 14-1). -/
def hxLinkUnits (rate width : Nat) : Nat := [0, 0, 432, 864, 1728, 3456].getD rate 0 * (width / 4)

def State.hxUnderrated (s : State) (x : HxLink) : Bool :=
  decide (x.rate.val < s.img.hxMinRate ∨ x.width.val < s.img.hxMinWidth)

/-- HX_LINK_STAT after a training, and the count of an underrated one (R331). -/
def State.hxTrained (s : State) (x : HxLink) : State :=
  let st := Addr.hxLinkStat
  let s := (s.fset st Fld.hxLinkStatCxl (if x.cxl then 1 else 0)).fset st Fld.hxLinkStatRate x.rate
  let s := (s.fset st Fld.hxLinkStatWidth x.width).fset st Fld.hxLinkStatReversed (if x.reversed then 1 else 0)
  let s := s.fset st Fld.hxLinkStatHxLink (hxLinkUnits x.rate x.width)
  let bad := s.hxUnderrated x
  let s := s.fset st Fld.hxLinkStatUnderrate (if bad then 1 else 0)
  let s := { s with host := { s.host with dlActive := true } }
  s.countIf bad Addr.hxUnderrateCnt

/-- The link may return: DL_Active, not underrated, Bus Master Enable set, D0 (R347). -/
def State.linkMayReturn (s : State) : Bool :=
  s.host.dlActive && s.host.ready && !s.host.perst && !s.flag Addr.hxLinkStat Fld.hxLinkStatUnderrate && s.busMaster
    && !s.d3hot

/-- The link returns if it may: the timer stops, vector 75, then the vectors that waited, in ascending order (R347, R348). -/
def State.linkReturn (s : State) : State :=
  if s.linkUp || !s.linkMayReturn then s
  else
    let s := (s.fset Addr.hxLinkStat Fld.hxLinkStatUp 1).stopGrace
    let lost := s.host.lost
    let pend := (List.range 16).filter fun v => s.host.pendEvt.contains v
    let s := { s with host := { s.host with lost := false, pendEvt := [] } }
    let s := if lost then s.hostEvent Evt.linkBack else s
    s.each pend fun s v => if s.flag Addr.hxEvtCause (Fld.cause v) then s.sendMsix (64 + v) else s

def State.startGraceIn (s : State) : State := if modeKeepsGrace s.mode then s.startGrace else s

/-- A loss is declared (R347, R348). -/
def State.linkLoss (s : State) : State :=
  if !s.linkUp then s
  else
    let s := (s.fset Addr.hxLinkStat Fld.hxLinkStatUp 0).count Addr.hxLossCnt
    ({ s with host := { s.host with lost := true } }).startGraceIn

/-- Configuration space goes to its defaults (R347, R349). -/
def State.resetCfg (s : State) : State :=
  { s with host := { s.host with cfg := [] } }.fset Addr.hxLinkStat Fld.hxLinkStatAtsEn 0

/-- The host lanes and HX_PERST_N's input are powered (R366). -/
def State.hxPowered (s : State) : Bool := s.mode != Mode.off && s.mode != Mode.deep

/-- HOST_LINK_LOSS (R347): 0 DL_Active is left, 1 the function enters D3hot, 2 the link has trained as `x` gives. -/
def execHostLinkLoss (cause : Fin 3) (x : HxLink) (s : State) : Res :=
  if !s.hxPowered then s.done
  else if cause = 0 then
    State.done ({ s with host := { s.host with dlActive := false } }.linkLoss).resetCfg
  else if cause = 1 then
    let pm := SMap.get cfgDflt s.host.cfg 0x044 ||| 3
    let s := { s with host := { s.host with cfg := SMap.set cfgDflt s.host.cfg 0x044 pm } }
    State.done s.linkLoss
  else
    let s := s.hxTrained x
    State.done (if s.hxUnderrated x then s.linkLoss else s)

/-- HOST_LINK_RETURN (R347, R348): the link has trained as `x` gives and is DL_Active. -/
def execHostLinkReturn (x : HxLink) (s : State) : Res :=
  if s.host.perst || !s.host.ready || !s.hxPowered then s.done else State.done (s.hxTrained x).linkReturn

/-- GRACE_TIMER_EXPIRY (R348): the image's grace period after the timer's start. -/
def execGraceTimerExpiry (s : State) : Res :=
  match s.host.graceStart with
  | none => s.done
  | some t => State.done (((s.advanceToTick (t + s.img.graceMs * 491520)).stopGrace).doubt Doubt.hostLost)

/-- What HX_PERST_N resets: MSI-X, HX_WIN, the queue registers and HX_EVT_CAUSE (R349). -/
def State.resetPort (s : State) : State :=
  let r := s.regs
  let r := SMap.clearRange r 0x41400010 0x41400018
  let r := SMap.clearRange r 0x41401000 0x41404000
  let r := SMap.clearRange r 0x41410000 0x41412000
  ({ s with regs := r, host := { s.host with ats := [], pendEvt := [] } }).resetCfg

/-- HX_PERST_ASSERT (R349, Table 14-4, steps 1 and 2); in DEEP and OFF the pin is ignored, and only its level is known when
the port is powered again (R366). -/
def execHxPerstAssert (s : State) : Res :=
  if s.host.perst then s.done
  else if !s.hxPowered then State.done { s with host := { s.host with perst := true } }
  else
    let s := s.count Addr.hxPerstCnt
    let s := { s with host := { s.host with perst := true, ready := false, dlActive := false } }
    let s := if s.linkUp then s.linkLoss else if s.host.lost then s.startGraceIn else s
    State.done s.resetPort

/-- HX_PERST_RELEASE (R349, Table 14-4, step 3). -/
def execHxPerstRelease (s : State) : Res :=
  if !s.host.perst then s.done
  else if !s.hxPowered then State.done { s with host := { s.host with perst := false } }
  else State.done ({ s with host := { s.host with perst := false } }).stopGrace

/-- HX_PORT_READY (R349, Table 14-4, step 5): the port has trained and completes configuration requests; the timer restarts
in full. -/
def execHxPortReady (x : HxLink) (s : State) : Res :=
  if s.host.perst || !s.hxPowered then s.done
  else
    let s := s.hxTrained x
    let s := { s with host := { s.host with ready := true } }
    let s := if s.host.lost && !s.linkUp then s.startGraceIn else s
    State.done s.linkReturn

/-! ### Configuration space (R332, R349) -/

/-- The word a configuration read returns. -/
def State.cfgRead (s : State) (o : Nat) : Word :=
  if o = 0x02C then BitVec.ofNat 32 (0x1F6A + s.img.subsysId % 65536 * 65536)
  else if o = 0x144 then BitVec.ofNat 32 (s.reg Addr.devSerial).toNat
  else if o = 0x148 then BitVec.ofNat 32 (0x1F6A0000 + (s.reg Addr.devSerial).toNat / 2 ^ 32 % 65536)
  else SMap.get cfgDflt s.host.cfg o

/-- Bits that a configuration write changes (PRESUMED layouts of the PCIe standard). -/
def cfgWritable (o : Nat) : Nat :=
  if o = 0x004 then 0x00000546
  else if o = 0x010 then 0xFC000000
  else if o = 0x014 then 0xFFFFFFFF
  else if o = 0x018 then 0xFE000000
  else if o = 0x01C then 0xFFFFFFFF
  else if o = 0x044 then 0x00000003
  else if o = 0x050 then 0xC0000000
  else if o = 0x154 then 0x801F0000
  else 0

/-- The bits that four byte enables cover. -/
def beMask (be : BitVec 4) : Nat :=
  (List.range 4).foldl (fun a i => if be.getLsbD i then a + 255 * 2 ^ (8 * i) else a) 0

/-- The masked messages that are pending and no longer masked leave (R346). -/
def State.flushMsix (s : State) : State :=
  s.each (List.range 80) fun s v =>
    let a := Addr.hxMsixPba (v / 64)
    if s.flag a (Fld.pendBit v) && s.msixEnable && !s.msixFuncMask && !s.flag (Addr.hxMsixData v) Fld.hxMsixDataMask
    then (s.fset a (Fld.pendBit v) 0).sendMsix v
    else s

/-- A configuration write, and what it does to the link: D3hot is a loss; D0 and Bus Master Enable may return it (R347). -/
def State.cfgWrite (s : State) (o : Nat) (v : Word) (be : BitVec 4) : State :=
  let m : Word := BitVec.ofNat 32 (cfgWritable o) &&& BitVec.ofNat 32 (beMask be)
  let old := SMap.get cfgDflt s.host.cfg o
  let s := { s with host := { s.host with cfg := SMap.set cfgDflt s.host.cfg o ((old &&& ~~~m) ||| (v &&& m)) } }
  let s := s.fset Addr.hxLinkStat Fld.hxLinkStatAtsEn (if s.atsEnable then 1 else 0)
  let s := s.flushMsix
  if s.d3hot then s.linkLoss else s.linkReturn

/-- CONFIGURATION_REQUEST (R349): Retry Status until the port is ready. -/
def execConfigurationRequest (write : Bool) (off : BitVec 10) (value : Word) (be : BitVec 4) (s : State) : Res :=
  let o := 4 * off.toNat
  if s.host.perst || !s.hxPowered then s.done
  else if !s.host.ready then State.done (s.emit (.cfgRsp true 0))
  else if write then State.done ((s.cfgWrite o value be).emit (.cfgRsp false 0))
  else State.done (s.emit (.cfgRsp false (s.cfgRead o)))

/-! ### BAR2 (R334) -/

/-- The host reaches the device's memory space. -/
def State.hostReaches (s : State) : Bool := s.host.dlActive && s.host.ready && s.memSpace && !s.d3hot && !s.host.perst

/-- All ones, as the trained mode indicates a refusal (R334). -/
def State.bar2Refuse (s : State) (write : Bool) (n : Nat) : State :=
  let s := s.count Addr.hxBar2ErrCnt
  if write then s
  else s.emit (.hostRsp (List.replicate n 0xFF) (if s.flag Addr.hxLinkStat Fld.hxLinkStatCxl then 1 else 3))

/-- An access to n bytes of a mapped bank as identity HOST; a read that meets a same-cycle write of the word returns
undefined data (R216, R334). -/
def State.bar2Bank (s : State) (write : Bool) (a n : Nat) (data : BitVec 512) (poison : Bool)
    (other : Option PortAccess) : State :=
  if write then
    let d := (leBytes n data.toNat).map fun b => (b, poison)
    let (ok, _, s) := s.withPort false true a n other fun s => s.writeBank [Ident.host] a d
    if ok then s else s.bar2Refuse true n
  else
    let (r, busy, s) := s.withPort false false a n other fun s => s.readBank [Ident.host] a n
    match r with
    | none => s.bar2Refuse false n
    | some d =>
      let bad := if s.flag Addr.hxLinkStat Fld.hxLinkStatCxl then 1 else 2
      if busy then
        let (v, s) := s.free 64
        s.emit (.hostRsp ((List.range n).map fun i => BitVec.ofNat 8 (v.toNat / 256 ^ (i % 8))) 0)
      else s.emit (.hostRsp (bytesOf d) (if anyPoison d then bad else 0))

/-- BAR2_ACCESS (R334): slot off / 64 KiB names the bank; a write carries its poison mark (R222). -/
def execBar2Access (write : Bool) (off : BitVec 25) (len : Fin 65) (data : BitVec 512) (poison : Bool)
    (other : Option PortAccess) (s : State) : Res :=
  if !s.hostReaches then State.done (if write then s else s.emit (.hostRsp (List.replicate len 0xFF) 3))
  else
    let m := Addr.hxBar2Map (off.toNat / 65536)
    let o := off.toNat % 65536
    let n := min len.val (65536 - o)
    if !s.flag m Fld.hxBar2MapValid then State.done (s.bar2Refuse write n)
    else
      let key := s.fget m Fld.hxBar2MapBlock * 256 + s.fget m Fld.hxBar2MapBank
      if !bankValid key then State.done (s.bar2Refuse write n)
      else State.done (s.bar2Bank write (bankBase key + o) n data poison other)

/-! ### The host mover (R338 to R340) -/

/-- A transfer cut into 64-byte host lines. -/
def hostLines (toOut : Bool) : Nat → Nat → Nat → Nat → List HxUnit
  | 0, _, _, _ => []
  | f + 1, a, h, n =>
    if n = 0 then []
    else
      let k := min n (64 - h % 64)
      { addr := a, host := h, len := k, toOut := toOut } :: hostLines toOut f (a + k) (h + k) (n - k)

/-- The bytes of a transfer that lie in the output area, and the rest, which CLIPPED reports (Table 02-10). -/
def xferLen (j : Job) (x : HxXfer) : Nat :=
  if x.toOut then min x.len.toNat (j.outLen - x.host.toNat) else x.len.toNat

def xferLines (j : Job) (x : HxXfer) : List HxUnit :=
  let h := if x.toOut then j.outAddr + x.host.toNat else x.host.toNat
  hostLines x.toOut (xferLen j x / 64 + 2) x.addr.toNat h (xferLen j x)

/-- One output unit: read from its bank as the mover, written to host memory, zero where a bank refuses the read or the
data is poisoned (R37, R340); answers whether it was. -/
def State.moveOut (s : State) (h : Nat) (ids : List Ident) (transOk wrOk : Bool) (u : HxUnit) : Bool × State :=
  let (d, s) := s.readBank ids u.addr u.len
  let bad := d.all anyPoison
  let data := if bad then List.replicate u.len 0 else (d.map bytesOf).getD []
  if !s.linkUp then (bad, s.count Addr.hxLdDataDropCnt)
  else
    let (ok, s) := s.hostReq true u.host u.len transOk
    if !ok then (bad, s)
    else
      let s := (s.emit (.hostWrite u.host (clean data))).countIf (!wrOk) Addr.hxWinErrCnt
      (bad, if u.toOut then s.modJob h fun j => { j with outWritten := j.outWritten + u.len } else s)

/-- Output units one after the other. -/
def State.moveUnits (s : State) (h : Nat) (ids : List Ident) (transOk wrOk : Bool) (us : List HxUnit) : Bool × State :=
  us.foldl (fun (x : Bool × State) u =>
    let (bad, s) := x.2.moveOut h ids transOk wrOk u
    (x.1 || bad, s)) (false, s)

/-- The mover has issued n units of a stage: at most one in each period of the class frequency (R338). -/
def State.moverEnd (s : State) (x : Stage) (n : Nat) : State :=
  let cap := s.capacity x.cls
  s.advanceToTick (x.selEdge + ceilDiv (n * 3840) cap)

/-- Each line of a read with whether its request was issued (R335, R336). -/
def State.readLines (s : State) (transOk : Bool) (us : List HxUnit) : List (HxUnit × Bool) × State :=
  us.foldl (fun (x : List (HxUnit × Bool) × State) u =>
    let (ok, s) := x.2.hostReq false u.host u.len transOk
    (x.1 ++ [(u, ok)], s)) ([], s)

/-- HX_BW 0: the output units, the end of the stage, and FAULTED where a unit was poisoned (R37, R338, R340). -/
def State.runMover0 (s : State) (h k : Nat) (j : Job) (ids : List Ident) (xs : List HxXfer) (transOk wrOk : Bool) :
    State :=
  let x := j.stage k
  let us := xs.flatMap (xferLines j)
  let s := if xs.any fun t => xferLen j t < t.len.toNat then s.modJob h fun j => { j with clipped := true } else s
  let (bad, s) := s.moveUnits h ids transOk wrOk (us.take x.cost)
  if x.cost < us.length then s.setEngineDone x.q true
  else
    let s := s.moverEnd x us.length
    if bad then (s.noteSeen h true false false).closeJob h Status.faulted k else s.completeStage h k 0 false

/-- HX_BW 1: the reads are issued and the stage ends; its lines are written as they arrive (R339). -/
def State.runMover1 (s : State) (h k : Nat) (j : Job) (obo : Ident) (xs : List HxXfer) (transOk : Bool) : State :=
  let x := j.stage k
  let us := xs.flatMap (xferLines j)
  let (ls, s) := s.readLines transOk (us.take x.cost)
  let rd : HxRead := { job := h, order := j.order, stage := k, obo := obo, lines := ls }
  let s := { s with host := { s.host with reads := s.host.reads ++ [rd] } }
  if x.cost < us.length then s.setEngineDone x.q true
  else (s.moverEnd x us.length).completeStage h k 0 true

/-- HX_BW_TRANSFER (R338 to R340): the stage that occupies HX_BW instance i makes its transfers; `transOk` tells that
translations the cache does not hold succeed, `wrOk` that host writes do (R336, R337). -/
def execHxBwTransfer (i : Fin 2) (xs : List HxXfer) (transOk wrOk : Bool) (s : State) : Res :=
  let q := calIndex 11 i
  match s.running q with
  | none => s.done
  | some (h, k) =>
    match s.job h with
    | none => s.done
    | some j =>
      if s.engineDone q then s.done
      else
        let t := j.stageT k
        let obo := j.ownerOf t.oboByClass t.obo
        if i = 0 then State.done (s.runMover0 h k j [Ident.mover, obo] xs transOk wrOk)
        else State.done (s.runMover1 h k j obo xs transOk)

/-- The lines of a read that has been answered are written to their banks; a line whose request was not issued, or that the
host failed, is poisoned (R337); answers whether a bank refused one. -/
def State.writeLines (s : State) (ids : List Ident) (lines : List (HxUnit × Bool)) (host : List (Byte × Bool)) :
    Bool × State :=
  let r := lines.foldl (fun (x : Nat × Bool × State) l =>
    let d := if l.2 then hostSlice host x.1 l.1.len else List.replicate l.1.len (0, true)
    let (ok, s) := x.2.2.writeBank ids l.1.addr d
    (x.1 + l.1.len, x.2.1 || !ok, s)) (0, false, s)
  r.2

/-- HX_READ_COMPLETE (R339, R340): the last read line of stage `st` of job h has arrived; `host` is what the host
answered, in line order. -/
def execHxReadComplete (h : Fin 2048) (st : Fin 64) (host : List (Byte × Bool)) (s : State) : Res :=
  match s.host.reads.find? fun r => r.job == h.val && r.stage == st.val with
  | none => s.done
  | some r =>
    let s := { s with host := { s.host with reads := s.host.reads.erase r } }
    let (refused, s) := s.writeLines [Ident.mover, r.obo] r.lines host
    let same := match s.job h with
      | some j => decide (j.order = r.order) && !j.closed
      | none => false
    State.done (if refused || !same then s else s.passFlags h st)

/-- ATS_INVALIDATION (R336): the entries that touch the range leave the cache; a command's requests have been issued before
the next command. -/
def execAtsInvalidation (base size : BitVec 64) (s : State) : Res :=
  let b := base.toNat
  let keep := s.host.ats.filter fun e => decide (e.base + e.size ≤ b ∨ b + size.toNat ≤ e.base)
  State.done { s with host := { s.host with ats := keep } }

/-! ### Queue registers (R342 to R346) -/

/-- The HX registers accept writes from the host and the Zelfa cores; another is counted. -/
def State.hxWrite (s : State) (who : Requester) (f : State → State) : State :=
  if isHostOrZelfa who then f s else s.count Addr.hxCfgDenyCnt

/-- A doorbell or head is ignored, counted and signalled on vector 74 (R343, R344). -/
def State.badDoorbell (s : State) : State := (s.count Addr.hxDbErrCnt).hostEvent Evt.dbErr

def State.writeJqTail (s : State) (q : Nat) (v : Nat) : State :=
  let i := v % 4096
  if !s.flag (Addr.hxJqCfg q) Fld.hxJqCfgEn || decide (s.fget (Addr.hxJqCfg q) Fld.hxJqCfgSize ≤ i) then s.badDoorbell
  else s.fset (Addr.hxJqTail q) Fld.hxJqTailIndex i

def State.writeCqHead (s : State) (q : Nat) (v : Nat) : State :=
  let i := v % 4096
  if !s.flag (Addr.hxCqCfg q) Fld.hxCqCfgEn || decide (s.fget (Addr.hxCqCfg q) Fld.hxCqCfgSize ≤ i) then s.badDoorbell
  else s.fset (Addr.hxCqHead q) Fld.hxCqHeadIndex i

/-- HEAD and TAIL 0, and PHASE 1 of a completion queue (R342). -/
def State.enableQueue (s : State) (cq : Bool) (q : Nat) : State :=
  if cq then
    let s := (s.fset (Addr.hxCqStat q) Fld.hxCqStatIndex 0).fset (Addr.hxCqStat q) Fld.hxCqStatPhase 1
    s.fset (Addr.hxCqHead q) Fld.hxCqHeadIndex 0
  else (s.fset (Addr.hxJqHead q) Fld.hxJqHeadIndex 0).fset (Addr.hxJqTail q) Fld.hxJqTailIndex 0

/-- A write of HX_JQ_CFG or HX_CQ_CFG (R342); both have EN at bit 31 and SIZE at [12:0]. -/
def State.writeQueueCfg (s : State) (cq : Bool) (q v : Nat) : State :=
  let a := if cq then Addr.hxCqCfg q else Addr.hxJqCfg q
  let size := v % 8192
  let en := bitOf v 31
  if size < 2 ∨ 4096 < size then s.count Addr.hxCfgDenyCnt
  else if s.flag a Fld.hxJqCfgEn then
    let s := s.countIf (size != s.fget a Fld.hxJqCfgSize) Addr.hxCfgDenyCnt
    if en then s else s.fset a Fld.hxJqCfgEn 0
  else
    let s := s.fset a Fld.hxJqCfgSize size
    if en then (s.fset a Fld.hxJqCfgEn 1).enableQueue cq q else s

/-- A write of HX_JQ_BASE or HX_CQ_BASE (R342). -/
def State.writeQueueBase (s : State) (cq : Bool) (q v : Nat) : State :=
  let a := if cq then Addr.hxCqBase q else Addr.hxJqBase q
  let en := s.flag (if cq then Addr.hxCqCfg q else Addr.hxJqCfg q) Fld.hxJqCfgEn
  let addr := v % 2 ^ 44
  if en || addr % (if cq then 64 else 128) != 0 then s.count Addr.hxCfgDenyCnt else s.fset a Fld.hxJqBaseAddr addr

/-- HX_FW_EVT: bit i sets cause 14 + i; Zelfa cores only. -/
def State.writeFwEvt (s : State) (who : Requester) (v : Nat) : State :=
  if !isZelfa who then s.count Addr.hxCfgDenyCnt
  else s.each [0, 1] fun s i => if bitOf v i then s.hostEvent (14 + i) else s

def execHxJqTail (q : Fin 64) (who : Requester) (value : Word) (s : State) : Res :=
  State.done (s.hxWrite who fun s => s.writeJqTail q value.toNat)

def execHxCqHead (q : Fin 64) (who : Requester) (value : Word) (s : State) : Res :=
  State.done (s.hxWrite who fun s => s.writeCqHead q value.toNat)

def execHxQueueCfg (cq : Bool) (q : Fin 64) (who : Requester) (value : Word) (s : State) : Res :=
  State.done (s.hxWrite who fun s => s.writeQueueCfg cq q value.toNat)

def execHxQueueBase (cq : Bool) (q : Fin 64) (who : Requester) (value : DWord) (s : State) : Res :=
  State.done (s.hxWrite who fun s => s.writeQueueBase cq q value.toNat)

def execHxFwEvt (who : Requester) (value : Word) (s : State) : Res := State.done (s.writeFwEvt who value.toNat)

end Sys2Proof.Machine
end

