-- ==== Sys2Proof/Machine/ImageFile.lean ====
section
/-! DEFINITION. The configuration image in flash (R376 to R379, R390 to R399): its header and directory, its sections'
fields, and the range and consistency checks of a CONTENT failure (R378). -/

namespace Sys2Proof.Machine

/-- The bytes of an image, or of one of its sections, by offset. -/
abbrev Rd := Nat → Byte

/-- n bytes from an offset. -/
def rdBytes (r : Rd) (off n : Nat) : List Byte := (List.range n).map fun i => r (off + i)

/-- Bits [hi:lo] of the little-endian field at an offset (R376). -/
def rdF (r : Rd) (off hi lo : Nat) : Nat :=
  leVal (rdBytes r (off + lo / 8) (hi / 8 + 1 - lo / 8)) / 2 ^ (lo % 8) % 2 ^ (hi + 1 - lo)

def rdBit (r : Rd) (off b : Nat) : Bool := rdF r off b b == 1

/-- A signed field of w bits at an offset. -/
def rdS (r : Rd) (off w : Nat) : Int := signed w (rdF r off (w - 1) 0)

/-- n reserved bytes hold zero. -/
def rdZero (r : Rd) (off n : Nat) : Bool := (List.range n).all fun i => r (off + i) == 0

/-- The reader of a part that starts at an offset. -/
def rdAt (r : Rd) (off : Nat) : Rd := fun i => r (off + i)

/-! ### Header and directory (Tables 16-3 and 16-4) -/

def hdrCount (r : Rd) : Nat := rdF r 0x06 15 0
def hdrLen (r : Rd) : Nat := rdF r 0x08 31 0
def hdrSig (r : Rd) : Nat := rdF r 0x0C 31 0
def hdrSecVer (r : Rd) : Nat := rdF r 0x10 7 0
def hdrColdDeep (r : Rd) : Bool := rdBit r 0x11 0

def dirAt (k : Nat) : Nat := 0x40 + 32 * k
def secType (r : Rd) (k : Nat) : Nat := rdF r (dirAt k) 15 0
def secOff (r : Rd) (k : Nat) : Nat := rdF r (dirAt k + 4) 31 0
def secLen (r : Rd) (k : Nat) : Nat := rdF r (dirAt k + 8) 31 0
def secCrc (r : Rd) (k : Nat) : Nat := rdF r (dirAt k + 12) 31 0

/-- Section k of the directory ends before what follows it, or before the signature block or the image's end. -/
def secEndsOk (r : Rd) (k : Nat) : Bool :=
  let e := secOff r k + secLen r k
  if k + 1 < hdrCount r then decide (e ≤ secOff r (k + 1))
  else decide (e ≤ if hdrSig r = 0 then hdrLen r else hdrSig r)

def dirOk (r : Rd) : Bool :=
  (List.range (hdrCount r)).all fun k =>
    secType r k == k + 1 && rdF r (dirAt k + 2) 15 0 == 1 && secOff r k % 64 == 0 && decide (1 ≤ secLen r k)
      && secEndsOk r k

/-- The header and the directory are laid out as R376 and R377 say. -/
def hdrOk (r : Rd) : Bool :=
  rdBytes r 0 4 == [0x4B, 0x53, 0x58, 0x31] && rdF r 0x04 15 0 == 1 && between 10 (hdrCount r) 11
    && decide (hdrLen r ≤ 100663296) && hdrSig r % 64 == 0
    && (hdrSig r == 0 || hdrSig r + 193 == hdrLen r)
    && decide (dirAt (hdrCount r) ≤ secOff r 0) && dirOk r

/-- HDR_CRC over the header with its own field 0, and the directory. -/
def hdrCrcOk (r : Rd) : Bool :=
  let bytes := rdBytes r 0 0x3C ++ [0, 0, 0, 0] ++ rdBytes r 0x40 (32 * hdrCount r)
  crc32c bytes == rdF r 0x3C 31 0

def secCrcOk (r : Rd) (k : Nat) : Bool := crc32c (rdBytes r (secOff r k) (secLen r k)) == secCrc r k

/-- The signature of a signed image under its own key, and the key's hash (R377, R379). -/
def imgKey (r : Rd) : List Byte := rdBytes r (hdrSig r) 97
def imgSigOk (r : Rd) : Bool :=
  Config.sigOk (imgKey r) (Config.sha384 (rdBytes r 0 (hdrSig r))) (rdBytes r (hdrSig r + 97) 48)
    (rdBytes r (hdrSig r + 145) 48)

def imgSigned (r : Rd) : Bool := hdrSig r != 0

/-- The image passes R379 on a part whose DEV_SECURE is `secure` and whose fuse hash is `hash`. -/
def sigCause (r : Rd) (secure : Bool) (hash : BitVec 384) : Bool :=
  if secure then imgSigned r && Config.sha384 (imgKey r) == hash && imgSigOk r
  else !imgSigned r || imgSigOk r

/-- A section's reader and length, by type. -/
def sec (r : Rd) (type : Nat) : Rd := rdAt r (secOff r (type - 1))
def secLength (r : Rd) (type : Nat) : Nat := secLen r (type - 1)

/-! ### Board section (Tables 16-6 and 12-7) -/

def eqAt (k : Nat) : Nat := 0x40 + 16 * k
def eqCount (r : Rd) : Nat := rdF r 0x0A 15 0

def rateCodes : List Nat := [1, 2, 3, 4, 5, 6, 7, 8, 9, 10, 11, 16, 17, 18]

/-- An equalisation entry (Table 12-7): the ranges, and the two conditions on the taps, of which only MAIN is not negative
(R293). -/
def eqOk (r : Rd) (k : Nat) : Bool :=
  let e := rdAt r (eqAt k)
  decide (rdF e 0 7 0 < 64) && rateCodes.contains (rdF e 1 7 0) && rdF e 2 7 1 == 0
    && decide (-7 ≤ rdS e 3 8 ∧ rdS e 3 8 ≤ 0) && decide (-15 ≤ rdS e 4 8 ∧ rdS e 4 8 ≤ 0) && between 32 (rdF e 5 7 0) 63
    && decide (-24 ≤ rdS e 6 8 ∧ rdS e 6 8 ≤ 0) && rdF e 7 3 3 == 0 && decide (-64 ≤ rdS e 8 8 ∧ rdS e 8 8 ≤ 63)
    && decide (-32 ≤ rdS e 9 8 ∧ rdS e 9 8 ≤ 31) && decide (-32 ≤ rdS e 10 8 ∧ rdS e 10 8 ≤ 31) && rdZero e 11 5
    && decide ((rdF e 5 7 0 : Int) - rdS e 3 8 - rdS e 4 8 - rdS e 6 8 ≤ 63)
    && decide (16 ≤ (rdF e 5 7 0 : Int) + rdS e 3 8 + rdS e 4 8 + rdS e 6 8)

def boardOk (r : Rd) (len : Nat) : Bool :=
  decide (rdF r 0 7 0 ≤ 3) && rdF r 1 7 3 == 0 && rdF r 2 7 7 == 0 && rdZero r 3 1 && rdF r 4 31 20 == 0
    && between 1 (eqCount r) 512 && rdZero r 0x0E 2 && between 2 (rdF r 0x1C 7 0) 5
    && [4, 8, 16].contains (rdF r 0x1D 7 0)
    && decide (rdF r 0x1E 15 0 * 10 ≤ 9 * hxLinkUnits (rdF r 0x1C 7 0) (rdF r 0x1D 7 0))
    && between 1 (rdF r 0x20 15 0) 60000 && rdZero r 0x22 30 && len == eqAt (eqCount r)
    && (List.range (eqCount r)).all (eqOk r)

/-! ### Clock/time section (Tables 16-13, 16-14, 13-4) -/

def servoOk (r : Rd) (j : Nat) : Bool :=
  let v := rdF r (4 * j) 31 0
  let sv := rdS r (4 * j) 32
  match j with
  | 0 => [16, 32, 64, 128].contains v
  | 1 => decide (v ≤ 65535)
  | 2 => decide (v ≤ 65535)
  | 3 => between 1 v 20000
  | 4 => decide (1 ≤ v % 65536) && decide (1 ≤ v / 65536)
  | 5 => between 100 v 1000000
  | 6 => between 1 v 255
  | 7 => between 16 v 65535
  | 8 => decide (v ≤ 86400)
  | 9 => decide (v < 256)
  | 10 => decide (v ≤ 1048575)
  | 12 => decide (-10000000 ≤ sv ∧ sv ≤ 10000000)
  | 13 => between 1 v 500000
  | 14 => decide (v ≤ 65535)
  | 15 => between 2 (v % 16) 8 && decide (v / 16 ≤ 2)
  | _ => true

def ptpAt (p : Nat) : Nat := 0x88 + 4 * p

def clockOk (r : Rd) (len : Nat) : Bool :=
  len == 0x188 && (List.range 16).all (servoOk r) && between 24 (rdF r 0x44 7 0) 43 && rdF r 0x45 7 1 == 0 && rdZero r 0x47 1
    && (List.range 64).all fun p => rdF r (ptpAt p) 15 10 == 0 && decide (1 ≤ rdF r (ptpAt p) 7 0)

def ptpEntry (r : Rd) (p : Nat) : PtpPortT :=
  { logDelayReq := signed 8 (rdF r (ptpAt p) 31 24), logSync := signed 8 (rdF r (ptpAt p) 23 16),
    masterOnly := rdBit r (ptpAt p) 9, en := rdBit r (ptpAt p) 8, localPriority := rdF r (ptpAt p) 7 0,
    tcFwd := rdF r (0x48 + p) 7 0 }

/-! ### Pads and power policy (Tables 16-15 and 16-16) -/

def padsOk (r : Rd) (len : Nat) : Bool :=
  len == 0x88
    && (List.range 32).all (fun n =>
      rdF r (4 * n) 1 0 != 3 && rdF r (4 * n) 3 2 != 3 && rdF r (4 * n) 5 4 != 3 && rdF r (4 * n) 31 6 == 0)
    && rdF r 0x80 30 20 == 0 && rdF r 0x84 31 1 == 0

def powerOk (r : Rd) (len : Nat) : Bool :=
  len == 0x270 && rdF r 0 31 6 == 0 && rdF r 0 5 4 != 3 && rdF r 0 3 2 == 0 && rdZero r 7 1 && decide (1 ≤ rdF r 8 15 0)
    && rdZero r 0x0A 6

/-! ### Fronthaul map (Tables 16-17 to 16-19) -/

def fhRate (r : Rd) (l : Nat) : Nat := rdF r (2 * l) 7 0
def fhPll (r : Rd) (l : Nat) : Nat := rdF r (2 * l) 8 8
def portAt (p : Nat) : Nat := 0x80 + 16 * p
def streamCount (r : Rd) : Nat := rdF r 0x480 31 0
def streamAt (i : Nat) : Nat := 0x4C0 + 64 * i

def portEntry (r : Rd) (p : Nat) : Option PortT :=
  let e := rdAt r (portAt p)
  if rdF e 0 7 0 = 0xFF then none
  else some { type := rdF e 0 7 0, fec := rdF e 1 7 0, cpriVer := rdF e 2 7 0, vlanEn := rdBit e 3 0,
              srcMac := rdF e 4 47 0, vlanTci := rdF e 0x0A 15 0 }

/-- FEC and rate code that Table 12-2 allows for a type. -/
def portTypeOk (t fec rate : Nat) : Bool :=
  match t with
  | 0 => fec == 0 && between 1 rate 0x0B
  | 1 => decide (fec ≤ 1) && rate == 0x10
  | 2 => decide (fec ≤ 2) && rate == 0x11
  | 3 => fec == 3 && rate == 0x12
  | 4 => fec == 3 && rate == 0x12
  | 5 => fec == 2 && rate == 0x11
  | _ => false

/-- A port starts on a multiple of its lanes, which all have its rate and start no other port (R275, R394, Table 12-2). -/
def portOk (r : Rd) (p : Nat) : Bool :=
  let e := rdAt r (portAt p)
  if rdF e 0 7 0 = 0xFF then rdF e 3 7 1 == 0 && rdZero e 0x0C 4
  else
    match portEntry r p with
    | none => true
    | some t =>
      rdF e 3 7 1 == 0 && rdZero e 0x0C 4 && p % t.lanes == 0 && (t.type == 0 || t.cpriVer == 0)
        && (List.range t.lanes).all fun i =>
          portTypeOk t.type t.fec (fhRate r (p + i)) && (i == 0 || (portEntry r (p + i)).isNone)

/-- The lane rate a code stands for; options 1 and 2 count as one (R274). -/
def lanePll (rate : Nat) : Nat := if rate = 1 then 2 else rate

/-- Each group's lanes on one PLL have one rate. -/
def groupOk (r : Rd) (g : Nat) : Bool :=
  let ls := (List.range 8).map (8 * g + ·)
  let used := ls.filter fun l => fhRate r l != 0
  used.all fun a => used.all fun b => fhPll r a != fhPll r b || lanePll (fhRate r a) == lanePll (fhRate r b)

def streamEntry (r : Rd) (i : Nat) : StreamT :=
  let e := rdAt r (streamAt i)
  { port := rdF e 0 7 0, stream := rdF e 1 7 0, dl := rdBit e 2 0, bfp := rdBit e 3 7, iqWidth := rdF e 3 4 0,
    eaxc := rdF e 4 15 0, contBits := rdF e 6 15 0, carrier := rdF e 8 8 0, nprb := rdF e 0x0A 15 0,
    prbBytes := rdF e 0x0C 15 0, cap := rdF e 0x10 31 0, tAdvU := rdF e 0x14 31 0, tAdvC := rdF e 0x18 31 0,
    txWin := rdF e 0x1C 31 0, rxStart := rdS e 0x20 32, rxEnd := rdS e 0x24 32, ringBank := globalBank (rdF e 0x28 15 0),
    ringSlots := rdF e 0x2A 7 0, ringStride := rdF e 0x2B 7 0, symPerBank := rdF e 0x2C 7 0, areaOff := rdF e 0x30 31 0,
    dstMac := rdF e 0x38 47 0 }

/-- Sample format of a stream (Table 16-19). -/
def streamFormatOk (t : PortT) (x : StreamT) : Bool :=
  if t.type = 0 then !x.bfp && between 8 x.iqWidth 16 && x.prbBytes == 0
  else if x.bfp then [8, 9, 12, 14].contains x.iqWidth && x.prbBytes == 3 * x.iqWidth + 1 && x.contBits == 0
  else x.iqWidth == 16 && x.prbBytes == 48 && x.contBits == 0

/-- The ring's banks are fronthaul buffer banks homed on the framer group of the port's lane group (R394); `home` gives the
image's home owner of a global bank. -/
def ringOk (r : Rd) (i : Nat) (x : StreamT) (home : Nat → Nat) : Bool :=
  let e := rdAt r (streamAt i)
  if x.dl then rdZero e 0x20 8 && rdZero e 0x28 8 && rdZero e 0x30 4
  else
    decide (x.rxStart < x.rxEnd) && between 2 x.ringSlots 8 && between 1 x.symPerBank 14 && decide (1 ≤ x.ringStride)
      && (List.range (x.ringSlots * x.ringStride)).all fun k =>
        let b := rdF e 0x28 15 0 + k
        between 4608 b 4863 && home b == Ident.code (Ident.framer (x.port / 8))

def streamOk (r : Rd) (i : Nat) (home : Nat → Nat) : Bool :=
  let e := rdAt r (streamAt i)
  let x := streamEntry r i
  rdF e 2 7 1 == 0 && rdF e 3 6 5 == 0 && rdF e 8 15 9 == 0 && between 1 x.nprb 275 && rdZero e 0x0E 2 && rdZero e 0x2D 3
    && rdZero e 0x34 4 && rdZero e 0x3E 2 && decide (x.port < 64)
    && (portEntry r x.port).any (fun t => streamFormatOk t x) && ringOk r i x home

/-- Uplink streams that share a bank have one context and one ring (R281). -/
def shareOk (x y : StreamT) : Bool :=
  let ends := fun (z : StreamT) => z.ringBank + z.ringSlots * z.ringStride
  let apart := decide (ends x ≤ y.ringBank ∨ ends y ≤ x.ringBank)
  x.dl || y.dl || apart
    || (x.carrier / 8 == y.carrier / 8 && x.ringBank == y.ringBank && x.ringSlots == y.ringSlots
      && x.ringStride == y.ringStride && x.symPerBank == y.symPerBank)

/-- Every used lane has an equalisation entry for its rate (R293); `b` is the board section. -/
def laneEqOk (b r : Rd) (l : Nat) : Bool :=
  fhRate r l == 0 || (rateCodes.contains (fhRate r l)
    && (List.range (eqCount b)).any fun k => rdF b (eqAt k) 7 0 == l && rdF b (eqAt k + 1) 7 0 == fhRate r l)

def fronthaulOk (b r : Rd) (len : Nat) (home : Nat → Nat) : Bool :=
  let n := streamCount r
  let ss := (List.range n).map (streamEntry r)
  decide (n ≤ 4096) && len == streamAt n && rdZero r 0x484 60
    && (List.range 64).all (fun l => rdF r (2 * l) 15 9 == 0 && laneEqOk b r l && portOk r l)
    && (List.range 8).all (groupOk r) && (List.range n).all (fun i => streamOk r i home)
    && ss.all fun x => ss.all (shareOk x)

/-! ### Carriers and profiles (Tables 16-20 to 16-23) -/

def ctxEntry (r : Rd) (n : Nat) : CtxT :=
  let e := rdAt r (32 * n)
  { enabled := rdBit e 0 0, mu := rdF e 0 2 1, ecp := rdBit e 0 3, grouped := rdBit e 0 4, lg := rdF e 0 8 5,
    initProfile := rdF e 0 11 9, profiles := rdF e 0 23 16, toff := rdF e 4 31 0, taOff := rdF e 8 31 0 }

def ctxOk (r : Rd) (n : Nat) : Bool :=
  let e := rdAt r (32 * n)
  let c := ctxEntry r n
  rdF e 0 31 24 == 0 && rdF e 0 15 12 == 0 && rdZero e 0x0C 20
    && (!c.enabled || (c.profiles != 0 && bitOf c.profiles c.initProfile && (!c.ecp || c.mu == 2)
      && decide (c.toff ≤ 9999999) && decide (c.taOff ≤ 40000)
      && (!c.grouped || (rdBit r (0x800 + 4 * c.lg) 0 && decide (rdF r (0x800 + 4 * c.lg) 2 1 ≤ c.mu)))))

/-- Members of one lock group agree as R327 asks. -/
def lgPairOk (r : Rd) (x y : CtxT) : Bool :=
  !(x.enabled && y.enabled && x.grouped && y.grouped && x.lg == y.lg)
    || (x.toff == y.toff && x.taOff == y.taOff && (decide (rdF r (0x800 + 4 * x.lg) 2 1 < 2) || x.ecp == y.ecp))

def carrierAt (c : Nat) : Nat := 0x840 + 16 * c
def carrierEntry (r : Rd) (c : Nat) : CarrierT :=
  let e := rdAt r (carrierAt c)
  { bound := rdBit e 0 0, dss := rdBit e 0 2, nrHalf := rdBit e 0 3, dcSkip := rdBit e 0 4 }

def carrierOk (r : Rd) (c : Nat) : Bool :=
  let e := rdAt r (carrierAt c)
  rdF e 0 31 5 == 0 && rdF e 0 1 1 == 0 && rdF e 4 15 10 == 0 && rdF e 6 15 10 == 0 && rdZero e 8 8

def chainAt (n : Nat) : Nat := 0x12840 + 32 * n
def chainEntry (r : Rd) (n : Nat) : ChainT :=
  let e := rdAt r (chainAt n)
  { bound := rdBit e 0 0, tx := rdBit e 0 1, ctx := rdF e 1 5 0, stream := rdF e 2 15 0, fLine := rdF e 4 31 0 }

def setCount (r : Rd) : Nat := rdF r 0x13840 31 0
def setWord (r : Rd) (set e : Nat) : Nat := rdF r (0x13880 + 49152 * set + 4 * e) 31 0

/-- A used chain's initial set is one that a commit would take (R201). -/
def chainSetOk (e : Rd) : Bool :=
  rdF e 8 29 29 == 0 && rdF e 8 23 13 == 0 && decide (rdF e 8 28 26 ≤ 6)
    && (!rdBit e 8 30 || between (2 ^ 26) (rdF e 0x10 31 0) (2 ^ 30)) && (!rdBit e 8 25 || between 64 (rdF e 8 12 0) 4096)

def chainOk (r : Rd) (n : Nat) : Bool :=
  let e := rdAt r (chainAt n)
  let setOk := fun x => decide (x = 0xFFFF ∨ x < setCount r)
  rdF e 0 7 2 == 0 && rdF e 1 7 6 == 0 && rdZero e 0x18 8 && (!rdBit e 0 0 || chainSetOk e) && setOk (rdF e 0x14 15 0) && setOk (rdF e 0x16 15 0)

def carriersOk (r : Rd) (len : Nat) : Bool :=
  let cs := (List.range 64).map (ctxEntry r)
  decide (setCount r ≤ 256) && len == 0x13880 + 49152 * setCount r && rdZero r 0x13844 60
    && (List.range 64).all (ctxOk r) && cs.all (fun x => cs.all (lgPairOk r x))
    && (List.range 16).all (fun g => rdF r (0x800 + 4 * g) 31 3 == 0) && (List.range 512).all (carrierOk r)
    && (List.range 128).all (chainOk r)
    && (List.range (setCount r * 12288)).all fun k => decide (rdF r (0x13880 + 4 * k) 31 18 = 0)

/-! ### Templates (Tables 16-24 to 16-27) -/

def tdirAt (t : Nat) : Nat := 0x60 + 8 * t
def tplOff (r : Rd) (t : Nat) : Nat := rdF r (tdirAt t) 31 0
def tplLen (r : Rd) (t : Nat) : Nat := rdF r (tdirAt t) 63 32
def tplHere (r : Rd) (t : Nat) : Bool := tplOff r t != 0 || tplLen r t != 0
def tplStages (r : Rd) (t : Nat) : Nat := rdF r (tplOff r t) 7 0

def bindEntry (e : Rd) (f : Nat) : FlagBind :=
  { source := rdF e (0x20 + 8 * f) 2 0, arg0 := rdF e (0x21 + 8 * f) 7 0, arg1 := rdF e (0x22 + 8 * f) 15 0,
    arg2 := rdF e (0x24 + 8 * f) 31 0 }

def segEntries (e : Rd) (f n : Nat) : List Seg :=
  (List.range n).map fun k =>
    let o := 0x128 + 96 * f + 12 * k
    { x := rdF e o 31 0, y := rdS e (o + 4) 32, s := rdS e (o + 8) 32 }

def handoverEntries (e : Rd) : List Handover :=
  ((List.range 8).filter fun k => rdBit e (0x248 + 8 * k) 0).map fun k =>
    let o := 0x248 + 8 * k
    let byClass := rdBit e o 1
    { bank := globalBank (rdF e o 31 16), byClass := byClass, owner := if byClass then rdF e o 35 32 else rdF e o 47 32 }

def stageAt (t k : Nat) (r : Rd) : Rd := rdAt r (tplOff r t + 0xC0 + 0x300 * k)

def stageEntry (e : Rd) : StageT :=
  { cls := rdF e 0 3 0, post := rdBit e 0 4, hxInst := rdF e 1 3 3, descArg := rdF e 1 2 0, relOff := rdF e 4 31 0,
    dlOff := rdF e 8 31 0, evMask := rdF e 0x0C 31 0, selfCancel := rdF e 0x10 63 0,
    flags := (List.range 32).map (bindEntry e), base := rdS e 0x120 32, f0 := segEntries e 0 (rdF e 0x124 7 0),
    f1 := segEntries e 1 (rdF e 0x125 7 0), f2 := segEntries e 2 (rdF e 0x126 7 0), handover := handoverEntries e,
    oboByClass := rdBit e 0x288 31, obo := rdF e 0x288 15 0 }

/-- A candidate list: up to 8 bytes, ended by 0xFF. -/
def candList : List Byte → List Nat
  | [] => []
  | b :: l => if b = 0xFF then [] else b.toNat :: candList l

def tplEntry (r : Rd) (t : Nat) : Template :=
  let h := rdAt r (tplOff r t)
  { dl := rdBit h 1 0, extraPasses := rdF h 1 2 1, profileMask := rdF h 2 7 0, jobDlOff := rdF h 4 31 0,
    pMin := (List.range 3).map fun i => rdF h (8 + 4 * i) 31 0, pMax := (List.range 3).map fun i => rdF h (0x14 + 4 * i) 31 0,
    carrierSet := rdF h 0x20 511 0, cands := (List.range 12).map fun c => candList (rdBytes h (0x60 + 8 * c) 8),
    stages := (List.range (tplStages r t)).map fun k => stageEntry (stageAt t k r) }

def bindOk (e : Rd) (n f : Nat) : Bool :=
  let x := bindEntry e f
  rdF e (0x20 + 8 * f) 7 3 == 0 && x.source != 5 && x.source != 6 && (x.source != 0 || decide (x.arg0 < n))
    && (x.source != 2 || decide (x.arg2 < 2 ^ 24))

/-- The structural check of a stage (R396): stage indices below STAGE_COUNT, known sources, reserved bits 0. -/
def stageOk (e : Rd) (n : Nat) : Bool :=
  rdF e 0 7 5 == 0 && rdF e 1 7 4 == 0 && rdZero e 2 2 && rdZero e 0x18 8 && rdZero e 0x127 1 && rdZero e 0x28C 116
    && decide (rdF e 0 3 0 ≤ 11) && decide (rdF e 0x10 63 0 < 2 ^ n) && (List.range 32).all (bindOk e n)
    && (List.range 3).all (fun i => decide (rdF e (0x124 + i) 7 0 ≤ 8))
    && (List.range 8).all (fun k => rdF e (0x248 + 8 * k) 15 2 == 0 && rdF e (0x248 + 8 * k) 63 48 == 0)
    && rdF e 0x288 30 16 == 0

def tplOk (r : Rd) (len t : Nat) : Bool :=
  !tplHere r t
    || (let n := tplStages r t
        let h := rdAt r (tplOff r t)
        tplOff r t % 64 == 0 && between 1 n 64 && tplLen r t == 0xC0 + 0x300 * n && decide (tplOff r t + tplLen r t ≤ len)
          && decide (0x2060 ≤ tplOff r t) && rdF h 1 7 3 == 0 && decide (rdF h 1 2 1 ≤ 2) && rdZero h 3 1
          && (List.range n).all fun k => stageOk (stageAt t k r) n)

def tplApart (r : Rd) (t u : Nat) : Bool :=
  t == u || !tplHere r t || !tplHere r u || tplOff r t + tplLen r t ≤ tplOff r u || tplOff r u + tplLen r u ≤ tplOff r t

/-- The length that the template directory implies. -/
def tplEnd (r : Rd) : Nat := (List.range 1024).foldl (fun m t => max m (tplOff r t + tplLen r t)) 0x2060

def templatesOk (r : Rd) (len : Nat) : Bool :=
  (List.range 12).all (fun c =>
    between 1000 (rdF r (8 * c) 15 0) 5000 && between 50 (rdF r (8 * c) 23 16) 97 && rdF r (8 * c) 63 24 == 0)
    && len == tplEnd r && (List.range 1024).all (tplOk r len)
    && (List.range 1024).all fun t => (List.range 1024).all (tplApart r t)

/-! ### NoC tables (Table 16-28) -/

def wheelCount (r : Rd) : Nat := rdF r 0x0C 31 0
def reqCount (r : Rd) : Nat := rdF r 0x10 31 0
def rangeCount (r : Rd) : Nat := rdF r 0x14 31 0
def wheelAt (i : Nat) : Nat := 0x20 + 4 * i
def reqAt (r : Rd) (i : Nat) : Nat := wheelAt (wheelCount r) + 4 * i
def rangeAt (r : Rd) (i : Nat) : Nat := (reqAt r (reqCount r) + 7) / 8 * 8 + 32 * i

def rangeEntry (r : Rd) (i : Nat) : RangeT :=
  let e := rdAt r (rangeAt r i)
  { who := rdF e 0 15 0, flow := rdF e 0 43 32, retFlow := rdF e 0 59 48, first := rdF e 0 111 64, last := rdF e 0 175 128 }

def rangeEntryOk (r : Rd) (i : Nat) : Bool :=
  let e := rdAt r (rangeAt r i)
  rdF e 0 31 16 == 0 && rdF e 0 47 44 == 0 && rdF e 0 63 60 == 0 && rdF e 0 127 112 == 0 && rdF e 0 255 176 == 0

/-- A wheel entry names a router and one of its output ports (R234, NOC_WHEEL_ADDR). -/
def wheelEntryOk (r : Rd) (i : Nat) : Bool :=
  let o := wheelAt i
  rdF r o 31 31 == 0 && decide (rdF r o 6 0 < 112) && hasPort (rdF r o 6 0) (rdF r o 10 7)

def nocOk (r : Rd) (len : Nat) : Bool :=
  (List.range 3).all (fun b => rdF r (4 * b) 31 24 == 0) && rdZero r 0x18 8 && len == rangeAt r (rangeCount r)
    && brgSetOk (fun b => rdF r (4 * b) 23 0) && (List.range (wheelCount r)).all (wheelEntryOk r)
    && (List.range (reqCount r)).all (fun i => rdF r (reqAt r i) 31 18 == 0)
    && (List.range (rangeCount r)).all (rangeEntryOk r)

/-! ### Memory and code map (Table 16-29) -/

def bankEntryOk (r : Rd) (n : Nat) : Bool := rdF r (4 * n) 1 0 != 3 && rdF r (4 * n) 15 4 == 0
def homeOf (r : Rd) (n : Nat) : Nat := rdF r (4 * n) 31 16
def entryCount (r : Rd) : Nat := rdF r 0x5780 31 0
def entryAt (i : Nat) : Nat := 0x5790 + 16 * i

def entryRec (r : Rd) (i : Nat) : EntryT :=
  let e := rdAt r (entryAt i)
  { template := rdF e 0 9 0, stage := rdF e 0 21 16, tvec := rdF e 0 63 32, entry := rdF e 0 95 64 }

def entryOk (r : Rd) (i : Nat) : Bool :=
  let e := rdAt r (entryAt i)
  rdF e 0 15 10 == 0 && rdF e 0 31 22 == 0 && rdF e 0 127 96 == 0

/-- Every DSP stage of every template has exactly one entry (R398); `t` is the templates section. -/
def entriesCover (t r : Rd) : Bool :=
  let es := (List.range (entryCount r)).map (entryRec r)
  (List.range 1024).all fun i => !tplHere t i || (List.range (tplStages t i)).all fun k =>
    rdF (stageAt i k t) 0 3 0 != 0 || (es.filter fun e => e.template == i && e.stage == k).length == 1

/-- A BAR2 slot that is mapped names a bank (HX_BAR2_MAP). -/
def bar2Ok (r : Rd) (i : Nat) : Bool :=
  let o := 0x4C80 + 4 * i
  rdF r o 30 13 == 0 && (!rdBit r o 31 || bankValid (256 * rdF r o 12 8 + rdF r o 7 0))

def memoryOk (t r : Rd) (len : Nat) : Bool :=
  len == entryAt (entryCount r) && (List.range 4864).all (bankEntryOk r)
    && (List.range 25).all (fun c => rdF r (0x4C00 + 4 * c) 15 1 == 0) && rdZero r 0x4C64 28
    && (List.range 512).all (bar2Ok r)
    && (List.range 192).all (fun i => rdF r (0x5480 + 4 * i) 31 8 == 0) && rdZero r 0x5784 12
    && (List.range (entryCount r)).all (entryOk r) && entriesCover t r

/-! ### Firmware (Tables 16-30 and 16-31) -/

def segCount (r : Rd) : Nat := rdF r 0 31 0
def segAt (i : Nat) : Nat := 8 + 32 * i

/-- A firmware segment. -/
structure SegT where
  target : Nat
  mask : Nat
  off : Nat
  len : Nat
  load : Nat
  entry : Nat
  deriving DecidableEq, Repr

def segEntry (r : Rd) (i : Nat) : SegT :=
  let e := rdAt r (segAt i)
  { target := rdF e 0 1 0, mask := rdF e 0 15 8, off := rdF e 0 63 32, len := rdF e 0 95 64, load := rdF e 0 143 96,
    entry := rdF e 0 191 160 }

/-- The image's global bank number of the bank that holds an address, 4,864 where none does. -/
def globalOf (a : Nat) : Nat :=
  match bankOf a with
  | none => 4864
  | some key =>
    if key / 256 < 24 then
      let i := key % 256
      if i < 64 then 64 * (key / 256) + i else 1536 + 128 * (key / 256) + (i - 64)
    else 4608 + key % 256

/-- A segment lies where its target asks (R399); `m` is the memory and code map. -/
def segPlaceOk (m : Rd) (x : SegT) : Bool :=
  (banksOf x.load x.len).all fun b =>
    match b with
    | none => false
    | some key =>
      let n := globalOf (bankBase key)
      if x.target = 2 then decide (n < 1536) && bitOf (rdF m (0x5480 + 4 * (n / 8)) 7 0) (n % 8)
      else if x.target = 3 then true
      else between 4608 n 4863 && homeOf m n == Ident.code Ident.system
        && (x.target == 0 || (rdF m (4 * n) 1 0 == 2 && rdBit m (4 * n) 3))

def segOk (m r : Rd) (len i : Nat) : Bool :=
  let e := rdAt r (segAt i)
  let x := segEntry r i
  rdF e 0 7 2 == 0 && rdF e 0 31 16 == 0 && rdF e 0 159 144 == 0 && rdF e 0 255 192 == 0 && x.off % 64 == 0
    && decide (x.off + x.len ≤ len) && (x.target == 0 || x.mask == 0) && (decide (x.target ≤ 1) || x.entry == 0)
    && segPlaceOk m x

def segApart (x y : SegT) : Bool := decide (x.load + x.len ≤ y.load ∨ y.load + y.len ≤ x.load)

def pairwiseSegs : List SegT → Bool
  | [] => true
  | x :: l => l.all (segApart x) && pairwiseSegs l

def firmwareOk (m r : Rd) (len : Nat) : Bool :=
  let xs := (List.range (segCount r)).map (segEntry r)
  between 1 (segCount r) 4096 && rdZero r 4 4 && len == xs.foldl (fun e x => max e (x.off + x.len)) (segAt (segCount r))
    && (List.range (segCount r)).all (segOk m r len) && pairwiseSegs xs
    && xs.any (fun x => x.target == 1) && xs.any fun x => x.target == 0 && bitOf x.mask 0

/-! ### User calibration (Table 16-10) -/

def calOk (s : State) (r : Rd) (len : Nat) : Bool :=
  len % 8 == 0 && (List.range (len / 8)).all fun i =>
    let e := rdAt r (8 * i)
    rdF e 4 15 1 == 0 && (s.calItem (rdF e 0 15 0) (rdF e 2 15 0)).any fun x =>
      decide (x.uMin ≤ rdS e 6 16 ∧ rdS e 6 16 ≤ x.uMax)

/-- Every check of R378 and R390 to R399 on the sections of an image. -/
def contentOk (s : State) (r : Rd) : Bool :=
  let mem := sec r 9
  boardOk (sec r 1) (secLength r 1) && clockOk (sec r 2) (secLength r 2) && padsOk (sec r 3) (secLength r 3)
    && powerOk (sec r 4) (secLength r 4) && fronthaulOk (sec r 1) (sec r 5) (secLength r 5) (homeOf mem)
    && carriersOk (sec r 6) (secLength r 6) && templatesOk (sec r 7) (secLength r 7) && nocOk (sec r 8) (secLength r 8)
    && memoryOk (sec r 7) mem (secLength r 9) && firmwareOk mem (sec r 10) (secLength r 10)
    && (hdrCount r == 10 || calOk s (sec r 11) (secLength r 11))

end Sys2Proof.Machine
end

