-- ==== Sys2Proof/Machine/Boot.lean ====
section
/-! DEFINITION. The start of LOAD (R425), the application of a verified image's sections (R391 to R399), the journal scan and
the calibration merge (R385, R386), and the start-up sequence (R381 to R383). -/

namespace Sys2Proof.Machine

/-! ### Reset at the start of LOAD (R425) -/

/-- Registers that a LOAD leaves: AON, the doubts of a SAFE that it leaves, live clock, supply and mode status, and the HX
block where the LOAD comes from SAFE or SERVICE. -/
def keptAtLoad (keepHx : Bool) (a : Nat) : Bool :=
  a == Addr.pwrWakeReason || a == Addr.pwrOvDiscCnt || a == Addr.pwrMode || a == Addr.pwrVin || a == Addr.clkStat
    || a == Addr.plbCause || a == Addr.plbStat || (keepHx && decide (0x41400000 ≤ a ∧ a < 0x41420000))

/-- Everything that a LOAD resets: registers, memory, cores, Compass, engines, chains, NoC, DMA and fronthaul. -/
def State.loadReset (s : State) (keepHx : Bool) : State :=
  let host := if keepHx then s.host else { HostPort.reset with perst := s.host.perst }
  let noc := { Noc.reset with base := s.noc.base }
  let plb := { Plumb.reset with raised := s.plb.raised, hot := s.plb.hot, tj := s.plb.tj, loadEnd := s.plb.loadEnd,
                                logTicks := s.plb.logTicks }
  let banks := { Banks.reset with stuckMask := s.banks.stuckMask, stuckLevel := s.banks.stuckLevel }
  let jobs := { s with regs := s.regs.filter fun e => keptAtLoad keepHx e.1, servo := { Servo.reset with dacOut := s.servo.dacOut },
                       banks := banks, cores := [], cmp := Compass.reset, img := Image.empty,
                       eng := { done := [], halted := [], locks := [] }, chains := [], coef := [], coefPoison := [] }
  let pwr := { s.pwr with vote := none, backoff := none, wakeTimer := none, waking := 0, pmbGone := false, margin := 0 }
  let pins := { s.pins with gpio := 0, gpioZ := BitVec.ofNat 32 (2 ^ 32 - 1), gpioSafe := false, faultN := true }
  let nvm := { s.nvm with wait := [], compactDue := false }
  { jobs with noc := noc, dma := [], fh := Fronthaul.reset, host := host, plb := plb, pwr := pwr, pins := pins, nvm := nvm }

/-! ### The sections, in the order of Table 16-5 -/

def State.modImg (s : State) (f : Image → Image) : State := { s with img := f s.img }

/-- Write a register from the image. -/
def State.load (s : State) (a v : Nat) : State := s.setReg a (BitVec.ofNat 64 v)

def applyBoard (r : Rd) (s : State) : State :=
  let s := s.modImg fun i =>
    { i with refclk := rdF r 0 7 0, pec := rdBit r 1 0, pmbAddr := rdF r 2 6 0, tunePwrup := rdF r 4 19 0,
             subsysId := rdF r 8 15 0, voutNom := rdF r 0x0C 15 0,
             voutWin := (List.range 6).map fun k => rdF r (0x10 + 2 * k) 15 0, hxMinRate := rdF r 0x1C 7 0,
             hxMinWidth := rdF r 0x1D 7 0, hxCap := rdF r 0x1E 15 0, graceMs := rdF r 0x20 15 0,
             eq := (List.range (eqCount r)).map fun k =>
               [rdF r (eqAt k) 7 0, rdF r (eqAt k + 1) 7 0, rdF r (eqAt k + 2) 0 0, rdF r (eqAt k + 3) 63 0] }
  let s := (s.fset Addr.tuneDacCfg Fld.tuneDacCfgExtref (rdF r 1 2 2)).fset Addr.tuneDacCfg Fld.tuneDacCfgGain2 (rdF r 1 1 1)
  s.fset Addr.clkStat Fld.clkStatRefclk (rdF r 0 7 0)

def applyClock (r : Rd) (s : State) : State :=
  let s := s.each (List.range 16) fun s j => s.load (Addr.tbServoP j) (rdF r (4 * j) 31 0)
  s.modImg fun i =>
    { i with seCand := (List.range 4).map fun k => rdF r (0x40 + k) 7 0, ptpDomain := rdF r 0x44 7 0, ptpMac := rdBit r 0x45 0,
             priority2 := rdF r 0x46 7 0, ptpPorts := (List.range 64).map fun p => (p, ptpEntry r p) }

/-- Direction, initial and safe level of every GPIO; an input is not driven. -/
def applyPads (r : Rd) (s : State) : State :=
  let e := fun n => ({ dir := rdF r (4 * n) 1 0, init := rdF r (4 * n) 3 2, safe := rdF r (4 * n) 5 4 } : GpioT)
  let s := s.modImg fun i =>
    { i with gpio := (List.range 32).map fun n => (n, e n),
             safeWord := if rdBit r 0x80 31 then some (rdF r 0x80 19 0) else none, safeNLock := rdBit r 0x84 0 }
  let level := (List.range 32).foldl (fun a n => if (e n).init = 1 then a + 2 ^ n else a) 0
  let z := (List.range 32).foldl (fun a n => if (e n).init = 2 ∨ (e n).dir = 0 then a + 2 ^ n else a) 0
  { s with pins := { s.pins with gpio := BitVec.ofNat 32 level, gpioZ := BitVec.ofNat 32 z } }

def applyPower (r : Rd) (s : State) : State :=
  let s := s.modImg fun i =>
    { i with upstream := rdF r 0 5 4, retainSdc := rdBit r 0 1, retainCmp := rdBit r 0 0, clSleepEn := rdF r 4 23 0,
             backoffMs := rdF r 8 15 0 }
  let s := s.fset Addr.pwrPmbCtrl Fld.pwrPmbCtrlPolicy (rdF r 0 5 4)
  s.each (List.range 4864) fun s n =>
    s.fset (cfgReg (globalBank n)) Fld.memBankCfgRetain (rdF r (0x10 + n / 8) (n % 8) (n % 8))

/-- The lanes of a port name it (LANE_CFG.PORT). -/
def State.loadPort (s : State) (p : Nat) (t : PortT) : State :=
  let s := s.fset (Addr.fhPortStat p) Fld.fhPortStatType t.type
  s.each (List.range t.lanes) fun s i => s.fset (Addr.laneCfg (p + i)) Fld.laneCfgPort p

def applyFronthaul (r : Rd) (s : State) : State :=
  let ports := (List.range 64).map fun p => (p, portEntry r p)
  let s := s.modImg fun i =>
    { i with ports := ports.filter fun e => e.2.isSome, streams := (List.range (streamCount r)).map (streamEntry r) }
  let s := s.each (List.range 64) fun s l =>
    (s.fset (Addr.laneCfg l) Fld.laneCfgRate (fhRate r l)).fset (Addr.laneCfg l) Fld.laneCfgPll (fhPll r l)
  s.each ports fun s e => match e.2 with
    | some t => s.loadPort e.1 t
    | none => s

def State.loadCtx (s : State) (n : Nat) (c : CtxT) : State :=
  let a := Addr.tbCtxAct n
  let s := s.fset (Addr.tbCtxSh n) Fld.tbCtxShProfile c.initProfile
  let s := (s.fset a Fld.tbCtxActEnabled (if c.enabled then 1 else 0)).fset a Fld.tbCtxActGrouped (if c.grouped then 1 else 0)
  let s := (s.fset a Fld.tbCtxActLg c.lg).fset a Fld.tbCtxActMu c.mu
  (s.fset a Fld.tbCtxActEcp (if c.ecp then 1 else 0)).fset a Fld.tbCtxActProfile c.initProfile

/-- A coefficient bank from a set of the image; 0xFFFF leaves it zero. -/
def State.loadSet (s : State) (r : Rd) (n : Nat) (b : Bool) (set : Nat) : State :=
  if setCount r ≤ set then s
  else s.each (List.range 12288) fun s e =>
    { s with coef := SMap.set noCoef s.coef (coefKey n b e) (BitVec.ofNat 18 (setWord r set e)) }

/-- A chain's CFG, NCO and RS, shadow and active, and its banks (R395). -/
def State.loadChain (s : State) (r : Rd) (n : Nat) : State :=
  let e := rdAt r (chainAt n)
  let cfg := rdF e 8 31 0
  let sh := Addr.sdcShCfg n
  let act := Addr.sdcActCfg n
  let s := s.load sh cfg
  let s := (s.fset act Fld.sdcActCfgSyncRst (bitsOf cfg 31 31)).fset act Fld.sdcActCfgRsEn (bitsOf cfg 30 30)
  let s := (s.fset act Fld.sdcActCfgHb (bitsOf cfg 28 26)).fset act Fld.sdcActCfgSwapTgt (bitsOf cfg 24 24)
  let s := s.fset act Fld.sdcActCfgFadeLen (bitsOf cfg 12 0)
  let s := (s.load (Addr.sdcShNco n) (rdF e 0x0C 31 0)).load (Addr.sdcActNco n) (rdF e 0x0C 31 0)
  let s := (s.load (Addr.sdcShRs n) (rdF e 0x10 31 0)).load (Addr.sdcActRs n) (rdF e 0x10 31 0)
  (s.loadSet r n false (rdF e 0x14 15 0)).loadSet r n true (rdF e 0x16 15 0)

def applyCarriers (r : Rd) (s : State) : State :=
  let s := s.modImg fun i =>
    { i with ctx := (List.range 64).map fun n => (n, ctxEntry r n),
             lgUsed := (List.range 16).foldl (fun a g => if rdBit r (0x800 + 4 * g) 0 then a + 2 ^ g else a) 0,
             lgMu := (List.range 16).map fun g => (g, rdF r (0x800 + 4 * g) 2 1),
             carriers := (List.range 512).map fun c => (c, carrierEntry r c),
             chains := (List.range 128).map fun n => (n, chainEntry r n),
             profWords := (List.range 16384).map fun k => (k, BitVec.ofNat 32 (rdF r (0x2840 + 4 * k) 31 0)) }
  let s := s.each (List.range 64) fun s n => s.loadCtx n (ctxEntry r n)
  let s := s.each (List.range 512) fun s c =>
    (s.fset (Addr.praThr c) Fld.praThrTe (rdF r (carrierAt c + 4) 9 0)).fset (Addr.praThr c) Fld.praThrTq
      (rdF r (carrierAt c + 6) 9 0)
  s.each (List.range 128) fun s n => if rdBit r (chainAt n) 0 then s.loadChain r n else s

def applyTemplates (r : Rd) (s : State) : State :=
  s.modImg fun i =>
    { i with classB := (List.range 12).map fun c => rdF r (8 * c) 15 0, classF := (List.range 12).map fun c => rdF r (8 * c) 23 16,
             templates := ((List.range 1024).filter (tplHere r)).map fun t => (t, some (tplEntry r t)) }

/-- A wheel entry as the wheel registers hold it: owned by its flow (Table 16-28). -/
def wheelLoad (r : Rd) (m : SMap Word) (i : Nat) : SMap Word :=
  let o := wheelAt i
  let key := wheelKey (rdF r o 6 0) (rdF r o 10 7) (rdF r o 18 11)
  SMap.set (fun _ => 0) m key
    (BitVec.ofNat 32 (Fld.put Fld.nocWheelDataFlow (Fld.put Fld.nocWheelDataValid 0 1) (rdF r o 30 19)).toNat)

def applyNoc (r : Rd) (s : State) : State :=
  let s := s.each (List.range 3) fun s b =>
    (s.load (Addr.nocBrgSh b) (rdF r (4 * b) 23 0)).load (Addr.nocBrgAct b) (rdF r (4 * b) 23 0)
  let w := (List.range (wheelCount r)).foldl (wheelLoad r) []
  let s := s.setNoc { s.noc with wheelAct := w, wheelSh := w }
  s.modImg fun i =>
    { i with reqPrio := (List.range (reqCount r)).foldl (fun m k =>
               SMap.set (fun _ => 0) m (rdF r (reqAt r k) 15 0) (rdF r (reqAt r k) 17 16)) [],
             ranges := (List.range (rangeCount r)).map (rangeEntry r) }

def State.loadBank (s : State) (r : Rd) (n : Nat) : State :=
  let key := globalBank n
  let e := 4 * n
  let own := identOf (homeOf r n)
  let s := s.fset (cfgReg key) Fld.memBankCfgCode (rdF r e 1 0)
  let s := (s.fset (cfgReg key) Fld.memBankCfgClrHo (rdF r e 2 2)).fset (cfgReg key) Fld.memBankCfgCrit (rdF r e 3 3)
  (s.fset (ownerReg key) Fld.memOwnerKind own.kind).fset (ownerReg key) Fld.memOwnerIndex own.index

def applyMemory (r : Rd) (s : State) : State :=
  let s := s.each (List.range 4864) fun s n => s.loadBank r n
  let s := s.each (List.range 25) fun s c =>
    (s.fset (Addr.memScrubCfg c) Fld.memScrubCfgEn (rdF r (0x4C00 + 4 * c) 0 0)).fset (Addr.memScrubCfg c)
      Fld.memScrubCfgMaxLap (rdF r (0x4C00 + 4 * c) 31 16)
  let s := s.each (List.range 512) fun s i => s.load (Addr.hxBar2Map i) (rdF r (0x4C80 + 4 * i) 31 0)
  s.modImg fun i =>
    { i with home := (List.range 4864).foldl (fun m n => SMap.set noFill m (globalBank n) (homeOf r n)) [],
             tileCode := (List.range 192).map fun t => (t, rdF r (0x5480 + 4 * t) 7 0),
             entries := (List.range (entryCount r)).map (entryRec r) }

/-- Every bank is initialised (R231), then each firmware segment is written, and the Zelfa cores it names or the Plumb pair
start (R399, R403). -/
def applyFirmware (r : Rd) (s : State) : State :=
  s.each (List.range (segCount r)) fun s i =>
    let x := segEntry r i
    let put := fun (b : Banks) k => b.setByte (x.load + k) (r (x.off + k))
    let s := { s with banks := (List.range x.len).foldl put s.banks }
    let start := { Core.init with state := 1, pc := BitVec.ofNat 32 x.entry, startEdge := s.time.ticks }
    if x.target = 0 then s.each (List.range 8) fun s z => if bitOf x.mask z then s.setCore (192 + z) start else s
    else if x.target = 1 then s.setCore 200 start
    else s

/-- The whole image is put into effect (steps 6 and 7). -/
def applyImage (r : Rd) (s : State) : State :=
  let s := applyPower (sec r 4) (applyPads (sec r 3) (applyClock (sec r 2) (applyBoard (sec r 1) s)))
  let s := applyCarriers (sec r 6) (applyFronthaul (sec r 5) s)
  let s := applyMemory (sec r 9) (applyNoc (sec r 8) (applyTemplates (sec r 7) s))
  let s := applyFirmware (sec r 10) s
  let s := s.modImg fun i => { i with present := true, secVer := hdrSecVer r, signed := imgSigned r }
  let s := s.fset Addr.devSecure Fld.devSecureSecVer (hdrSecVer r)
  s.fset Addr.pwrMode Fld.pwrModeColdDeep (if hdrColdDeep r then 1 else 0)

/-! ### Step 8: journal and calibration (R385 to R387) -/

/-- Records of an area from position n to the first erased one, in order; at most `fuel`. -/
def State.jnlRecords (s : State) (area : Nat) : Nat → Nat → List Nat
  | 0, _ => []
  | f + 1, n =>
    let r := s.jnlAt area n
    if r = 2 ^ 512 - 1 then [] else r :: s.jnlRecords area f (n + 1)

def State.jnlHeader (s : State) (area : Nat) : Option Nat :=
  let r := s.jnlAt area 0
  if jnlValid r && jnlType r == 0 then some (jnlPayload r % 2 ^ 32) else none

/-- The journal is scanned: the active area, its length, the last SEQ, and records that fail (R386, R387). -/
def State.scanJournal (s : State) : State :=
  let r0 := s.jnlRecords 0 jnlSize 0
  let r1 := s.jnlRecords 1 jnlSize 0
  let seq := ((r0 ++ r1).filter jnlValid).foldl (fun m r => max m (jnlSeq r)) 0
  let s := { s with nvm := { s.nvm with seq := seq } }
  match s.jnlHeader 0, s.jnlHeader 1 with
  | none, none =>
    let s := { s with nvm := { s.nvm with seq := seq + 1, areaSeq := 1 } }
    let s := s.jnlPut 0 0 (jnlRecord 0 (seq + 1) (if s.timeValid then s.now else 0) 1)
    (s.fset Addr.jnlStat Fld.jnlStatArea 0).fset Addr.jnlStat Fld.jnlStatUsed 1
  | h0, h1 =>
    let a := if h0.getD 0 < h1.getD 0 ∨ h0.isNone then 1 else 0
    let rs := if a = 1 then r1 else r0
    let s := { s with nvm := { s.nvm with areaSeq := max (h0.getD 0) (h1.getD 0) } }
    let s := (s.fset Addr.jnlStat Fld.jnlStatArea a).fset Addr.jnlStat Fld.jnlStatUsed rs.length
    s.countBy Addr.jnlCrcSkipCnt (rs.filter fun r => !jnlValid r).length

/-- The valid records of one type in the active area, in SEQ order. -/
def State.jnlOf (s : State) (type : Nat) : List Nat :=
  let rs := (s.jnlRecords s.jnlActive s.jnlUsed 0).filter fun r => jnlValid r && jnlType r == type
  sortBy (fun a b => decide (jnlSeq a ≤ jnlSeq b)) rs

/-- Every calibration item: ID and index. -/
def calItems : List (Nat × Nat) :=
  (List.range 64).map (1, ·) ++ (List.range 64).map (2, ·) ++ [(3, 0), (4, 0)] ++ (List.range 20).map (5, ·) ++ [(6, 0)]
    ++ (List.range 40).map (7, ·)

/-- A USER value from a source of R385, without the merge. -/
def State.putUser (s : State) (x : CalItem) (u : Int) : State := s.load x.user (unsigned 16 u)

/-- The entries of the user calibration section: item, index, LOCK and value. -/
def calEntries (r : Rd) (len : Nat) : List (Nat × Nat × Bool × Int) :=
  (List.range (len / 8)).map fun k =>
    let e := rdAt r (8 * k)
    (rdF e 0 15 0, rdF e 2 15 0, rdBit e 4 0, rdS e 6 16)

/-- A journal calibration record: applied unless locked or out of range (R385). -/
def State.journalCal (s : State) (es : List (Nat × Nat × Bool × Int)) (p : Nat) : State :=
  let item := p % 65536
  let idx := p / 65536 % 65536
  let v := signed 16 (p / 2 ^ 48)
  match s.calItem item idx with
  | none => s.count Addr.devCalRejCnt
  | some x =>
    if es.any (fun e => e.1 == item && e.2.1 == idx && e.2.2.1) || v < x.uMin || x.uMax < v then s.count Addr.devCalRejCnt
    else s.putUser x v

/-- Every USER 0, then the section, then the journal, then one merge of each item (R384, R385). -/
def State.mergeCal (s : State) (es : List (Nat × Nat × Bool × Int)) : State :=
  let each' := fun (s : State) (f : State → CalItem → State) =>
    s.each calItems fun s k => match s.calItem k.1 k.2 with
      | some x => f s x
      | none => s
  let s := each' s fun s x => s.putUser x 0
  let s := s.each es fun s e => match s.calItem e.1 e.2.1 with
    | some x => s.putUser x e.2.2.2
    | none => s
  let s := s.each (s.jnlOf 3) fun s r => s.journalCal es (jnlPayload r)
  each' s fun s x => s.calMerge x

/-- The holdover word of the latest record (R315), in the servo's units. -/
def State.loadHoldover (s : State) : State :=
  match (s.jnlOf 1).getLast? with
  | none => s
  | some r =>
    let y := signed 64 (jnlPayload r) * 2 ^ 47
    { s with servo := { s.servo with yHold := y, y := y } }

/-! ### Step 9: lanes (R293) and the host port -/

/-- A used lane takes its equalisation entry and hunts. -/
def State.startLane (s : State) (l : Nat) : State :=
  let rate := s.fget (Addr.laneCfg l) Fld.laneCfgRate
  if rate = 0 then s
  else
    let e := (s.img.eq.find? fun e => e.getD 0 0 == l && e.getD 1 0 == rate).getD []
    let s := (s.load (Addr.laneEqAct l) (e.getD 3 0)).fset (Addr.laneCfg l) Fld.laneCfgTxInv (e.getD 2 0)
    s.restartHunt l

/-- The host port is ready, with its link as it trains; where it keeps its link the training changes nothing. -/
def State.startHost (s : State) (link : Option HxLink) : State :=
  let s := { s with host := { s.host with ready := !s.host.perst } }
  match link with
  | some x => if s.host.dlActive || s.host.perst then s.linkReturn else (s.hxTrained x).linkReturn
  | none => s

/-! ### The sequence -/

/-- One attempt: chip select and slot (R383). -/
structure Attempt where
  cs : Nat
  slot : Nat
  deriving DecidableEq, Repr

def attempts (env : StartEnv) : List Attempt :=
  let a := env.bootsel.toNat % 2
  [⟨0, a⟩, ⟨0, 1 - a⟩, ⟨1, a⟩, ⟨1, 1 - a⟩]

def State.imageAt (s : State) (x : Attempt) : Rd := fun i => s.flashByte x.cs (0x6000000 * x.slot + i)

def flashPresent (env : StartEnv) (cs : Nat) : Bool := bitOf env.sfdp.toNat cs

/-- The flash mode in use: BOOTSEL's, or the fastest advertised below it (R373). -/
def flashMode (env : StartEnv) (cs : Nat) : Nat :=
  let adv := if cs = 0 then env.modes0.toNat else env.modes1.toNat
  let want := env.bootsel.toNat / 2
  ((List.range (want + 1)).reverse.find? fun m => bitOf adv m).getD 0

/-- The attempt's board section can be read: its CRC passes (R322, R383). -/
def boardRead (env : StartEnv) (s : State) (x : Attempt) : Bool :=
  flashPresent env x.cs && hdrOk (s.imageAt x) && secCrcOk (s.imageAt x) 0

/-- The board section of step 2: the first whose CRC passes, in the attempt order (R322). -/
def State.firstBoard (s : State) (env : StartEnv) : Option Rd :=
  ((attempts env).find? fun x => boardRead env s x).map s.imageAt

/-- REFCLK is within 6 % of the count its declared code gives, one of the four references of R12 (R13). -/
def refOk (code count : Nat) : Bool :=
  let e := 3072 * 2 ^ code
  decide (code < 4) && decide (94 * e ≤ 100 * count ∧ 100 * count ≤ 106 * e)

/-- Step 2: TUNE_OUT at TUNE_PWRUP (R322). -/
def State.tunePowerUp (s : State) (w : Nat) : State :=
  let s := (s.fset Addr.tuneDacCode Fld.tuneDacCodeHiz 0).fset Addr.tuneDacCode Fld.tuneDacCodeCode w
  { s with servo := { s.servo with dacOut := w } }

/-- Step 3: the two PMBus reads (R369, R370); answers whether the start-up goes on. -/
def State.startPmbus (s : State) (env : StartEnv) (board : Rd) (policy : Nat) : Bool × State :=
  if policy = 0 then (true, s)
  else
    let s := if env.sdaLow then (s.count Addr.pwrPmbRecoverCnt).emitPad .pmbusRecover else s
    let ok1 := env.statusWord.any fun w => w &&& 0xFF7F == 0
    let ok2 := env.vout.any fun v => between (rdF board 0x10 15 0) v.toNat (rdF board 0x12 15 0)
    if ok1 && ok2 then (true, s)
    else
      let s := s.count Addr.pwrPmbFailCnt
      if policy = 1 then (true, { s with pwr := { s.pwr with pmbGone := true } })
      else (false, s.doubt Doubt.pmbFail)

/-- The root PLL locks: Meridian starts at 0 after a reset, and counts on after a loss (R301). -/
def State.pllLocked (s : State) : State :=
  let s := (s.fset Addr.clkStat Fld.clkStatLocked 1).fset Addr.clkStat Fld.clkStatOnBkosc 0
  if s.time.counting then s
  else { s with time := { s.time with counting := true }, noc := { s.noc with base := s.time.ticks } }

/-- No reference or no lock within 5 ms: the device goes on from BKOSC to SAFE (R13, R368). A root PLL that was locked
before has lost its reference, and Meridian holds its value (R329). -/
def State.noReference (s : State) (link : Option HxLink) : State :=
  let s := ((s.fset Addr.clkStat Fld.clkStatLocked 0).fset Addr.clkStat Fld.clkStatOnBkosc 1).count Addr.pwrWakeFailCnt
  let s := { s with time := { s.time with counting := false }, pins := { s.pins with refclk := false } }.setTimeValid false
  let s := { s with pwr := { s.pwr with wakeFailed := true } }
  (s.startHost link).doubt Doubt.clkNoref

/-- Step 4: REFCLK is counted and the root PLL locks (R13). -/
def State.startClock (s : State) (env : StartEnv) (code : Nat) : Bool × State :=
  let s := (s.fset Addr.clkStat Fld.clkStatRefCount env.count.toNat).fset Addr.clkStat Fld.clkStatRefclk code
  if refOk code env.count.toNat && env.locks then (true, s.pllLocked)
  else (false, s.noReference env.link)

/-- The cause of an attempt, 0 where its image loads (Table 16-8, R454). -/
def State.attemptCause (s : State) (env : StartEnv) (k : Nat) (x : Attempt) : Nat :=
  let r := s.imageAt x
  if !flashPresent env x.cs then 1
  else if !hdrOk r then 2
  else if !hdrCrcOk r then 3
  else if hdrSecVer r < s.nvm.rollback then 5
  else if !((List.range (hdrCount r)).all (secCrcOk r)) then 3
  else if !sigCause r s.nvm.locked s.nvm.keyHash then 4
  else if !contentOk s r then 6
  else if bitOf env.changed.toNat k then 7
  else 0

/-- NVM_BOOT_STAT.CAUSE of the attempts from k on that are not tried (Table 16-8). -/
def notTried (k : Nat) : Nat := (List.range (4 - k)).foldl (fun a i => a + 8 * 16 ^ (k + i)) 0

/-- Steps 5 to 7: the attempts in order, each from step 4 where its board section declares another REFCLK (R383); the causes (attempt 0 in [3:0]), the attempt that loaded, and whether the reference
of each attempt's board section was found. -/
def State.tryAttempts (env : StartEnv) (s : State) : Nat → List Attempt → Nat → Nat × Option Attempt × Bool × State
  | _, [], causes => (causes, none, true, s)
  | k, x :: l, causes =>
    let c := s.attemptCause env k x
    let r := s.imageAt x
    let code := rdF (sec r 1) 0 7 0
    let (ok, s) :=
      if boardRead env s x ∧ code ≠ s.fget Addr.clkStat Fld.clkStatRefclk then s.startClock env code else (true, s)
    if !ok then (causes + notTried k, none, false, s)
    else if c = 0 then (causes + notTried (k + 1), some x, true, s)
    else s.tryAttempts env (k + 1) l (causes + c * 16 ^ k)

/-- A condition still present when LOAD ends takes the device back to SAFE (R412). -/
def State.loadDoubts (s : State) : State :=
  let s := if s.flag Addr.pwrVin Fld.pwrVinPfail || s.flag Addr.pwrVin Fld.pwrVinOvw then s.doubt Doubt.vin else s
  let s := if 105 * 16 < s.plb.tj then s.doubt Doubt.thermal else s
  let s := if s.flag Addr.clkStat Fld.clkStatLocked then s else s.doubt Doubt.clkNoref
  if s.pins.safeN then s else s.doubt Doubt.safeN

/-- Steps 8 and 9, and LOAD left for RUN (Table 16-7). The verified TUNE_PWRUP takes effect where step 2 took another (R382). -/
def State.finishLoad (s : State) (env : StartEnv) (x : Attempt) : State :=
  let r := s.imageAt x
  let st := Addr.nvmBootStat
  let s := (s.fset st Fld.nvmBootStatCs x.cs).fset st Fld.nvmBootStatSlot x.slot
  let mode := flashMode env x.cs
  let s := (s.fset st Fld.nvmBootStatMode mode).fset st Fld.nvmBootStatModeFb (if mode = env.bootsel.toNat / 2 then 0 else 1)
  let s := (applyImage r (s.tunePowerUp (rdF (sec r 1) 4 19 0))).scanJournal
  let s := s.mergeCal (if hdrCount r = 11 then calEntries (sec r 11) (secLength r 11) else [])
  let s := s.loadHoldover.each (List.range 64) fun s l => s.startLane l
  let s := (s.startHost env.link).each (List.range 25) fun s c => if s.scrubEnabled c then s.maintRun 0 c else s
  let s := (s.setReg Addr.plbCause 0).fset Addr.plbStat Fld.plbStatSafe 0
  let s := { s with plb := { s.plb with loadEnd := s.time.ticks } }
  (s.setMode Mode.run).reportWake.loadDoubts

/-- Steps 5 to 9. -/
def State.bootImage (s : State) (env : StartEnv) : State :=
  let (causes, got, ok, s) := s.tryAttempts env 0 (attempts env) 0
  let s := s.fset Addr.nvmBootStat Fld.nvmBootStatCause causes
  match got with
  | some x => s.finishLoad env x
  | none => if ok then (s.startHost env.link).doubt Doubt.imgFail else s

/-- STARTUP_SEQUENCE (R381): the boot ROM's sequence in LOAD, with the power stage good; it runs from BKOSC until the root PLL
is locked (R15). -/
def execStartupSequence (env : StartEnv) (s : State) : Res :=
  if s.mode ≠ Mode.load ∨ s.pwr.stage ≠ .good then s.done
  else
    let sec' := Addr.devSecure
    let s := (s.fset sec' Fld.devSecureSecure (if s.nvm.locked then 1 else 0)).fset sec' Fld.devSecureRollback s.nvm.rollback
    let s := if s.locked then s else s.fset Addr.clkStat Fld.clkStatOnBkosc 1
    match s.firstBoard env with
    | none => State.done (s.bootImage env)
    | some r =>
      let b := sec r 1
      let s := s.tunePowerUp (rdF b 4 19 0)
      let s := (s.fset Addr.tuneDacCfg Fld.tuneDacCfgExtref (rdF b 1 2 2)).fset Addr.tuneDacCfg Fld.tuneDacCfgGain2
        (rdF b 1 1 1)
      let (ok, s) := s.startPmbus env b (rdF (sec r 4) 0 5 4)
      if !ok then s.done
      else
        let (ok, s) := s.startClock env (rdF b 0 7 0)
        if !ok then s.done else State.done (s.bootImage env)

end Sys2Proof.Machine
end

