-- ==== Sys2Proof/Machine/Chord.lean ====
section
/-! DEFINITION. The Chord ring: its torus and members (R250), the route and channels of a packet (R251), and the checks and
counts of its flits (R252). -/

namespace Sys2Proof.Machine

/-! ### The torus (R250, Table 10-8) -/

/-- What sits at a node. -/
inductive ChordUnit where
  | admission
  | dispatcher (sector : Nat)
  | plumb
  | power
  | meridian
  | zelfa (z : Nat)
  deriving DecidableEq, Repr

def chordMember (n : Nat) : ChordUnit :=
  match n with
  | 0 => .admission
  | 5 => .plumb
  | 6 => .power
  | 7 => .meridian
  | _ => if n < 5 then .dispatcher (n - 1) else .zelfa (n - 8)

/-- The node at a position of the torus. -/
def chordNode (x y : Nat) : Nat := y % 4 * 4 + x % 4

/-- The neighbour of a node over its link +y, +x, −y or −x, numbered 4 to 7 as a router's mesh ports are (DEDUCED, log 66). -/
def chordLink (n p : Nat) : Nat :=
  let x := n % 4
  let y := n / 4
  match p with
  | 4 => chordNode x (y + 1)
  | 5 => chordNode (x + 1) y
  | 6 => chordNode x (y + 3)
  | _ => chordNode (x + 3) y

/-! ### Routes (R251) -/

/-- The way round a dimension of four positions: the shorter one, the positive one on a tie. -/
def ringForward (a b : Nat) : Bool := decide ((b + 4 - a) % 4 ≤ 2)

/-- The link by which a packet leaves node n for node `dest`: X first, then Y. -/
def chordOut (n dest : Nat) : Option Nat :=
  if n % 4 ≠ dest % 4 then some (if ringForward (n % 4) (dest % 4) then 5 else 7)
  else if n / 4 ≠ dest / 4 then some (if ringForward (n / 4) (dest / 4) then 4 else 6)
  else none

/-- The link out of node n by port p joins positions 3 and 0 of its dimension: the dateline. -/
def atDateline (n p : Nat) : Bool :=
  let a := if p % 2 = 1 then n % 4 else n / 4
  if p < 6 then a == 3 else a == 0

/-- A hop: the node reached, its input port, and the virtual channel: 0 and 1 for requests, 2 and 3 for responses, the second of
each from the dateline of the dimension on. -/
structure ChordHop where
  node : Nat
  port : Nat
  vc : Nat
  deriving DecidableEq, Repr

/-- The hops from node n to node `dest`; `dim` and `past` tell the dimension followed so far and whether its dateline has been
passed. -/
def chordRoute (rsp : Bool) (dest : Nat) : Nat → Nat → Nat → Bool → List ChordHop
  | 0, _, _, _ => []
  | fuel + 1, n, dim, past =>
    match chordOut n dest with
    | none => []
    | some p =>
      let past := (past && dim == p % 2) || atDateline n p
      let m := chordLink n p
      ⟨m, if p < 6 then p + 2 else p - 2, (if rsp then 2 else 0) + (if past then 1 else 0)⟩
        :: chordRoute rsp dest fuel m (p % 2) past

/-- The route of a packet: no node is more than two positions away in either dimension. -/
def chordPath (rsp : Bool) (src dest : Nat) : List ChordHop := chordRoute rsp dest 4 src 0 false

/-! ### A packet (R251, R252) -/

/-- An uncorrectable error: counted, logged with RING = 1, and the doubt CHORD_UE. -/
def State.chordUe (s : State) (type node port src : Nat) : State :=
  ((s.count Addr.nocChordUeCnt).nocLog true type node port src).doubt Doubt.chordUe

def State.chordCe (s : State) (n : Nat) : State := if n = 0 then s else s.countBy Addr.nocChordCeCnt n

/-- What has become of a packet: its flits, none for one that was lost, and whether any error was uncorrectable. -/
structure ChordAcc where
  flits : List (Option ChordFlit)
  bad : Bool
  deriving DecidableEq, Repr

/-- The requester that the packet's header names, where it can be read. -/
def ChordAcc.src (a : ChordAcc) : Nat := match a.flits.headD none with
  | some f => Pkt.src f.lanes
  | none => 0

/-- Flit i is checked at a hop. -/
def State.chordCheck (s : State) (h : ChordHop) (a : ChordAcc) (i : Nat) (hdrFlips laneFlips : Nat) : ChordAcc × State :=
  match a.flits.getD i none with
  | none => (a, s)
  | some f =>
    let ((v, hc), s) := s.secded 56 f.hdr.toNat hdrFlips
    if hc = 2 then (⟨a.flits.set i none, true⟩, s.chordUe NocErr.header h.node h.port 0)
    else
      let ((l, n, ue), s) := s.checkLanes 4 f.lanes.toNat laneFlips
      let a' : ChordAcc := ⟨a.flits.set i (some ⟨BitVec.ofNat 56 v, BitVec.ofNat 256 l⟩), a.bad || ue != 0⟩
      let s := s.chordCe (n + hc)
      (a', s.each ((List.range 4).filter fun k => bitOf ue k) fun s _ => s.chordUe NocErr.lane h.node h.port a.src)

/-- The errors that meet the packet's flits at hop k. -/
def State.chordHop (s : State) (errs : List ChordErr) (a : ChordAcc) (k : Nat) (h : ChordHop) : ChordAcc × State :=
  (errs.filter fun e => e.hop.val == k).foldl (fun acc e =>
    acc.2.chordCheck h acc.1 e.flit e.hdrFlips.toNat e.laneFlips.toNat) (a, s)

/-- The packet's payload: LEN bytes of the flits after the first, which holds the header of Table 10-4. -/
def chordPayload (l : List ChordFlit) : List Byte :=
  ((l.drop 1).map fun f => leBytes 32 f.lanes.toNat).flatten.take (Pkt.len ((l.headD ⟨0, 0⟩).lanes))

/-- At its destination a whole packet is checked by its CRC and delivered; one with an uncorrectable error is not. -/
def State.chordDeliver (s : State) (src dest node port : Nat) (a : ChordAcc) : State :=
  if a.flits.any (·.isNone) then s
  else
    let l := a.flits.filterMap id
    let p := (l.headD ⟨0, 0⟩).lanes
    let d := chordPayload l
    if Pkt.crc p ≠ Pkt.crcOf p d then s.chordUe NocErr.crc node port (Pkt.src p)
    else if a.bad then s
    else s.emit (.chord src dest p d)

/-- CHORD_PACKET (R250 to R252): a packet of `flits` goes from node `src` to node `dest`, with the errors `errs` on its way. -/
def execChordPacket (src dest : Fin 16) (flits : List ChordFlit) (errs : List ChordErr) (s : State) : Res :=
  let path := chordPath (Pkt.isRsp ((flits.headD ⟨0, 0⟩).lanes)) src dest
  let (a, s) := (List.range path.length).foldl (fun (acc : ChordAcc × State) k =>
    acc.2.chordHop errs acc.1 k (path.getD k ⟨0, 0, 0⟩)) (⟨flits.map some, false⟩, s)
  State.done (s.chordDeliver src dest dest ((path.getLast?.map (·.port)).getD 0) a)

end Sys2Proof.Machine
end

