-- ==== Sys2Proof/Machine/Alu.lean ====
section
/-! DEFINITION. The scalar arithmetic of the Gelvipa core (Tables 04-6 and 04-7) and the fixed-point helpers the vector
unit shares with it (R122, R123, R124, R126). -/

namespace Sys2Proof.Machine

/-- The two's-complement value of the low `w` bits of `x`. -/
def toSigned (w x : Nat) : Int :=
  let y := x % 2 ^ w
  if 2 * y < 2 ^ w then (y : Int) else (y : Int) - (2 ^ w : Nat)

/-- The `w`-bit pattern of an integer, modulo 2^w. -/
def ofSigned (w : Nat) (x : Int) : Nat := (x % (2 ^ w : Nat)).toNat

/-- The smallest and the largest value of `w` signed bits. -/
def minS (w : Nat) : Int := -((2 ^ (w - 1) : Nat) : Int)
def maxS (w : Nat) : Int := ((2 ^ (w - 1) : Nat) : Int) - 1

/-- Clip to `w` signed bits. -/
def clipS (w : Nat) (x : Int) : Int := max (minS w) (min (maxS w) x)

/-- Narrow a result to `w` bits under the SAT bit; the flag says that it was clipped (R124). -/
def narrow (sat : Bool) (w : Nat) (x : Int) : Nat × Bool :=
  if sat then (ofSigned w (clipS w x), decide (x < minS w ∨ maxS w < x)) else (ofSigned w x, false)

/-- Leading zeros of a `w`-bit pattern. -/
def clzW (w x : Nat) : Nat := if x % 2 ^ w = 0 then w else w - 1 - Nat.log2 (x % 2 ^ w)

/-- EXP: the leading bits equal to the sign bit, less 1 (R83, R126). -/
def expW (w x : Nat) : Nat :=
  let y := x % 2 ^ w
  (if 2 * y < 2 ^ w then clzW w y else clzW w (2 ^ w - 1 - y)) - 1

/-- The number of 1 bits among the low `w` bits. -/
def popcount : Nat → Nat → Nat
  | 0, _ => 0
  | w + 1, x => x % 2 + popcount w (x / 2)

/-- x / 2^s rounded by a mode of Table 05-5: 0 RNE, 1 RHA, 2 FLR, 3 RTZ (R123). -/
def roundShift (rm : Nat) (x : Int) (s : Nat) : Int :=
  if s = 0 then x
  else
    let d : Int := ((2 ^ s : Nat) : Int)
    let q := x / d
    let r := x % d
    match rm % 4 with
    | 0 => if 2 * r < d then q else if d < 2 * r then q + 1 else if q % 2 = 0 then q else q + 1
    | 1 => if 2 * r < d then q else if d < 2 * r then q + 1 else if x < 0 then q else q + 1
    | 2 => q
    | _ => if x < 0 ∧ r ≠ 0 then q + 1 else q

/-! ### Table 04-6 and Table 04-7 -/

def aluShl (a b : Word) : Word := a <<< (b.toNat % 32)
def aluShr (a b : Word) : Word := a >>> (b.toNat % 32)
def aluSar (a b : Word) : Word := a.sshiftRight (b.toNat % 32)
def aluRol (a b : Word) : Word := a.rotateLeft (b.toNat % 32)
def aluSlt (a b : Word) : Word := if a.toInt < b.toInt then 1 else 0
def aluSltu (a b : Word) : Word := if a.toNat < b.toNat then 1 else 0
def aluMin (a b : Word) : Word := if a.toInt ≤ b.toInt then a else b
def aluMax (a b : Word) : Word := if a.toInt ≤ b.toInt then b else a
def aluMinu (a b : Word) : Word := if a.toNat ≤ b.toNat then a else b
def aluMaxu (a b : Word) : Word := if a.toNat ≤ b.toNat then b else a
def aluMul (a b : Word) : Word := a * b
def aluMulh (a b : Word) : Word := BitVec.ofInt 32 (a.toInt * b.toInt / 4294967296)
def aluMulhu (a b : Word) : Word := BitVec.ofNat 32 (a.toNat * b.toNat / 4294967296)
def aluAbs (a : Word) : Word :=
  if a = 0x80000000 then 0x7FFFFFFF else if a.toInt < 0 then -a else a
def aluExp (a : Word) : Word := BitVec.ofNat 32 (expW 32 a.toNat)
def aluNorm (a : Word) : Word := a <<< expW 32 a.toNat
def aluClz (a : Word) : Word := BitVec.ofNat 32 (clzW 32 a.toNat)
def aluPopc (a : Word) : Word := BitVec.ofNat 32 (popcount 32 a.toNat)
def aluAdds (a b : Word) : Word := BitVec.ofInt 32 (clipS 32 (a.toInt + b.toInt))
def aluSubs (a b : Word) : Word := BitVec.ofInt 32 (clipS 32 (a.toInt - b.toInt))

/-- The sign-extended 14-bit immediate of format SI. -/
def immS (i : BitVec 14) : Word := i.signExtend 32
/-- The zero-extended 14-bit immediate of format SI. -/
def immZ (i : BitVec 14) : Word := i.zeroExtend 32

/-- Bit-reversed addition over the low `b` bits: the carry runs from bit b − 1 towards bit 0 (Table 04-4). -/
def revBits : Nat → Nat → Nat
  | 0, _ => 0
  | b + 1, x => (x % 2) * 2 ^ b + revBits b (x / 2)

def bitrevAdd (b x y : Nat) : Nat := revBits b ((revBits b x + revBits b y) % 2 ^ b)

/-- The integer square root by trying one bit after another, from bit `n − 1` down. -/
def isqrtBits : Nat → Nat → Nat → Nat
  | 0, _, r => r
  | n + 1, x, r => let c := r + 2 ^ n; if c * c ≤ x then isqrtBits n x c else isqrtBits n x r

/-- The root rounded to nearest, ties up (Table 04-14): floor(sqrt(x) + 1/2). -/
def isqrtRound (x : Nat) : Nat :=
  let r := isqrtBits 17 x 0
  if r * r + r < x then r + 1 else r

end Sys2Proof.Machine
end

