-- ==== Sys2Proof/Machine/Encoding.lean ====
section
/-! DEFINITION. The encodings of the core's instructions (R83, R118, R137, Tables 04-5 to 04-11 and 05-8 to 05-10): what two
fetched words encode, if they encode anything. A reserved operation code and a non-zero field marked 0 encode nothing. A
field that a row of the tables neither uses nor marks 0 may hold any value (DESIGN CHOICE, log 59). -/

namespace Sys2Proof.Machine

/-- Bits [hi:lo] of an instruction word. -/
def fld (w : Word) (hi lo : Nat) : Nat := bitsOf w.toNat hi lo

/-- The 5-bit register number at bit lo. -/
def reg5 (w : Word) (lo : Nat) : Fin 32 := Fin.ofNat 32 (w.toNat / 2 ^ lo)

/-- The number of an M register in the 5-bit field at bit lo: bits [4:3] of the field are 0 (R137). -/
def mreg5 (w : Word) (lo : Nat) : Option (Fin 8) :=
  if fld w (lo + 4) (lo + 3) = 0 then some (Fin.ofNat 8 (w.toNat / 2 ^ lo)) else none

/-- An instruction whose fields marked 0 are 0. -/
def only (z : Nat) (i : Instr) : Option Instr := if z = 0 then some i else none

/-- SR, register-register (Tables 04-5 and 04-6). -/
def decodeSr (c : CoreId) (w : Word) : Option Instr :=
  let rd := reg5 w 18
  let ra := reg5 w 13
  let rb := reg5 w 8
  let z := fld w 7 0
  let zb := fld w 12 0
  match fld w 28 23 with
  | 0x00 => only z (.add c rd ra rb)
  | 0x01 => only z (.sub c rd ra rb)
  | 0x02 => only z (.and c rd ra rb)
  | 0x03 => only z (.or c rd ra rb)
  | 0x04 => only z (.xor c rd ra rb)
  | 0x05 => only z (.andn c rd ra rb)
  | 0x06 => only z (.shl c rd ra rb)
  | 0x07 => only z (.shr c rd ra rb)
  | 0x08 => only z (.sar c rd ra rb)
  | 0x09 => only z (.rol c rd ra rb)
  | 0x0A => only z (.slt c rd ra rb)
  | 0x0B => only z (.sltu c rd ra rb)
  | 0x0C => only z (.min c rd ra rb)
  | 0x0D => only z (.max c rd ra rb)
  | 0x0E => only z (.minu c rd ra rb)
  | 0x0F => only z (.maxu c rd ra rb)
  | 0x10 => only z (.mul c rd ra rb)
  | 0x11 => only z (.mulh c rd ra rb)
  | 0x12 => only z (.mulhu c rd ra rb)
  | 0x13 => only zb (.abs c rd ra)
  | 0x14 => only zb (.norm c rd ra)
  | 0x15 => only zb (.exp c rd ra)
  | 0x16 => only zb (.clz c rd ra)
  | 0x17 => only zb (.popc c rd ra)
  | 0x18 => only z (.adds c rd ra rb)
  | 0x19 => only z (.subs c rd ra rb)
  | _ => none

/-- SI, register-immediate (Table 04-7). -/
def decodeSi (c : CoreId) (w : Word) : Option Instr :=
  let rd := reg5 w 19
  let ra := reg5 w 14
  let imm : BitVec 14 := w.setWidth 14
  let sh := reg5 w 0
  let zs := fld w 13 5
  match fld w 28 24 with
  | 0x00 => some (.addi c rd ra imm)
  | 0x01 => some (.andi c rd ra imm)
  | 0x02 => some (.ori c rd ra imm)
  | 0x03 => some (.xori c rd ra imm)
  | 0x04 => some (.slti c rd ra imm)
  | 0x05 => some (.sltiu c rd ra imm)
  | 0x06 => only zs (.shli c rd ra sh)
  | 0x07 => only zs (.shri c rd ra sh)
  | 0x08 => only zs (.sari c rd ra sh)
  | 0x09 => only ra.val (.lui c rd imm)
  | _ => none

/-- SM, load and store (Table 04-8). -/
def decodeSm (c : CoreId) (w : Word) : Option Instr :=
  let r := reg5 w 20
  let ra := reg5 w 15
  let off : BitVec 15 := w.setWidth 15
  match fld w 28 25 with
  | 0x0 => some (.ldw c r ra off none)
  | 0x1 => some (.ldh c r ra off none)
  | 0x2 => some (.ldhu c r ra off none)
  | 0x3 => some (.ldb c r ra off none)
  | 0x4 => some (.ldbu c r ra off none)
  | 0x8 => some (.stw c r ra off none)
  | 0x9 => some (.sth c r ra off none)
  | 0xA => some (.stb c r ra off none)
  | 0xC => some (.stws c r ra off none)
  | 0xD => some (.stwc c r ra off none)
  | _ => none

/-- B, branch (Table 04-9). -/
def decodeB (c : CoreId) (w : Word) : Option Instr :=
  let ra := reg5 w 20
  let rb := reg5 w 15
  let d : BitVec 15 := w.setWidth 15
  match fld w 28 25 with
  | 0x0 => some (.beq c ra rb d)
  | 0x1 => some (.bne c ra rb d)
  | 0x2 => some (.blt c ra rb d)
  | 0x3 => some (.bge c ra rb d)
  | 0x4 => some (.bltu c ra rb d)
  | 0x5 => some (.bgeu c ra rb d)
  | 0x6 => only (fld w 24 15) (.bcpb c d)
  | 0x8 => some (.jal c ra (w.setWidth 20))
  | 0x9 => only d.toNat (.jr c ra rb)
  | _ => none

/-- CPX with a coprocessor operation of Table 04-14; another code is reserved (DEDUCED, log 59). -/
def decodeCpx (c : CoreId) (ra rb : Fin 32) : Nat → Option Instr
  | 0x01 => some (.cpCrecip c ra rb false)
  | 0x02 => some (.cpSqrt c ra rb false)
  | 0x03 => some (.cpAtan2 c ra rb false)
  | 0x04 => some (.cpTopk c ra rb false)
  | 0x05 => some (.cpCrc c ra rb false)
  | 0x06 => some (.cpScramb c ra rb false)
  | 0x07 => some (.cpIntlv c ra rb false)
  | _ => none

/-- C, control (Table 04-10). -/
def decodeC (c : CoreId) (w : Word) : Option Instr :=
  let ra := reg5 w 19
  let rb := reg5 w 14
  match fld w 28 24 with
  | 0x00 => only (fld w 23 16) (.repImm c (w.setWidth 16) 0)
  | 0x01 => some (.repReg c ra 0)
  | 0x02 => some (.loop c ra (reg5 w 0) .ok)
  | 0x03 => decodeCpx c ra rb (fld w 7 0)
  | 0x04 => some (.cpwait c)
  | 0x05 => some (.mfc c ra (w.setWidth 12) false)
  | 0x06 => some (.mtc c ra (w.setWidth 12) false)
  | 0x07 => some (.stend c ra rb)
  | 0x08 => some (.setres c ra (Fin.ofNat 4 w.toNat) false)
  | 0x09 => some (.eret c)
  | 0x0A => only (fld w 23 16) (.brk c (w.setWidth 16))
  | 0x0B => some (.fence c)
  | _ => none

/-- L, long, of both slots (Tables 04-11 and 05-8). -/
def decodeL (c : CoreId) (w imm : Word) : Option Instr :=
  let rd := reg5 w 19
  let ra := reg5 w 14
  if fld w 13 0 ≠ 0 then none
  else match fld w 28 24 with
  | 0x00 => some (.li c rd imm)
  | 0x01 => some (.addil c rd ra imm)
  | 0x02 => some (.andil c rd ra imm)
  | 0x03 => some (.oril c rd ra imm)
  | 0x04 => some (.xoril c rd ra imm)
  | 0x05 => some (.ldwl c rd ra imm none)
  | 0x06 => some (.stwl c rd ra imm none)
  | 0x07 => only (fld imm 31 24 + ra.val) (.loopl c (imm.setWidth 24) rd .ok)
  | 0x08 => some (.jl c imm)
  | 0x10 => only (fld imm 31 28) (.vsetli c rd (imm.setWidth 24) (Fin.ofNat 4 (fld imm 27 26)) (Fin.ofNat 4 (fld imm 25 24)))
  | 0x11 => some (.vbcst c rd imm)
  | _ => none

/-- The operand fields of a VA word (Table 05-8). -/
def fieldsVa (w : Word) : VArith :=
  { vd := reg5 w 18, vs1 := reg5 w 13, vs2 := reg5 w 8, k := Fin.ofNat 4 (fld w 7 6), sat := w.getLsbD 5, mz := w.getLsbD 4,
    men := w.getLsbD 3, m := Fin.ofNat 8 w.toNat }

def fieldsVe (w : Word) : VExpo :=
  { vd := reg5 w 18, vs1 := reg5 w 13, m6 := BitVec.ofNat 6 (fld w 6 6 * 32 + fld w 12 8), sat := w.getLsbD 5,
    mz := w.getLsbD 4, men := w.getLsbD 3, m := Fin.ofNat 8 w.toNat }

def fieldsVp (w : Word) : VPackOp :=
  { vd := reg5 w 18, vs1 := reg5 w 13, vs2 := reg5 w 8, m1 := Fin.ofNat 32 (fld w 6 6 * 16 + fld w 3 0), sat := w.getLsbD 5,
    h := w.getLsbD 4 }

/-- The mask operations (Table 05-9): the fields that name M registers, and M = 0 where MEN = 0 (R114). -/
def decodeMask (c : CoreId) (w : Word) : Option Instr :=
  if !w.getLsbD 3 && fld w 2 0 != 0 then none
  else
    let md := mreg5 w 18
    let m1 := mreg5 w 13
    let m2 := mreg5 w 8
    let three := fun (f : Fin 8 → Fin 8 → Fin 8 → Instr) => md.bind fun d => m1.bind fun a => m2.map fun b => f d a b
    match fld w 28 23 with
    | 0x30 => three (.mand c)
    | 0x31 => three (.mor c)
    | 0x32 => three (.mxor c)
    | 0x33 => three (.mandn c)
    | 0x34 => md.bind fun d => m1.map fun a => .mnot c d a
    | 0x35 => md.map fun d => .msetvl c d
    | 0x36 => m1.map fun a => .mpopc c (reg5 w 18) a
    | 0x37 => m1.map fun a => .mfirst c (reg5 w 18) a
    | _ => none

/-- VA, arithmetic (Table 05-9). -/
def decodeVa (c : CoreId) (w : Word) : Option Instr :=
  let x := fieldsVa w
  let b7 := fld w 7 7
  match fld w 28 23 with
  | 0x00 => some (.vadd c x)
  | 0x01 => some (.vsub c x)
  | 0x02 => some (.vrsub c x)
  | 0x03 => some (.vmin c x)
  | 0x04 => some (.vmax c x)
  | 0x05 => only (x.k.val + x.vs2.val) (.vabs c x)
  | 0x06 => some (.vand c x)
  | 0x07 => some (.vor c x)
  | 0x08 => some (.vxor c x)
  | 0x09 => some (.vshl c x)
  | 0x0A => some (.vshr c x)
  | 0x0B => some (.vsra c x)
  | 0x0C => some (.vsrar c x)
  | 0x0D => some (.vmerge c x)
  | 0x0E => only x.k.val (.vclr c x)
  | 0x0F => some (.vconj c x)
  | 0x10 => some (.vmul c x)
  | 0x11 => some (.vmulq c x)
  | 0x12 => some (.vmacw c x)
  | 0x13 => some (.vmscw c x)
  | 0x14 => some (.vcmulq c x)
  | 0x15 => some (.vcmulcq c x)
  | 0x16 => some (.vcmacw c x)
  | 0x17 => some (.vcmaccw c x)
  | 0x18 => only x.k.val (.vnrw c x)
  | 0x19 => some (.vwcvt c x)
  | 0x1A => only (fld w 22 21) (.vcmpeq c x)
  | 0x1B => only (fld w 22 21) (.vcmplt c x)
  | 0x1C => only (fld w 22 21) (.vcmple c x)
  | 0x1D => some (.vnorm c x)
  | 0x1E => some (.vexp c x)
  | 0x1F => only b7 (.vbexp c (fieldsVe w))
  | 0x20 => only b7 (.vbexps c (fieldsVe w))
  | 0x21 => some (.vshrs c x)
  | 0x22 => only b7 (.vpack c (fieldsVp w))
  | 0x23 => only b7 (.vunpack c (fieldsVp w))
  | 0x24 => some (.vslideup c x)
  | 0x25 => some (.vslidedn c x)
  | 0x26 => some (.vzip c x)
  | 0x27 => only x.k.val (.vunzip c x)
  | 0x28 => some (.vrev c x)
  | 0x29 => some (.vredsum c x)
  | 0x2A => some (.vredmax c x)
  | 0x2B => some (.vmvxv c x)
  | 0x2C => some (.vmvvx c x)
  | _ => decodeMask c w

/-- The operand fields of a VM word (Table 05-8). -/
def fieldsVm (w : Word) : VMem :=
  { v := reg5 w 20, am := Fin.ofNat 4 (fld w 19 18), p := w.getLsbD 17, g := reg5 w 12, off := BitVec.ofNat 8 (fld w 11 4),
    men := w.getLsbD 3, m := Fin.ofNat 8 w.toNat }

/-- VM, memory and configuration (Table 05-10). -/
def decodeVm (c : CoreId) (w : Word) : Option Instr :=
  let x := fieldsVm w
  let off := if x.am = 3 then 0 else x.off.toNat
  match fld w 28 25 with
  | 0x0 => only off (.vld c x none)
  | 0x1 => only off (.vst c x none)
  | 0x2 => only off (.vstn c x none)
  | 0x3 => only (off + fld w 24 23) (.vldm c x none)
  | 0x4 => only (off + fld w 24 23) (.vstm c x none)
  | 0x5 => only (fld w 19 17 + fld w 7 0)
      (.vsetl c (reg5 w 20) (reg5 w 12) (Fin.ofNat 4 (fld w 11 10)) (Fin.ofNat 4 (fld w 9 8)))
  | _ => none

/-- What a core's two words at the pc encode (Table 04-5); the second counts only in the L format. -/
def decodeCore (c : CoreId) (w0 w1 : Word) : Option Instr :=
  match fld w0 31 29 with
  | 0 => decodeSr c w0
  | 1 => decodeSi c w0
  | 2 => decodeSm c w0
  | 3 => decodeB c w0
  | 4 => decodeC c w0
  | 5 => decodeVa c w0
  | 6 => decodeVm c w0
  | _ => decodeL c w0 w1

/-- The words fetched in the command's place, where it names some, encode an instruction; otherwise ILLEGAL is taken
(R83). -/
def coreEncoded (c : CoreId) : Bool := c.words.all fun w => (decodeCore c w.1 w.2).isSome

end Sys2Proof.Machine
end

