-- ==== Sys2Proof/Machine/Pads.lean ====
section
/-! DEFINITION. What the device drives at its balls: GPIO with their directions, initial and safe levels (R392, R411, Table
17-3), the pad latches of DEEP (R365), FAULT_N, PPS_OUT and TUNE_OUT (R322, R323, R441). -/

namespace Sys2Proof.Machine

/-- A level code of Table 16-15: 0, 1, or high-Z. -/
def padLevel (code : Nat) : Option Bool := if code = 0 then some false else if code = 1 then some true else none

/-- What an output stage drives: an open-drain one only pulls low. -/
def padDrive (dir : Nat) (level : Option Bool) : Option Bool :=
  if dir = 1 then level else if dir = 2 then level.filter fun b => !b else none

/-- The level that the domain behind GPIO g drives; none for high-impedance (R392, Table 17-3). -/
def State.gpioPad (s : State) (g : Nat) : Option Bool :=
  let t := SMap.get (fun _ => (⟨0, 0, 0⟩ : GpioT)) s.img.gpio g
  padDrive t.dir (if s.pins.gpioSafe then padLevel t.safe else if s.pins.gpioZ.getLsbD g then none else some (s.pins.gpio.getLsbD g))

/-- The latches take the levels and output enables of the pads as VDD_IOD goes (R365). -/
def State.latchPads (s : State) : State :=
  let bits := fun (p : Nat → Bool) => BitVec.ofNat 32 ((List.range 32).foldl (fun a g => if p g then a + 2 ^ g else a) 0)
  let latch : PadLatch := ⟨bits fun g => s.gpioPad g == some true, bits fun g => (s.gpioPad g).isSome, s.pins.faultN⟩
  { s with pins := { s.pins with latch := latch } }.fset Addr.pwrPadCtrl Fld.pwrPadCtrlHeld 1

/-- VDD_IO18 is up, and with it the pads (Table 15-2). -/
def State.padsPowered (s : State) : Bool := s.mode != Mode.off

/-- The level that the ball of GPIO g is driven to. -/
def State.gpioBall (s : State) (g : Nat) : Option Bool :=
  if !s.padsPowered then none
  else if s.padsHeld then (if s.pins.latch.gpioEn.getLsbD g then some (s.pins.latch.gpio.getLsbD g) else none)
  else s.gpioPad g

/-- FAULT_N, whose driver the AON domain holds while the other dies are unpowered; the pin is open drain (R353, R368). -/
def State.faultNBall (s : State) : Bool :=
  if s.padsPowered && s.padsHeld then s.pins.latch.faultN else s.pins.faultN

/-- PPS_OUT, low while the pads are held and in OFF (R316, R365). -/
def State.ppsOutBall (s : State) : Bool := s.padsPowered && !s.padsHeld && s.ppsOutHigh

/-- The word that TUNE_OUT puts out; none while it is high-impedance, and in OFF (R322, R323, R441). -/
def State.tuneOut (s : State) : Option Nat :=
  if s.mode = Mode.off || s.flag Addr.tuneDacCode Fld.tuneDacCodeHiz then none else some s.servo.dacOut

end Sys2Proof.Machine
end

