-- ==== Sys2Proof/Machine/RootPll.lean ====
section
/-! DEFINITION. The power stage, the root PLL, the reference and VIN (R13, R301, R329, R350 to R353, R364 to R368, R413): wakes
from SLEEP, DEEP and OFF, their steps and their failures. -/

namespace Sys2Proof.Machine

/-! ### Power down -/

/-- Clocks stop with the rails: Meridian's value and the servo are lost (R301, R329). -/
def State.stopClocks (s : State) : State :=
  let s := (s.fset Addr.clkStat Fld.clkStatLocked 0).fset Addr.clkStat Fld.clkStatOnBkosc 0
  let s := (s.fset Addr.tbServoStat Fld.tbServoStatTimeValid 0).fset Addr.tbServoStat Fld.tbServoStatState 0
  let servo := { Servo.reset with dacOut := s.servo.dacOut, yHold := s.servo.yHold, y := s.servo.yHold }
  { s with time := { Meridian.reset with ticks := s.time.ticks, runTicks := s.time.runTicks }, servo := servo,
           fh := { s.fh with free := [], cpri := [] } }

/-- The host sees the link go down (R366). -/
def State.hostDown (s : State) : State :=
  ({ s with host := { s.host with dlActive := false, ready := false } }.linkLoss).resetCfg

/-- The power stage stops: all rails but VAON fall (R352, R353). -/
def State.stageOff (s : State) : State := { s with pwr := { s.pwr with stage := .off, wake := none, vote := none } }

/-- The device is in OFF (Table 15-3): pads high-impedance, nothing but AON powered; the test access port loses its state. -/
def State.enterOff (s : State) : State :=
  let s := ((s.setMode Mode.off).hostDown).stopClocks.stageOff
  let pins := { s.pins with gpioZ := BitVec.ofNat 32 0xFFFFFFFF, gpioSafe := false }
  { s with cmp := { s.cmp with inbox := [], held := false }, pins := pins, jtag := Jtag.reset }

/-- Bytes of flash operations that power loss interrupts are left open. -/
def State.tearFlash (s : State) : State :=
  let put := fun (s : State) (a : Nat × Nat) =>
    let (b, s) := s.free 8
    s.setFlashByte a.1 a.2 b
  let bytes := s.nvm.ops.flatMap fun o => (List.range o.len).map fun i => (o.cs, o.addr + i)
  let s := s.each bytes put
  { s with nvm := { s.nvm with ops := [] } }

/-! ### The start of LOAD and the wakes -/

/-- PWR_WAKE_REASON at a wake. -/
def State.wakeReason (s : State) (reason last : Nat) : State :=
  (s.fset Addr.pwrWakeReason Fld.pwrWakeReasonReason reason).fset Addr.pwrWakeReason Fld.pwrWakeReasonLastEntry last

/-- LOAD from power-up, OFF or a cold wake: the stage rises and every register is reset (R381, R425). -/
def State.startLoad (s : State) : State :=
  let s := ((s.setMode Mode.load).loadReset false).setReg Addr.plbStat 0
  let s := (s.setReg Addr.plbCause 0).fset Addr.pwrMode Fld.pwrModeColdDeep 0
  { s with pwr := { s.pwr with stage := .rising, wake := none, restart := none } }

/-- The clusters that were asleep with the device start to wake (R257, Table 09-8). -/
def State.wakeSleep (s : State) : State :=
  let s := s.setMode Mode.idle
  let s := { s with pwr := { s.pwr with waking := BitVec.ofNat 24 (2 ^ 24 - 1), wakeTimer := none } }.wakeUnits
  if s.pins.safeN then s else s.doubt Doubt.safeN

/-- A wake by reason `r` (Table 15-4): from SLEEP to IDLE, from DEEP by the power stage, from OFF through LOAD; during a vote
from SLEEP it waits for the vote's end. -/
def State.wakeBy (s : State) (r : Nat) : State :=
  if s.mode = Mode.sleep then
    if s.pwr.vote.isSome then { s with pwr := { s.pwr with pendWake := some r } }
    else (s.wakeReason r Mode.sleep).wakeSleep
  else if s.pwr.stage ≠ .off then s
  else if s.mode = Mode.deep then
    let s := s.wakeReason r Mode.deep
    if s.flag Addr.pwrMode Fld.pwrModeColdDeep then s.startLoad
    else { s with pwr := { s.pwr with stage := .rising, wake := some true, wakeTimer := none } }
  else if s.mode = Mode.off then (s.wakeReason r Mode.off).startLoad
  else s

/-- WAKE_N_ASSERT (R367): a qualified transition; none starts anything while VIN is below the start threshold. -/
def execWakeNAssert (s : State) : Res := if s.pwr.restart.isSome then s.done else State.done (s.wakeBy 1)

/-- WAKE_TIMER_EXPIRY (R355): the timer of the request that led to SLEEP or DEEP. -/
def execWakeTimerExpiry (s : State) : Res :=
  match s.pwr.wakeTimer with
  | none => s.done
  | some (t, ms) =>
    let s := { s.advanceToTick (t + ms * 491520) with pwr := { s.pwr with wakeTimer := none } }
    State.done (s.wakeBy 2)

/-! ### A warm wake from DEEP (R364, Table 15-9) -/

/-- Registers that a warm wake gives back: AON and live status, the HX block, and those of the restore list; the others take
their reset values (R364, R425). -/
def keptAtWarmWake (a : Nat) : Bool :=
  a == Addr.pwrWakeReason || a == Addr.pwrOvDiscCnt || a == Addr.pwrMode || a == Addr.pwrVin || a == Addr.pwrPadCtrl
    || a == Addr.clkStat || decide (0x41400000 ≤ a ∧ a < 0x41800000) || Config.onRestoreList a

/-- Banks with RETAIN = 0 are initialised, the state of unpowered domains is lost, the registers are restored, and the domains
are powered again (R231, R273, R363, R364). -/
def State.warmRestore (s : State) : State :=
  let keys := (List.range 4864).map globalBank
  let s := s.each keys fun s k => if s.flag (cfgReg k) Fld.memBankCfgRetain then s else s.initBank k
  let s := { s with cores := s.cores.filter fun c => decide (192 ≤ c.1), dma := [], chains := [],
                    eng := { done := [], halted := [], locks := [] }, noc := { s.noc with
                      resv := [], paths := [], expired := [], wait := [], hold := [], taken := [] } }
  let s := { s with regs := s.regs.filter fun e => keptAtWarmWake e.1 }
  let s := s.each (List.range 400) fun s k => s.setDmaState (k / 16) (k % 16) Dma.idle
  let s := if s.img.retainSdc then s else { s with coef := [], coefPoison := [] }
  let s := if s.img.retainCmp then s else { s with cmp := { s.cmp with cal := [], calBad := [], flows := [] } }
  let s := s.each (List.range 30) fun s d => s.liftFence d
  let s := s.setReg Addr.pwrClStat (BitVec.ofNat 64 (2 ^ 24 - 1))
  let s := s.each (List.range 64) fun s l => if s.laneUsed l then s.restartHunt l else s
  let s := s.each (List.range 25) fun s c => s.newLap c
  { s with cmp := { s.cmp with held := false }, pwr := { s.pwr with wake := some false } }

/-- Steps 4 to 6 of Table 15-9; a SAFE_N that is low (R367) and a VIN outside its window (R350) take the device to SAFE. -/
def State.finishWake (s : State) : State :=
  let s := (s.warmRestore).setMode Mode.idle
  let s := { s with pwr := { s.pwr with wake := none } }.reportWake
  let s := if s.flag Addr.pwrVin Fld.pwrVinPfail || s.flag Addr.pwrVin Fld.pwrVinOvw then s.doubt Doubt.vin else s
  if s.pins.safeN then s else s.doubt Doubt.safeN

def State.waking (s : State) : Bool := s.pwr.wake == some true && s.mode == Mode.deep && s.pwr.stage == .good

/-- ROOT_PLL_LOCK (R301): in a warm wake the wake then completes. -/
def execRootPllLock (s : State) : Res :=
  if s.mode = Mode.off || (s.mode == Mode.deep && !s.waking) || s.pwr.stage != .good then s.done
  else
    let wake := s.waking
    let s := s.pllLocked
    State.done (if wake then s.finishWake else s)

/-- A wake without reference or lock goes on from BKOSC to SAFE (Table 15-10). -/
def State.wakeNoReference (s : State) : State := s.warmRestore.noReference none

/-- PLL_LOCK_TIMEOUT (R368): 5 ms without reference or lock, in a start-up or a wake. -/
def execPllLockTimeout (s : State) : Res :=
  if s.waking then State.done s.wakeNoReference
  else if s.mode = Mode.load && s.pwr.stage == .good && !s.flag Addr.clkStat Fld.clkStatLocked then
    State.done (s.noReference none)
  else s.done

/-- REFCLK_LOCK_RETRY (R368): every 100 ms without lock, the count of R13 and a retry of the lock. -/
def execRefclkLockRetry (count : BitVec 16) (locks : Bool) (s : State) : Res :=
  if s.flag Addr.clkStat Fld.clkStatLocked || !s.flag Addr.clkStat Fld.clkStatOnBkosc then s.done
  else
    let s := s.fset Addr.clkStat Fld.clkStatRefCount count.toNat
    let ok := refOk (s.fget Addr.clkStat Fld.clkStatRefclk) count.toNat
    let s := { s with pins := { s.pins with refclk := ok } }
    State.done (if ok && locks then s.pllLocked else s)

/-- The root PLL is unlocked: Meridian holds, and the units of R15 run from BKOSC. -/
def State.pllLost (s : State) : State :=
  let s := (s.fset Addr.clkStat Fld.clkStatLocked 0).fset Addr.clkStat Fld.clkStatOnBkosc 1
  let s := { s with time := { s.time with counting := false } }.count Addr.clkLockLossCnt
  (s.setTimeValid false).doubt Doubt.clkLock

/-- ROOT_PLL_LOCK_LOSS (R329). -/
def execRootPllLockLoss (s : State) : Res :=
  State.done (if s.flag Addr.clkStat Fld.clkStatLocked then s.pllLost else s)

/-- REFCLK_LOSS (R413): no edge for 2 µs. -/
def execRefclkLoss (s : State) : Res :=
  State.done (if s.flag Addr.clkStat Fld.clkStatLocked then { s with pins := { s.pins with refclk := false } }.pllLost else s)

/-- POWER_GOOD (R353): every rail of the target mode is in its window; a warm wake counts REFCLK next (R13). -/
def execPowerGood (count : BitVec 16) (s : State) : Res :=
  if s.pwr.stage ≠ .rising ∧ s.pwr.stage ≠ .halfSlew then s.done
  else
    let s := { s with pwr := { s.pwr with stage := .good } }
    if !s.waking then s.done
    else
      let s := s.fset Addr.clkStat Fld.clkStatRefCount count.toNat
      State.done (if refOk (s.fget Addr.clkStat Fld.clkStatRefclk) count.toNat then s else s.wakeNoReference)

/-- The PMBus reaches an upstream supply (R369, R370). -/
def State.pmbOn (s : State) : Bool := s.img.upstream != 0 && !s.pwr.pmbGone

/-- A STATUS_WORD read: the value is logged, or the transaction fails (R368 to R370), as it does while the pads are held. -/
def State.readStatusWord (s : State) (sdaLow : Bool) (word : Option (BitVec 16)) : State :=
  if !s.pmbOn then s
  else
    let s := if sdaLow then (s.count Addr.pwrPmbRecoverCnt).emitPad .pmbusRecover else s
    match (if s.padsHeld then none else word) with
    | some w => (s.fset Addr.pwrPmbLog Fld.pwrPmbLogValid 1).fset Addr.pwrPmbLog Fld.pwrPmbLogStatusWord w.toNat
    | none =>
      let s := s.count Addr.pwrPmbFailCnt
      if s.img.upstream = 1 then { s with pwr := { s.pwr with pmbGone := true } } else s

/-- POWER_GOOD_TIMEOUT (R368, Table 15-10): a retry at half slew, then OFF with WAKE_FAIL_REG and FAULT_N low; `word` is what
the upstream supply answers before the retry. -/
def execPowerGoodTimeout (sdaLow : Bool) (word : Option (BitVec 16)) (s : State) : Res :=
  let fail := { s with pwr := { s.pwr with wakeFailed := true } }.count Addr.pwrWakeFailCnt
  if s.pwr.stage = .rising then
    let s := fail.readStatusWord sdaLow word
    let s := if s.pmbOn then s.emitPad (.pmbus 0x21 s.img.voutNom) else s
    State.done { s with pwr := { s.pwr with stage := .halfSlew } }
  else if s.pwr.stage = .halfSlew then
    let s := fail.fset Addr.pwrWakeReason Fld.pwrWakeReasonWakeFailReg 1
    let s := s.enterOff
    State.done { s with pins := { s.pins with faultN := false } }
  else s.done

/-- DOMAIN_RAIL_TIMEOUT (R368): the rail of cluster d, or of complex d − 24, fails in a SLEEP exit; the domain stays asleep. -/
def execDomainRailTimeout (d : Fin 28) (s : State) : Res :=
  let cl := d.val < 24
  let exits := if cl then bitOf s.pwr.waking.toNat d.val
    else (s.mode == Mode.idle && s.fget Addr.pwrMode Fld.pwrModePrev == Mode.sleep)
  if !exits then s.done
  else
    let s := { s with pwr := { s.pwr with waking := s.pwr.waking &&& ~~~ BitVec.ofNat 24 (2 ^ d.val) } }
    let s := (if cl then s else s.setFence d 0).count Addr.pwrWakeFailCnt
    State.done ({ s with pwr := { s.pwr with wakeFailed := true } }.doubt Doubt.pwrDomain)

/-! ### VIN (R350 to R352) -/

/-- AON_START (R350, R425): power arrives after none; everything but the flash and the fuses is at its power-up value. -/
def execAonStart (s : State) : Res :=
  let s := (s.stageOff.loadReset false).tearFlash
  let s := { s with regs := [], time := Meridian.reset, servo := Servo.reset, plb := Plumb.reset, noc := Noc.reset,
                    pwr := { Power.reset with stage := .off, restart := some 0 } }
  State.done (s.fset Addr.pwrMode Fld.pwrModeMode Mode.off)

/-- VIN_PFAIL (R350): the doubt VIN from PFAIL. -/
def execVinPfail (s : State) : Res :=
  let s := { s with pwr := { s.pwr with vinSince := none } }.fset Addr.pwrVin Fld.pwrVinPfail 1
  State.done (s.doubt Doubt.vin)

/-- Power is lost: the rails fall with what they held. -/
def State.powerLost (s : State) (reason : Nat) : State :=
  let s := s.tearFlash.hostDown.enterOff
  { s with pwr := { s.pwr with restart := some reason, vinSince := none, wakeTimer := none } }

/-- VIN_STOP (R352): the stage stops and AON records BROWNOUT. -/
def execVinStop (s : State) : Res := State.done ((s.powerLost 3).fset Addr.pwrVin Fld.pwrVinPfail 1)

/-- VIN_START (R352): the device starts through LOAD after power-up or a brown-out. -/
def execVinStart (s : State) : Res :=
  match s.pwr.restart with
  | none => s.done
  | some r =>
    if r = 4 then s.done
    else State.done ((s.wakeReason r Mode.off).startLoad.setReg Addr.pwrVin 0)

/-- VIN_OV_WARNING (R350). -/
def execVinOvWarning (s : State) : Res :=
  let s := { s with pwr := { s.pwr with vinSince := none } }.fset Addr.pwrVin Fld.pwrVinOvw 1
  State.done (s.doubt Doubt.vin)

/-- VIN_OV_DISCONNECT (R352): the input switch opens, and AON records OV_DISC. -/
def execVinOvDisconnect (s : State) : Res := State.done ((s.powerLost 4).count Addr.pwrOvDiscCnt)

/-- VIN_OV_RELEASE (R352): VIN has stayed below the release threshold for 10 ms after a disconnect. -/
def execVinOvRelease (s : State) : Res :=
  if s.pwr.restart = some 4 then State.done ((s.wakeReason 4 Mode.off).startLoad.setReg Addr.pwrVin 0) else s.done

/-- VIN_RECOVERY (R351, R416): VIN is back in its window without a stop; the fault-log record that PFAIL held back is
written. -/
def execVinRecovery (s : State) : Res :=
  if s.pwr.restart.isSome then s.done
  else
    let s := { s with pwr := { s.pwr with vinSince := some s.time.ticks } }
    let s := (s.fset Addr.pwrVin Fld.pwrVinPfail 0).fset Addr.pwrVin Fld.pwrVinOvw 0
    match s.plb.pfailLog with
    | none => s.done
    | some r => State.done ({ s with plb := { s.plb with pfailLog := none } }.faultLog r.toNat)

end Sys2Proof.Machine
end

