-- ==== Sys2Proof/Machine/Power.lean ====
section
/-! DEFINITION. Requests to the power manager (R356, R357), the vote on SLEEP and DEEP (R358 to R361), the clusters' own entries
(R354, R355), the pads (R365) and PMBus (R369, R370). -/

namespace Sys2Proof.Machine

/-! ### Voters (Table 15-6) -/

/-- A stage on one of the cluster's tiles, or on its coprocessors, is READY or RUNNING. -/
def State.tileBusy (s : State) (c : Nat) : Bool :=
  (List.range 8).any fun t => [8 * c + t, 192 + 8 * c + t].any fun q => (s.running q).isSome || !(s.readyOn q).isEmpty

/-- A channel of DMA engine c is BUSY or STOPPING, or has a START held (R273). -/
def State.dmaRefuses (s : State) (c : Nat) : Bool :=
  (List.range 16).any fun ch => s.dmaActive c ch || (s.dmaCh c ch).held.isSome

/-- An accelerator instance of sector x runs a descriptor, or a HARQ lock of the sector is held. -/
def State.complexBusy (s : State) (x : Nat) : Bool :=
  (s.cmp.running.any fun e => e.2.isSome && between 384 e.1 551 && sectorOf e.1 == x) || !(s.locks x).isEmpty

/-- A chain runs, or a fade is in progress. -/
def State.chainsBusy (s : State) : Bool :=
  (s.cmp.running.any fun e => e.2.isSome && between 552 e.1 679) || s.chains.any fun e => e.2.fade.isSome

/-- A bank of the fronthaul buffer is away from its home owner, or a channel of its engine is BUSY (Table 15-6). -/
def State.bufferBusy (s : State) : Bool :=
  ((List.range 256).any fun i =>
    Ident.code (s.owner (24 * 256 + i)) != SMap.get noFill s.img.home (24 * 256 + i))
    || (List.range 16).any fun ch => s.dmaState 24 ch == Dma.busy

/-- A host-memory transfer is outstanding. -/
def State.hostBusy (s : State) : Bool := !s.host.reads.isEmpty || (s.running 744).isSome || (s.running 745).isSome

def voterIf (b : Bool) (v : Nat) : List Nat := if b then [v] else []

/-- A booking of cluster c lies in a bin that starts less than 200 µs after `t`. -/
def State.bookedSoon (s : State) (c t : Nat) : Bool :=
  (s.nextBooking c).any fun b => decide (b * 15625 < 2 * (t + 200000))

/-- The voters of a stage that refuse. -/
def State.refusers (s : State) (v : Vote) (stage : Nat) : List Nat :=
  match stage with
  | 1 =>
    (match v.cluster with
      | some c => voterIf (s.bookedSoon c v.start) 38
      | none => voterIf (s.jobsHeld != 0) 38) ++ voterIf (s.plb.running.any fun r => r.1 != 0) 40
  | 2 =>
    (match v.cluster with
      | some c => [c]
      | none => List.range 24).filter fun c => s.tileBusy c || s.dmaRefuses c
  | 3 => ((List.range 4).filter s.complexBusy).map (24 + ·)
  | 4 => voterIf s.chainsBusy 28
  | 5 => ((List.range 8).filter s.groupBusy).map (30 + ·)
  | 6 => voterIf s.bufferBusy 29
  | 7 => voterIf (v.target == Mode.deep && s.hostBusy) 39
  | _ => []

def State.setVote (s : State) (v : Option Vote) : State := { s with pwr := { s.pwr with vote := v } }

/-- The wake that waited for the vote's end follows (R361). -/
def State.wakePending (s : State) : State :=
  match s.pwr.pendWake with
  | none => s
  | some r => { s with pwr := { s.pwr with pendWake := none } }.wakeBy r

/-- The voters of a stage are asked together: all agree, or one of those that refuse ends the vote (R358, R360). -/
def State.askStage (s : State) (v : Vote) (stage : Nat) : State :=
  let v := { v with stage := stage }
  let s := s.setVote (some v)
  match s.refusers v stage with
  | [] => if stage = 1 && v.cluster.isNone then { s with cmp := { s.cmp with held := true } } else s
  | r :: l =>
    let (k, s) := s.freeBelow (l.length + 1)
    (s.abortVote ((r :: l).getD k r)).wakePending

/-- The lanes of every group take the deep lane state (R298); ports fall. -/
def State.lanesDeep (s : State) : State :=
  s.each (List.range 64) fun s l =>
    if s.laneUsed l then ((s.setLockStages l 0).setLaneState l Lane.deep).portDown (s.portOf l) else s

/-- The register state of a cluster whose logic is unpowered. -/
def State.dropTiles (s : State) (c : Nat) : State := s.each (List.range 8) fun s t => s.setCore (8 * c + t) Core.init

def State.sleepCluster (s : State) (c : Nat) : State := ((s.setClusterIdle c false).setClusterAsleep c true).dropTiles c

/-- Some bank of block c keeps its content through SLEEP and DEEP. -/
def State.retains (s : State) (c : Nat) : Bool :=
  (List.range 256).any fun i => bankValid (256 * c + i) && s.flag (cfgReg (256 * c + i)) Fld.memBankCfgRetain

/-- Entry to DEEP clears the trackers, and the remap table of a block none of whose banks is retained, with its spare words
(R230). -/
def State.dropRemaps (s : State) : State :=
  let gone := (List.range 25).filter fun c => !s.retains c
  let s := s.each gone fun s c => s.each (List.range 16) fun s e => s.setReg (Addr.memRemap c e) 0
  { s with banks := { s.banks with
      tracker := []
      spare := s.banks.spare.filter fun e => !gone.any fun c => (bankOf (8 * e.1)).any fun key => key / 256 == c } }

/-- What entry to DEEP loses (R230, R363, R365, R366): rails, clocks and the host's link; the pads are latched. -/
def State.enterDeep (s : State) : State :=
  let s := (s.latchPads.hostDown).stopClocks.dropRemaps
  { s with pwr := { s.pwr with stage := .off } }

/-- The entry completes once every voter has agreed: the mode changes and the request ends PWR_DONE (R355, R356). -/
def State.completeEntry (s : State) (v : Vote) : State :=
  let s := s.each (List.range 24) fun s c => s.sleepCluster c
  let s := (s.setMode v.target).setVote none
  let timer := if v.wakeMs = 0 then none else some (s.time.ticks, v.wakeMs)
  let s := { s with pwr := { s.pwr with wakeTimer := timer } }
  let s := if v.target = Mode.deep then s.enterDeep else s
  (s.reqEnd Req.done 0).wakePending

/-- A cluster's own entry completes. -/
def State.completeCluster (s : State) (c : Nat) : State := ((s.setVote none).sleepCluster c).settleRun

/-- VOTE_STAGE_AGREED (R358): the voters asked have stopped, their fences drained; the next stage is asked, or the entry
completes. -/
def execVoteStageAgreed (s : State) : Res :=
  match s.pwr.vote with
  | none => s.done
  | some v =>
    if !((voteDomains v v.stage).all fun d => s.fenced d && s.drained d) then s.done
    else
      match v.cluster with
      | some c => if v.stage = 2 then State.done (s.completeCluster c) else State.done (s.askStage v 2)
      | none =>
        let s := if v.stage = 5 then s.lanesDeep else s
        if v.stage = 7 then State.done (s.completeEntry v) else State.done (s.askStage v (v.stage + 1))

/-! ### Requests (R356, R357) -/

/-- Table 15-4: who may ask for a mode, and from which. -/
def requestAllowed (who : Requester) (mode target : Nat) : Bool :=
  match target with
  | 0 => isHostOrZelfa who && [Mode.run, Mode.idle, Mode.sleep, Mode.safe, Mode.service].contains mode
  | 1 => isHostOrZelfa who && [Mode.run, Mode.idle, Mode.sleep].contains mode
  | 2 => isHostOrZelfa who && [Mode.run, Mode.idle].contains mode
  | 4 => who == .host && [Mode.sleep, Mode.service].contains mode
  | 5 => who == .host && [Mode.service, Mode.safe].contains mode
  | 7 => who == .host && [Mode.run, Mode.idle].contains mode
  | _ => false

def State.inBackoff (s : State) : Bool := s.pwr.backoff.any fun b => decide (s.time.ticks < b.1 + b.2 * 491520)

/-- A request aborts a cluster's entry vote, with no count and no back-off (R356). -/
def State.yieldCluster (s : State) : State :=
  match s.pwr.vote with
  | some v => if v.cluster.isSome then s.restartVoters v else s
  | none => s

/-- A request with GO = 1: its RW fields are set whoever writes; `f` carries out one that is taken (R356). -/
def State.request (s : State) (who : Requester) (target wakeMs : Nat) (f : State → State) : State :=
  let s := (s.fset Addr.pwrReq Fld.pwrReqTarget target).fset Addr.pwrReq Fld.pwrReqWakeMs wakeMs
  if !requestAllowed who s.mode target then s.reqOutcome Req.denied 0
  else if s.reqBusy then s.reqOutcome Req.busy 0
  else if (target == Mode.deep || target == Mode.sleep) && s.inBackoff then s.reqOutcome Req.backoff 0
  else f s.yieldCluster

/-- An entry to SLEEP or DEEP begins with the voters of stage 1 (R358). -/
def State.requestEntry (s : State) (target wakeMs : Nat) : State :=
  let s := (s.fset Addr.pwrReqStat Fld.pwrReqStatBusy 1).latch 8
  let v : Vote := { target := target, cluster := none, stage := 1, wakeMs := wakeMs, start := s.now }
  s.askStage v 1

/-- SERVICE and OFF need CMP_JOBS.CUR = 0 (R357). -/
def State.requestIdle (s : State) (f : State → State) : State :=
  if s.jobsHeld = 0 then f s else s.reqOutcome Req.refused 38

def State.requestOff (s : State) : State := s.requestIdle fun s => (s.reqOutcome Req.done 0).enterOff

def State.requestService (s : State) : State := s.requestIdle fun s => (s.setMode Mode.service).reqOutcome Req.done 0

/-- SLEEP or SERVICE is left (Table 15-4). -/
def State.requestRun (s : State) : State :=
  if s.mode = Mode.sleep then (s.wakeBy 5).reqOutcome Req.done 0
  else ((s.setMode Mode.run).settleRun).reqOutcome Req.done 0

/-- The image is loaded again; the HX block is kept (R412, R425). -/
def State.requestLoad (s : State) : State :=
  let s := ((s.setMode Mode.load).loadReset true).fset Addr.plbStat Fld.plbStatSafe 0
  s.reqOutcome Req.done 0

/-- The request that a write of PWR_REQ makes, or only its fields. -/
def State.writePwrReq (s : State) (who : Requester) (v : Nat) : State :=
  let target := bitsOf v 30 28
  let ms := bitsOf v 15 0
  if !bitOf v 31 then
    (s.fset Addr.pwrReq Fld.pwrReqTarget target).fset Addr.pwrReq Fld.pwrReqWakeMs ms
  else s.request who target ms fun s =>
    match target with
    | 0 => s.requestOff
    | 1 => s.requestEntry Mode.deep ms
    | 2 => s.requestEntry Mode.sleep ms
    | 4 => s.requestRun
    | 5 => s.requestLoad
    | _ => s.requestService

def execPwrReqOff (who : Requester) (s : State) : Res := State.done (s.request who 0 0 State.requestOff)

def execPwrReqDeep (who : Requester) (wakeMs : BitVec 16) (s : State) : Res :=
  State.done (s.request who 1 wakeMs.toNat fun s => s.requestEntry Mode.deep wakeMs.toNat)

def execPwrReqSleep (who : Requester) (wakeMs : BitVec 16) (s : State) : Res :=
  State.done (s.request who 2 wakeMs.toNat fun s => s.requestEntry Mode.sleep wakeMs.toNat)

def execPwrReqRun (who : Requester) (s : State) : Res := State.done (s.request who 4 0 State.requestRun)

def execPwrReqLoad (who : Requester) (s : State) : Res := State.done (s.request who 5 0 State.requestLoad)

def execPwrReqService (who : Requester) (s : State) : Res := State.done (s.request who 7 0 State.requestService)

/-- BACKOFF_EXPIRY (R360). -/
def execBackoffExpiry (s : State) : Res :=
  match s.pwr.backoff with
  | none => s.done
  | some (t, ms) => State.done { s.advanceToTick (t + ms * 491520) with pwr := { s.pwr with backoff := none } }

/-! ### Clusters (R354, R355) -/

/-- Cluster c holds a booking in a bin b whose exit from IDLE, 1 µs before bin b − 1, is due (R31). -/
def State.bookingNear (s : State) (c : Nat) : Bool :=
  (s.nextBooking c).any fun b => decide (ceilDiv ((b - 1) * 15625) 2 ≤ s.now + 1000)

/-- CLUSTER_IDLE_ENTRY (R355): no stage of the cluster READY or RUNNING for 10 µs, and no booking that R31 keeps it out of
IDLE for. -/
def execClusterIdleEntry (c : Fin 24) (s : State) : Res :=
  if !(modeKeepsGrace s.mode) || s.clusterIdle c || s.clusterAsleep c || s.tileBusy c
      || (s.passEdges 4916).bookingNear c then s.done
  else State.done (((s.passEdges 4916).setClusterIdle c true).settleRun)

/-- CLUSTER_SLEEP_ENTRY (R355, R359): the calendars of a cluster in IDLE have been empty for 2 ms; its vote begins. -/
def execClusterSleepEntry (c : Fin 24) (s : State) : Res :=
  if !(modeKeepsGrace s.mode) || !s.clusterIdle c || !bitOf s.img.clSleepEn c || s.pwr.vote.isSome || s.reqBusy
      || s.inBackoff || (s.nextBooking c).isSome then s.done
  else
    let s := s.passEdges 983040
    let v : Vote := { target := Mode.sleep, cluster := some c.val, stage := 1, wakeMs := 0, start := s.now }
    State.done (s.askStage v 1)

/-- CLUSTER_WAKE_COMPLETE (R231, R257, Table 09-8): the banks are accessible, the ingress opens and the cluster is in IDLE. -/
def execClusterWakeComplete (c : Fin 24) (s : State) : Res :=
  if !bitOf s.pwr.waking.toNat c then s.done
  else
    let keys := (List.range 192).map fun i => c.val * 256 + i
    let s := s.each keys fun s k => if s.flag (cfgReg k) Fld.memBankCfgRetain then s else s.initBank k
    let s := s.newLap c
    let s := ((s.setClusterAsleep c false).setClusterIdle c true).liftFence c
    let s := { s with pwr := { s.pwr with waking := s.pwr.waking &&& ~~~ BitVec.ofNat 24 (2 ^ c.val) } }
    State.done (if s.tileBusy c then s.exitIdle c else s)

/-! ### Pads and PMBus (R365, R369, R370) -/

/-- A write of PWR_PAD_CTRL. -/
def State.writePadCtrl (s : State) (who : Requester) (v : Nat) : State :=
  if !bitOf v 0 then s
  else if !isZelfa who || !s.flag Addr.pwrPadCtrl Fld.pwrPadCtrlHeld then s.count Addr.pwrWrDenyCnt
  else s.fset Addr.pwrPadCtrl Fld.pwrPadCtrlHeld 0

/-- PAD_HOLD_RELEASE (R365). -/
def execPadHoldRelease (who : Requester) (s : State) : Res := State.done (s.writePadCtrl who 1)

/-- PMB_ALERT (R369): a falling edge reads STATUS_WORD. -/
def execPmbAlert (sdaLow : Bool) (word : Option (BitVec 16)) (s : State) : Res :=
  State.done (if s.plumbPowered then s.readStatusWord sdaLow word else s)

/-- OPERATION data of a margin (Table 15-11). -/
def marginData (m : Nat) : Nat := if m = 2 then 0xA8 else if m = 1 then 0x98 else 0x80

/-- A write of PWR_PMB_CTRL: MARGIN, and with GO the command, acknowledged when READ_VOUT lies in the margin's window
(R370). -/
def State.writePmbCtrl (s : State) (v : Nat) (sdaLow : Bool) (vout : Option (BitVec 16)) : State :=
  let m := bitsOf v 30 29
  if !bitOf v 31 then s.fset Addr.pwrPmbCtrl Fld.pwrPmbCtrlMargin m
  else if s.mode ≠ Mode.service then s.count Addr.pwrWrDenyCnt
  else
    let s := s.fset Addr.pwrPmbCtrl Fld.pwrPmbCtrlMargin m
    if !s.pmbOn then s
    else
      let s := if sdaLow then (s.count Addr.pwrPmbRecoverCnt).emitPad .pmbusRecover else s
      let s := { s with pwr := { s.pwr with margin := m } }.emitPad (.pmbus 0x01 (marginData m))
      let ok := !s.padsHeld && vout.any fun x => between (s.img.voutWin.getD (2 * m) 0) x.toNat (s.img.voutWin.getD (2 * m + 1) 0)
      s.fset Addr.pwrPmbCtrl Fld.pwrPmbCtrlResult (if ok then 1 else 3)

/-- PMB_MARGIN_REQUEST (R370). -/
def execPmbMarginRequest (margin : Fin 4) (sdaLow : Bool) (vout : Option (BitVec 16)) (s : State) : Res :=
  State.done (s.writePmbCtrl (2 ^ 31 + margin.val * 2 ^ 29) sdaLow vout)

/-- PMB_TRANSACTION_TIMEOUT (R370): 50 ms without acknowledgement; a running margin request ends FAIL. -/
def execPmbTransactionTimeout (s : State) : Res :=
  if !s.pmbOn then s.done
  else
    let s := s.count Addr.pwrPmbFailCnt
    let s := if s.fget Addr.pwrPmbCtrl Fld.pwrPmbCtrlResult = 3 then s.fset Addr.pwrPmbCtrl Fld.pwrPmbCtrlResult 2 else s
    State.done (if s.img.upstream = 1 then { s with pwr := { s.pwr with pmbGone := true } } else s)

end Sys2Proof.Machine
end

