-- ==== Sys2Proof/Machine/Nvm.lean ====
section
/-! DEFINITION. Journal compaction (R388), the one-time fuses (R379, R380), a calibration record on request (R387) and flash
commands of the firmware (R375). -/

namespace Sys2Proof.Machine

/-! ### Journal compaction (R388) -/

/-- 64 KiB or less of the active area is erased. -/
def State.jnlLow (s : State) : Bool := (jnlSize - s.jnlUsed) * 64 ≤ 65536

/-- JOURNAL_COMPACTION (R388). -/
def execJournalCompaction (s : State) : Res :=
  State.done (if s.compacting || !s.jnlLow then s else s.startCompaction)

/-- The last record of each calibration item, in SEQ order. -/
def lastPerItem : List Nat → List Nat
  | [] => []
  | r :: l =>
    if l.any fun x => jnlPayload x % 2 ^ 32 == jnlPayload r % 2 ^ 32 then lastPerItem l else r :: lastPerItem l

/-- What compaction copies: the latest holdover record, the latest of each calibration item, the latest 1,024 of the fault
log, in SEQ order. -/
def State.compacted (s : State) : List Nat :=
  let log := s.jnlOf 2
  let l := ((s.jnlOf 1).getLast?).toList ++ lastPerItem (s.jnlOf 3) ++ log.drop (log.length - 1024)
  sortBy (fun a b => decide (jnlSeq a ≤ jnlSeq b)) l

/-- JOURNAL_COMPACTION_DONE (R388): the copies, then the new area's header, then the records that waited. -/
def execJournalCompactionDone (s : State) : Res :=
  if !s.compacting then s.done
  else
    let l := s.compacted
    let a := 1 - s.jnlActive
    let s := (s.each (List.range l.length) fun s k => s.jnlPut a (k + 1) (l.getD k 0))
    let s := { s with nvm := { s.nvm with seq := s.nvm.seq + 1, areaSeq := s.nvm.areaSeq + 1 } }
    let s := s.jnlPut a 0 (jnlRecord 0 s.nvm.seq (if s.timeValid then s.now else 0) (s.nvm.areaSeq % 2 ^ 32))
    let st := Addr.jnlStat
    let s := (s.fset st Fld.jnlStatArea a).fset st Fld.jnlStatUsed (l.length + 1)
    let s := (s.fset st Fld.jnlStatCompacting 0).count Addr.jnlCompactCnt
    let wait := s.nvm.wait
    let s := { s with nvm := { s.nvm with wait := [] } }
    State.done ((s.each wait fun s r => s.jnlAppend r.toNat).maintEnd 5 0 Maint.done 0)

/-! ### Requests in SERVICE -/

/-- A write accepted in SERVICE from the host or a Zelfa core only; another is counted in DEV_RWL_DENY_CNT. -/
def State.serviceWrite (s : State) (who : Requester) (ok : Bool) (f : State → State) : State :=
  if s.mode == Mode.service && isHostOrZelfa who && ok then f s else s.count Addr.devRwlDenyCnt

/-- A write of JNL_CAL_SAVE (R387): with GO the item's current USER value becomes a calibration record. -/
def State.writeCalSave (s : State) (v : Nat) : State :=
  if s.mode ≠ Mode.service then s.count Addr.devRwlDenyCnt
  else
    let item := bitsOf v 23 16
    let idx := bitsOf v 15 0
    let s := (s.fset Addr.jnlCalSave Fld.jnlCalSaveItem item).fset Addr.jnlCalSave Fld.jnlCalSaveIndex idx
    if !bitOf v 31 then s
    else match s.calItem item idx with
      | none => s
      | some x => s.journal 3 (recP 0 0 item + recP 2 0 idx + recP 6 0 ((s.reg x.user).toNat % 65536))

/-- JNL_CAL_SAVE (R387). -/
def execJnlCalSave (item : BitVec 8) (idx : BitVec 16) (s : State) : Res :=
  State.done (s.writeCalSave (2 ^ 31 + item.toNat * 65536 + idx.toNat))

/-- A write of DEV_ROLLBACK_ADV (R380). -/
def State.writeRollback (s : State) (who : Requester) (v : Nat) : State :=
  s.serviceWrite who true fun s =>
    if !bitOf v 31 then s
    else
      let n := max s.nvm.rollback (min s.img.secVer 64)
      { s with nvm := { s.nvm with rollback := n } }.fset Addr.devSecure Fld.devSecureRollback n

/-- DEV_ROLLBACK_ADV (R380). -/
def execDevRollbackAdv (who : Requester) (s : State) : Res := State.done (s.writeRollback who (2 ^ 31))

/-- The 1 bits of a byte of the hash are blown; byte 0 is the digest's first. -/
def blowKey (h : BitVec 384) (i v : Nat) : BitVec 384 :=
  if i < 48 then h ||| BitVec.ofNat 384 (v * 2 ^ (8 * (47 - i))) else h

/-- A write of DEV_KEY_PROG (R379). -/
def State.writeKeyProg (s : State) (who : Requester) (v : Nat) : State :=
  s.serviceWrite who (!s.nvm.locked) fun s =>
    let i := bitsOf v 21 16
    let s := (s.fset Addr.devKeyProg Fld.devKeyProgIndex i).fset Addr.devKeyProg Fld.devKeyProgValue (bitsOf v 7 0)
    let s := if bitOf v 31 then { s with nvm := { s.nvm with keyHash := blowKey s.nvm.keyHash i (bitsOf v 7 0) } } else s
    if bitOf v 30 then { s with nvm := { s.nvm with locked := true } }.fset Addr.devSecure Fld.devSecureSecure 1 else s

/-- DEV_KEY_PROG (R379). -/
def execDevKeyProg (who : Requester) (i : BitVec 6) (value : Byte) (s : State) : Res :=
  State.done (s.writeKeyProg who (2 ^ 31 + i.toNat * 65536 + value.toNat))

/-- DEV_KEY_LOCK (R379). -/
def execDevKeyLock (who : Requester) (s : State) : Res := State.done (s.writeKeyProg who (2 ^ 30))

/-! ### Flash commands (R375) -/

/-- Bytes [a, a + n) of a chip select touch the slot that the running image was booted from. -/
def State.inBootedSlot (s : State) (cs a n : Nat) : Bool :=
  let b := 0x6000000 * s.fget Addr.nvmBootStat Fld.nvmBootStatSlot
  s.img.present && s.fget Addr.nvmBootStat Fld.nvmBootStatCs == cs && decide (a < b + 0x6000000 ∧ b < a + n)

/-- A command that the controller sends is carried out, and completes later. -/
def State.sendFlash (s : State) (cs a : Nat) (erase : Option Nat) (data : List Byte) : State :=
  match erase with
  | some n => (s.flashErase cs a n).flashOp cs a n
  | none => (s.flashProgram cs a data).flashOp cs a data.length

/-- FLASH_WRITE_COMMAND (R375): a program or erase command of the firmware, in SERVICE and never to the booted slot. -/
def execFlashWriteCommand (cs : Fin 2) (addr : BitVec 28) (erase : Option (BitVec 28)) (data : List Byte) (s : State) :
    Res :=
  let n := (erase.map BitVec.toNat).getD data.length
  if s.inBootedSlot cs addr.toNat n then State.done (s.count Addr.nvmWpDenyCnt)
  else if s.mode ≠ Mode.service then s.done
  else State.done (s.sendFlash cs addr.toNat (erase.map BitVec.toNat) data)

/-- FLASH_OPERATION_COMPLETE (Table 16-33): the oldest operation completes; source 10 and vector 76. -/
def execFlashOperationComplete (s : State) : Res :=
  match s.nvm.ops with
  | [] => s.done
  | _ :: l => State.done (({ s with nvm := { s.nvm with ops := l } }.latch 10).hostEvent Evt.journal)

end Sys2Proof.Machine
end

