-- ==== Sys2Proof/Machine/Plumb.lean ====
section
/-! DEFINITION. Plumb (R404 to R412) and the maintenance activities it arbitrates (R415). -/

namespace Sys2Proof.Machine

/-! ### Watchdogs and lockstep (R404, R405) -/

/-- Only Zelfa core k writes PLB_WDT[k]; the debug access port writes where a Zelfa core may (R428). -/
def wdtWriter (k : Nat) : Requester → Bool
  | .zelfa z => z.val == k
  | .dap => true
  | _ => false

def State.kick (s : State) (k : Nat) : State :=
  { s with plb := { s.plb with kicks := SMap.set (fun _ => 0) s.plb.kicks k s.time.ticks } }

/-- A write of PLB_WDT[k]: EN is only ever set, KICK = 0x5A restarts the timer. -/
def State.writeWdt (s : State) (k : Nat) (who : Requester) (v : Nat) : State :=
  if !wdtWriter k who then s.count Addr.plbWrDenyCnt
  else
    let on := s.flag (Addr.plbWdt k) Fld.plbWdtEn
    let s := if bitOf v 31 && !on then (s.fset (Addr.plbWdt k) Fld.plbWdtEn 1).kick k else s
    if bitsOf v 7 0 = 0x5A then s.kick k else s

/-- WDT_ENABLE (R405). -/
def execWdtEnable (k : Fin 8) (who : Requester) (s : State) : Res := State.done (s.writeWdt k who (2 ^ 31))

/-- WDT_KICK (R405): a write of KICK that leaves EN as it is. -/
def execWdtKick (k : Fin 8) (who : Requester) (value : Byte) (s : State) : Res := State.done (s.writeWdt k who value.toNat)

/-- WATCHDOG_EXPIRY (R405): Plumb's own 10 ms watchdog, or core k's 100 ms after its last restart. -/
def execWatchdogExpiry (k : Option (Fin 8)) (s : State) : Res :=
  match k with
  | none => State.done (s.doubt Doubt.wdt)
  | some k =>
    if !s.flag (Addr.plbWdt k) Fld.plbWdtEn then s.done
    else
      let t := SMap.get (fun _ => 0) s.plb.kicks k
      State.done ((s.advanceToTick (t + 49152000)).doubt Doubt.wdt)

/-- LOCKSTEP_MISMATCH (R404). -/
def execLockstepMismatch (s : State) : Res := State.done (s.doubt Doubt.lockstep)

/-! ### Temperature (R406) -/

def State.excluded (s : State) (k : Nat) : Bool := bitOf (s.fget Addr.plbTherm Fld.plbThermExcluded) k

/-- The junction temperature in 1/16 °C: the largest effective reading of a sensor that is not excluded. -/
def State.junction (s : State) (raw : List (BitVec 16)) : Int :=
  let l := ((List.range 20).filter fun k => !s.excluded k).map fun k =>
    (raw.getD k 0).toInt + s.reg16 (Addr.devTsensOffsEff k) true
  match l with
  | [] => 0
  | x :: l => l.foldl max x

/-- A thermal warning: vector 67 and a fault-log record (R406, R416). -/
def State.thermalWarning (s : State) : State :=
  (s.hostEvent Evt.therm).faultLog (s.faultPayload FaultEvt.thermal 0 0 0 s.mode)

/-- THERMAL_SENSOR_READ (R406): the 20 readings in 1/16 °C. -/
def execThermalSensorRead (raw : List (BitVec 16)) (s : State) : Res :=
  if !s.plumbPowered then s.done
  else
    let tj := s.junction raw
    let above := decide (105 * 16 < tj)
    let warm := decide (100 * 16 ≤ tj)
    let had := s.flag Addr.plbTherm Fld.plbThermWarn
    let hot := if above then s.plb.hot + 1 else 0
    let s := { s with plb := { s.plb with tj := tj, hot := hot } }
    let s := s.fset Addr.plbStat Fld.plbStatTjMax (unsigned 8 (tj / 16))
    let s := s.fset Addr.plbTherm Fld.plbThermWarn (if warm then 1 else 0)
    let s := if warm && !had then (s.count Addr.plbThermWarnCnt).thermalWarning else s
    State.done (if hot = 2 then s.doubt Doubt.thermal else s)

/-- THERM_ALERT (R406): THERM_ALERT_N takes a level; a falling edge is a warning. -/
def execThermAlert (low : Bool) (s : State) : Res :=
  let fell := low && s.pins.thermAlertN
  let s := { s with pins := { s.pins with thermAlertN := !low } }
  let s := s.fset Addr.plbTherm Fld.plbThermAlert (if low then 1 else 0)
  State.done (if fell && s.plumbPowered then (s.count Addr.plbThermAlertCnt).thermalWarning else s)

/-! ### SAFE_N and the clear (R407, R408, R411) -/

def State.safeNMasked (s : State) : Bool := s.flag Addr.plbMask Fld.plbMaskSafeNMask

/-- SAFE_N_ASSERT (R407): SAFE_N has a level for 1 µs; low in LOAD is acted on when LOAD ends (R408, R412). -/
def execSafeNAssert (low : Bool) (s : State) : Res :=
  let s := { s with pins := { s.pins with safeN := !low } }
  State.done (if low && !s.safeNMasked && s.mode != Mode.load then s.doubt Doubt.safeN else s)

/-- A write of PLB_MASK (R408). -/
def State.writeMask (s : State) (who : Requester) (v : Nat) : State :=
  if !isZelfa who || s.img.safeNLock || s.mode != Mode.service then s.count Addr.plbWrDenyCnt
  else
    let was := s.safeNMasked
    let s := s.fset Addr.plbMask Fld.plbMaskSafeNMask (bitsOf v 0 0)
    if was && !bitOf v 0 && !s.pins.safeN then s.doubt Doubt.safeN else s

/-- SAFE_N_MASK_WRITE (R408). -/
def execSafeNMaskWrite (who : Requester) (mask : Bool) (s : State) : Res :=
  State.done (s.writeMask who (if mask then 1 else 0))

def State.vinBad (s : State) : Bool := s.flag Addr.pwrVin Fld.pwrVinPfail || s.flag Addr.pwrVin Fld.pwrVinOvw

/-- A condition of Table 17-1 is present now (PLB_COND). -/
def State.condition (s : State) (r : Nat) : Bool :=
  match r with
  | 0x01 => s.vinBad
  | 0x02 => decide (100 * 16 ≤ s.plb.tj)
  | 0x03 => !s.locked
  | 0x04 => !s.locked
  | 0x05 => !s.timeValid
  | 0x0F => !s.linkUp
  | 0x10 => !s.pins.safeN && !s.safeNMasked
  | _ => false

/-- The reason is gone (Table 17-1, last column). -/
def State.reasonGone (s : State) (r : Nat) : Bool :=
  if 0x06 ≤ r ∧ r ≤ 0x0E then false
  else !s.condition r && (r != 0x01 || s.pwr.vinSince.any fun t => decide (t + 4915200 ≤ s.time.ticks))

/-- SAFE is left for IDLE (R411). -/
def State.leaveSafe (s : State) : State :=
  let s := (s.setReg Addr.plbCause 0).fset Addr.plbClear Fld.plbClearResult 1
  let s := s.each (List.range 24) fun s c => if s.clusterAsleep c then s else s.setClusterIdle c true
  let s := (s.setMode Mode.idle).fset Addr.plbStat Fld.plbStatSafe 0
  let s := { s with pins := { s.pins with faultN := true, gpioSafe := false } }
  (s.hostEvent Evt.safe).faultLog (s.faultPayload FaultEvt.safeExit 0 0 0 Mode.safe)

/-- A write of PLB_CLEAR with GO (R411). -/
def State.writeClear (s : State) (who : Requester) (v : Nat) : State :=
  if !isHostOrZelfa who then s.count Addr.plbWrDenyCnt
  else if !bitOf v 31 || s.mode != Mode.safe then s
  else
    let cause := (s.reg Addr.plbCause).toNat
    if (List.range 17).all (fun r => !bitOf cause r || s.reasonGone r) && s.plb.raised.isEmpty then s.leaveSafe
    else (s.fset Addr.plbClear Fld.plbClearResult 2).count Addr.plbClrDenyCnt

/-- PLB_CLEAR (R411); `same` is a doubt that arrives in the same cycle. -/
def execPlbClear (who : Requester) (same : Option (Fin 16)) (s : State) : Res :=
  let s := match same with
    | some r => s.doubt (r.val + 1)
    | none => s
  State.done (s.writeClear who (2 ^ 31))

/-! ### Maintenance activities (R415, Table 17-6) -/

/-- The target of a start through PLB_MAINT_START. -/
def State.maintTargetOk (s : State) (id target : Nat) : Bool :=
  match id with
  | 1 => bankValid target && (s.owner target).kind == 6
  | 3 => decide (target < 64) && s.laneUsed target
  | 4 => target == 0
  | 7 => target == 0
  | _ => false

/-- The target that an activity is known by. -/
def maintTarget (id target : Nat) : Nat := if id = 1 ∨ id = 3 then target else 0

/-- A write of PLB_MAINT_START. -/
def State.writeMaintStart (s : State) (who : Requester) (v : Nat) : State :=
  if !isHostOrZelfa who then s.count Addr.plbWrDenyCnt
  else
    let id := bitsOf v 26 24
    let target := bitsOf v 12 0
    let s := (s.fset Addr.plbMaintStart Fld.plbMaintStartId id).fset Addr.plbMaintStart Fld.plbMaintStartTarget target
    if !bitOf v 31 then s
    else if !([1, 3, 4, 7].contains id) then s.maintDeny id Start.target 0
    else (s.maintStart id (maintTarget id target) (s.maintTargetOk id target)).2

def maintWord (id target : Nat) : Nat := 2 ^ 31 + id * 2 ^ 24 + target

def execBankBist (who : Requester) (b : Fin 25) (i : BitVec 8) (s : State) : Res :=
  State.done (s.writeMaintStart who (maintWord 1 (b.val * 256 + i.toNat)))

def execTsLoopbackCal (who : Requester) (l : Fin 64) (s : State) : Res :=
  State.done (s.writeMaintStart who (maintWord 3 l.val))

def execCalendarAudit (who : Requester) (s : State) : Res := State.done (s.writeMaintStart who (maintWord 4 0))

def execThermalSensorCheck (who : Requester) (s : State) : Res := State.done (s.writeMaintStart who (maintWord 7 0))

/-- A write of MEM_SCRUB_CFG, RWL: EN from 0 to 1 starts activity 0 on the block, from 1 to 0 ends it (R226, R415, R449). -/
def State.writeScrubCfg (s : State) (c v : Nat) : State :=
  let a := Addr.memScrubCfg c
  let new := Fld.put Fld.memScrubCfgMaxLap (Fld.put Fld.memScrubCfgEn (s.reg a) (bitsOf v 0 0)) (bitsOf v 31 16)
  let on := s.scrubEnabled c
  if !s.rwlOpen then
    let s := s.countIf (new != s.reg a) Addr.devRwlDenyCnt
    if bitOf v 0 && !on then s.maintDeny 0 Start.mode 0 else s
  else
    let s := s.setReg a new
    if bitOf v 0 && !on then (s.maintStart 0 c true).2
    else if !bitOf v 0 && on then s.maintEnd 0 c Maint.done 0
    else s

/-- SCRUB_ENABLE (R415): EN is written 1 and MAX_LAP a value. -/
def execScrubEnable (c : Fin 25) (maxLap : BitVec 16) (s : State) : Res :=
  State.done (s.writeScrubCfg c (maxLap.toNat * 65536 + 1))

/-- Recomputed fills of a calendar against the stored ones (Table 17-6): every bin of every instance. -/
def State.recordUnits (s : State) : List (Nat × Nat) :=
  s.cmp.jobs.flatMap fun e => match e.2 with
    | some j => (j.recBin.map fun b => (744, b)).toList
    | none => []

def State.ledgerFill (s : State) : SMap Nat :=
  let frags := s.cmp.jobs.flatMap fun e => match e.2 with
    | some j => j.stages.flatMap fun x => x.frags.map fun f => (x.q, f.1, f.2)
    | none => []
  let all := frags ++ s.recordUnits.map fun r => (r.1, r.2, 1)
  all.foldl (fun cal f => Sys2Proof.Machine.calSet cal f.1 f.2.1 (calFill cal f.1 f.2.1 + f.2.2)) []

/-- The audit finds the calendars as the fragments have them, and no word with a parity error (Tables 17-1 and 17-6). -/
def State.auditOk (s : State) : Bool := s.ledgerFill == s.cmp.cal && s.cmp.calBad.isEmpty

/-- Sensors more than 5 °C from the median of the 20, in order; readings in 1/16 °C. -/
def State.strays (s : State) (raw : List (BitVec 16)) : List Nat :=
  let t := fun k => (raw.getD k 0).toInt + s.reg16 (Addr.devTsensOffsEff k) true
  let l := sortBy (fun a b => decide (a ≤ b)) ((List.range 20).map t)
  let m2 := l.getD 9 0 + l.getD 10 0
  (List.range 20).filter fun k => decide (160 < (2 * t k - m2).natAbs)

/-- The thermal sensor check ends. -/
def State.endSensorCheck (s : State) (raw : List (BitVec 16)) : State :=
  match (s.strays raw).filter fun k => !s.excluded k with
  | [] => s.maintEnd 7 0 Maint.done 0
  | k :: l =>
    let s := s.each (k :: l) fun s i => (s.fset Addr.plbTherm ⟨i, i⟩ 1).count Addr.plbSensorExclCnt
    s.maintEnd 7 0 Maint.failed k

/-- The loopback calibration ends with a measured RX + TX delay in 2^-8 ns. -/
def State.endLoopback (s : State) (l : Nat) (measured : Int) : State :=
  let d := measured - s.reg16 (Addr.ptpRxdlyEff l) false - s.reg16 (Addr.ptpTxdlyEff l) false
  s.maintEnd 3 l (if 128 < d.natAbs then Maint.failed else Maint.done) (unsigned 16 d)

/-- MAINT_ACTIVITY_END (R415): a running activity of PLB_MAINT_START ends: BIST with its verdict, the loopback calibration
with the delay it measured, the audit and the sensor check with what they find. -/
def execMaintActivityEnd (id : Fin 8) (target : BitVec 13) (ok : Bool) (values : List (BitVec 16)) (s : State) : Res :=
  let t := maintTarget id target.toNat
  if !s.plb.running.contains (id.val, t) then s.done
  else if id = 1 then State.done (s.maintEnd 1 t (if ok then Maint.done else Maint.failed) (if ok then 0 else t))
  else if id = 3 then State.done (s.endLoopback t ((values.getD 0 0).toNat : Int))
  else if id = 4 then
    let good := s.auditOk
    let s := (s.maintEnd 4 0 Maint.done 0).compactIfDue
    State.done (if good then s else s.doubt Doubt.ledger)
  else if id = 7 then State.done (s.endSensorCheck values)
  else s.done

/-! ### GPIO (R413) -/

/-- The ball of the GPIO is driven. -/
def State.gpioDrives (s : State) (g : Nat) : Bool := (s.gpioBall g).isSome

/-- GPIO_FAULT_DETECT (R413): the pin reads back another level than it drives for 2 µs. -/
def execGpioFaultDetect (g : Fin 32) (s : State) : Res :=
  if !s.gpioDrives g || !s.plumbPowered then s.done
  else State.done ((s.fset Addr.plbGpioStat ⟨g, g⟩ 1).count Addr.plbGpioFaultCnt)

end Sys2Proof.Machine
end

