-- ==== Sys2Proof/Machine/RegAccess.lean ====
section
/-! DEFINITION. Register accesses (R3 to R6, R333, R418 to R426, R449): which register an access reaches, what each register
reads as, what a write of it does, and the order of one cycle's writes. -/

namespace Sys2Proof.Machine

/-! ### Which register an access reaches (R421, R422) -/

/-- The instance indices of the register at `a`. -/
def RegSpec.index (r : RegSpec) (a : Nat) : Nat × Nat :=
  let o := a - r.base
  if r.s1 = 0 then (0, 0) else if r.s2 = 0 then (o / r.s1, 0) else (o / r.s1, o % r.s1 / r.s2)

/-- The bits of the register's fields whose access code `p` picks. -/
def RegSpec.mask (r : RegSpec) (p : Access → Bool) : Nat :=
  (r.fields.filter fun f => p f.acc).foldl (fun m f => m ||| ((2 ^ (f.hi + 1 - f.lo) - 1) <<< f.lo)) 0

/-- What an access of the register space reaches: a register at an address, from byte `lo` of it; none; or an access that
R422 forbids. -/
inductive RegHit where
  | reg (r : RegSpec) (a lo : Nat)
  | none
  | bad

/-- A register holds some byte of the aligned four at `a`. -/
def regCovers (a : Nat) : Bool :=
  (regAt a).isSome || (regAt (a - a % 8)).any (fun r => decide (64 ≤ r.width))
    || (regAt (a - a % 32)).any (fun r => r.width == 256)

/-- The access of n bytes at `a`. -/
def regHit (a n : Nat) : RegHit :=
  let first := a - a % 4
  let touches := (List.range (n / 4 + 2)).any fun k => decide (first + 4 * k < a + n) && regCovers (first + 4 * k)
  if a % n ≠ 0 ∨ (n ≠ 4 ∧ n ≠ 8) then if touches then .bad else .none
  else match regAt a with
    | some r => if r.width = 256 then .bad else if 8 * n ≤ r.width then .reg r a 0 else .bad
    | .none =>
      match (if n = 4 ∧ a % 8 = 4 then regAt (a - 4) else .none) with
      | some r => if r.width = 64 then .reg r (a - 4) 4 else if touches then .bad else .none
      | .none => if touches then .bad else .none

/-- The address lies in the register space (Table 18-1). -/
def inRegSpace (a : Nat) : Bool := decide (0x40000000 ≤ a) && decide (a < 0x44000000)

/-! ### What registers read as -/

/-- SDC_STAT (R192, R197, R199). -/
def Chain.stat (c : Chain) : Nat :=
  let b := fun (x : Bool) k => if x then 2 ^ k else 0
  b c.bankB 31 + b c.fade.isSome 30 + b c.queued.isSome 29 + b (c.queued.any fun x => x.1) 28
    + c.fadeLeft % 8192 * 2 ^ 15 + b (decide (16 ≤ c.valid.length)) 14 + b (decide (1024 ≤ c.valid.length)) 13
    + c.fillLeft % 8192

/-- Left of a time of `ms` milliseconds that began at `t`, in whole milliseconds begun. -/
def State.msLeft (s : State) (t ms : Nat) : Nat := ceilDiv (ms * 491520 - (s.time.ticks - t)) 491520

/-- CMP_FLOW_STAT (R67, R70). -/
def Flow.stat (x : Flow) : Nat :=
  x.head % 65536 * 2 ^ 48 + x.tail % 65536 * 2 ^ 32 + x.open'.length % 512 * 2 ^ 14
    + (if x.dirValid then 2 ^ 9 else 0) + (if x.dl then 2 ^ 8 else 0)

/-- The entry that NOC_WHEEL_DATA shows: the active or the shadow bank (R241, R253). -/
def State.wheelShown (s : State) : Nat :=
  let m := if s.flag Addr.nocWheelAddr Fld.nocWheelAddrBank then s.noc.wheelAct else s.noc.wheelSh
  (SMap.get (fun _ => 0) m s.wheelAddr).toNat

/-- A count shown in a field beside a stored peak. -/
def State.curView (s : State) (a : Nat) (f : Fld) (n : Nat) : Nat := (Fld.put f (s.reg a) n).toNat

/-- MEM_OWNER: CLEARING is 1 during step 4 of a handover that clears (R211, R212); which of the handover's cycles a read
falls in is open. -/
def State.ownerView (s : State) (key : Nat) : Nat :=
  let clears := s.pendingHandover key && s.handoverClears key && Config.clearing key s.time.ticks
  if clears then s.curView (ownerReg key) Fld.memOwnerClearing 1 else (s.reg (ownerReg key)).toNat

/-- Registers whose value other state of the device decides, by the base address of their kind: the value for a reader and
instance (i, j). -/
def regViews : List (Nat × (State → Requester → Nat → Nat → Nat)) :=
  [(Addr.cmpJobs, fun s _ _ _ => s.curView Addr.cmpJobs Fld.cmpJobsCur s.jobsHeld),
   (Addr.cmpStages, fun s _ _ _ => s.curView Addr.cmpStages Fld.cmpStagesCur s.stagesHeld),
   (Addr.cmpQdepth 0, fun s _ q _ => s.curView (Addr.cmpQdepth q) Fld.cmpQdepthCur (s.readyOn q).length),
   (Addr.cmpBusy 0, fun s _ q _ => SMap.get noFill s.cmp.busyLast q),
   (Addr.cmpFlowStat 0, fun s _ f _ => (s.flow f).stat),
   (Addr.tbNs, fun s _ _ _ => s.time.ns),
   (Addr.tbFracL, fun s who _ _ => if who = .dap then s.time.dapFrac else (s.reg Addr.tbFracL).toNat),
   (Addr.tbSecL, fun s who _ _ => if who = .dap then s.time.dapSec else (s.reg Addr.tbSecL).toNat),
   (Addr.tbHold, fun s _ _ _ => s.holdElapsed),
   (Addr.tbCtxPos 0, fun s _ n _ => if (s.ctx n).enabled then sfnAt (s.ctx n) s.now * 65536 + slotInFrame (s.ctx n) s.now else 0),
   (Addr.tbCtxNext 0, fun s _ n _ => if (s.ctx n).enabled then nextSlot (s.ctx n) s.now else 0),
   (Addr.plbCond, fun s _ _ _ => (List.range 17).foldl (fun v r => if s.condition r then v + 2 ^ r else v) 0),
   (Addr.hxGraceStat, fun s _ _ _ => s.curView Addr.hxGraceStat Fld.hxGraceStatRemainMs
      (s.host.graceStart.elim 0 fun t => s.msLeft t s.img.graceMs)),
   (Addr.pwrReqStat, fun s _ _ _ => s.curView Addr.pwrReqStat Fld.pwrReqStatBackoff
      (s.pwr.backoff.elim 0 fun b => s.msLeft b.1 b.2)),
   (Addr.pwrVin, fun s _ _ _ => s.curView Addr.pwrVin Fld.pwrVinMv s.vinMv),
   (Addr.nocWheelData, fun s _ _ _ => s.wheelShown),
   (Addr.cceLocks 0, fun s _ x _ => s.curView (Addr.cceLocks x) Fld.cceLocksCur (SMap.get (fun _ => []) s.eng.locks x).length),
   (Addr.sdcStat 0, fun s _ n _ => (s.chain n).stat),
   (Addr.sdcPwr 0, fun s _ n _ => (s.chain n).power 16 * 65536 + (s.chain n).power 1024),
   (Addr.fhLqStat 0, fun s _ p _ => s.curView (Addr.fhLqStat p) Fld.fhLqStatCur (s.lq p).length),
   (Addr.tileCpStat 0, fun s _ t _ => if (s.core t).cpBusy.isSome && s.fget (Addr.tileCpStat t) Fld.tileCpStatState == 0 then
      s.curView (Addr.tileCpStat t) Fld.tileCpStatState 2 else (s.reg (Addr.tileCpStat t)).toNat),
   (Addr.memOwner 0 0, fun s _ c i => s.ownerView (c * 256 + i)),
   (Addr.memOwner 24 0, fun s _ i _ => s.ownerView (24 * 256 + i))]

/-- What a read of the whole register shows: WO fields and reserved bits read 0 (R4, Table 00-3). -/
def State.regValue (s : State) (who : Requester) (r : RegSpec) (a : Nat) : DWord :=
  let v := match regViews.find? fun e => e.1 == r.base with
    | some e => e.2 s who (r.index a).1 (r.index a).2
    | none => (s.reg a).toNat
  BitVec.ofNat 64 (v &&& r.mask fun x => x != .wo)

/-- Peak fields that take the current value again after the read that clears them (R73). -/
def regPeaks : List (Nat × Fld × (State → Nat → Nat)) :=
  [(Addr.cmpJobs, Fld.cmpJobsPeak, fun s _ => s.jobsHeld),
   (Addr.cmpStages, Fld.cmpStagesPeak, fun s _ => s.stagesHeld),
   (Addr.cmpQdepth 0, Fld.cmpQdepthPeak, fun s q => (s.readyOn q).length),
   (Addr.cceLocks 0, Fld.cceLocksPeak, fun s x => (SMap.get (fun _ => []) s.eng.locks x).length),
   (Addr.fhLqStat 0, Fld.fhLqStatPeak, fun s p => (s.lq p).length)]

/-- What else a read of a register does. -/
def regReads : List (Nat × (State → Requester → State)) :=
  [(Addr.tbNs, fun s who => s.latchTime (who == .dap)),
   (Addr.nocWheelData, fun s _ => s.nextSlotAddr),
   (Addr.tbServoErr, fun s _ => s.unlatch 5),
   (Addr.plbStat, fun s _ => s.unlatch 7),
   (Addr.pwrReqStat, fun s _ => s.unlatch 8),
   (Addr.jnlStat, fun s _ => s.unlatch 10)]

/-- The effects of a read: RC fields within the bytes read are cleared for everyone but the debug access port (R6, R423). -/
def State.afterRead (s : State) (who : Requester) (r : RegSpec) (a cover : Nat) : State :=
  let rc := r.mask (fun x => x == .rc) &&& cover
  let s := if who = .dap ∨ rc = 0 then s else
      let s := s.setReg a (BitVec.ofNat 64 ((s.reg a).toNat - ((s.reg a).toNat &&& rc)))
      match regPeaks.find? fun e => e.1 == r.base with
      | some (_, f, cur) => s.fset a f (cur s (r.index a).1)
      | none => s
  match regReads.find? fun e => e.1 == r.base with
  | some e => e.2 s who
  | none => s

/-- The bits of bytes lo to lo + n − 1. -/
def byteCover (lo n : Nat) : Nat := (2 ^ (8 * n) - 1) <<< (8 * lo)

/-- A read of n bytes of the register at `a` from byte `lo`. -/
def State.readReg (s : State) (who : Requester) (r : RegSpec) (a lo n : Nat) : DWord × State :=
  (BitVec.ofNat 64 ((s.regValue who r a).toNat / 2 ^ (8 * lo) % 2 ^ (8 * n)), s.afterRead who r a (byteCover lo n))

/-! ### What a write does -/

/-- A write without a rule of its own: each field by its access code, RWL fields in LOAD and SERVICE only (Table 00-3,
R449). -/
def State.plainWrite (s : State) (r : RegSpec) (a v : Nat) : State :=
  let old := (s.reg a).toNat
  let rwl := r.mask fun x => x == .rwl
  let s := s.countIf (!s.rwlOpen && (v &&& rwl) != (old &&& rwl)) Addr.devRwlDenyCnt
  let set := (r.mask fun x => x == .rw) ||| (if s.rwlOpen then rwl else 0)
  let one := v &&& r.mask fun x => x == .w1c
  let up := v &&& r.mask fun x => x == .w1s
  let new := (old - (old &&& (set ||| one))) ||| (v &&& set) ||| up
  s.setReg a (BitVec.ofNat 64 new)

/-- A log register: clearing VALID also clears OVF; both can be cleared by a 1. -/
def State.writeLog (s : State) (a v : Nat) : State :=
  let s := if bitOf v 62 then s.fset a ⟨62, 62⟩ 0 else s
  if bitOf v 63 then (s.fset a ⟨63, 63⟩ 0).fset a ⟨62, 62⟩ 0 else s

/-- A write of a USER register, by the item's ID of Table 16-9. -/
def State.writeUser (s : State) (id i v : Nat) : State :=
  match s.calItem id i with
  | some x => s.writeCalUser x v
  | none => s

/-- A write of PWR_PMB_CTRL by a path that brings no reading of the upstream supply: what READ_VOUT answers is open. -/
def State.writePmbFree (s : State) (v : Nat) : State :=
  let (x, s) := s.free 16
  s.writePmbCtrl v false (some x)

/-- A write of MEM_OWNER by one writer (R210). -/
def State.writeOwner1 (s : State) (key : Nat) (who : Requester) (v : Nat) : State :=
  s.ownerWrites key [(ownerWriter (some who), ⟨bitsOf v 15 12, bitsOf v 11 0⟩)]

/-- Registers with a write rule of their own, by the base address of their kind: what a write of instance (i, j) does. -/
def regWrites : List (Nat × (State → Requester → Nat → Nat → Nat → State)) :=
  [(Addr.devRollbackAdv, fun s who _ _ v => s.writeRollback who v),
   (Addr.devKeyProg, fun s who _ _ v => s.writeKeyProg who v),
   (Addr.devTsensOffsUser 0, fun s _ i _ v => s.writeUser 5 i v),
   (Addr.pwrReq, fun s who _ _ v => s.writePwrReq who v),
   (Addr.pwrPadCtrl, fun s who _ _ v => s.writePadCtrl who v),
   (Addr.pwrPmbCtrl, fun s _ _ _ v => s.writePmbFree v),
   (Addr.pwrVsenseGainUser, fun s _ _ _ v => s.writeUser 6 0 v),
   (Addr.pwrIsenseGainUser 0, fun s _ i _ v => s.writeUser 7 i v),
   (Addr.tbSet, fun s _ _ _ v => s.writeTbSet v),
   (Addr.tbPtpOffs, fun s who _ _ v => s.writePtpOffs who v),
   (Addr.tbCapSel, fun s _ _ _ v => s.setReg Addr.tbCapSel (BitVec.ofNat 64 (v &&& 0xDFDFDFDF))),
   (Addr.tbCapSec 0, fun s _ k _ v => s.writeLog (Addr.tbCapSec k) v),
   (Addr.tuneDacCode, fun s who _ _ v => s.writeDacCode who v),
   (Addr.tuneGainUser, fun s _ _ _ v => s.writeUser 3 0 v),
   (Addr.tuneOffsUser, fun s _ _ _ v => s.writeUser 4 0 v),
   (Addr.tbCtxSh 0, fun s who n _ v => s.writeCtxSh n who v),
   (Addr.tbCtxCommit 0, fun s who n _ v => s.writeCtxCommit n who v),
   (Addr.tbLgCommit 0, fun s who g _ v => s.writeLgCommit g who v),
   (Addr.ptpRxdlyUser 0, fun s _ l _ v => s.writeUser 1 l v),
   (Addr.ptpTxdlyUser 0, fun s _ l _ v => s.writeUser 2 l v),
   (Addr.cmpEvtSet, fun s _ _ _ v => s.cmpEvtSet v),
   (Addr.cmpHistSel, fun s _ _ _ v => s.writeHistSel v),
   (Addr.cmpCalSel, fun s _ _ _ v => s.calSnapshot v),
   (Addr.nocEpochCtrl, fun s _ _ _ v => s.writeEpochCtrl v),
   (Addr.nocBrgSh 0, fun s who b _ v => s.writeBrgSh who b v),
   (Addr.nocWheelData, fun s who _ _ v => s.writeWheel who v),
   (Addr.nocErrLog, fun s _ _ _ v => s.writeLog Addr.nocErrLog v),
   (Addr.memOwner 0 0, fun s who c i v => s.writeOwner1 (c * 256 + i) who v),
   (Addr.memOwner 24 0, fun s who i _ v => s.writeOwner1 (24 * 256 + i) who v),
   (Addr.memBankCfg 0 0, fun s _ c i v => s.writeBankCfg (c * 256 + i) v),
   (Addr.memBankCfg 24 0, fun s _ i _ v => s.writeBankCfg (24 * 256 + i) v),
   (Addr.memScrubCfg 0, fun s _ c _ v => s.writeScrubCfg c v),
   (Addr.memRemap 0 0, fun s who c e v => s.writeRemap c e who v),
   (Addr.memErrLog 0, fun s _ c _ v => s.writeLog (Addr.memErrLog c) v),
   (Addr.dmaSrc 0 0, fun s who c ch v => s.writeDmaReg c ch who (Addr.dmaSrc c ch) 0xFFFFFFFFFFFF v),
   (Addr.dmaDst 0 0, fun s who c ch v => s.writeDmaReg c ch who (Addr.dmaDst c ch) 0xFFFFFFFFFFFF v),
   (Addr.dmaCnt 0 0, fun s who c ch v => s.writeDmaReg c ch who (Addr.dmaCnt c ch) 0xFFFFFF v),
   (Addr.dmaCtrl 0 0, fun s who c ch v => s.writeDmaCtrl c ch who v),
   (Addr.dmaList 0 0, fun s who c ch v => s.writeDmaReg c ch who (Addr.dmaList c ch) 0xFFFFFFFFFFF0 v),
   (Addr.dmaDoorbell 0 0, fun s who c ch v => s.writeDmaDoorbell c ch who v),
   (Addr.dmaStat 0 0, fun s who c ch v => s.writeDmaStat c ch who v),
   (Addr.dmaDone 0 0, fun s who c _ _ => if dmaWriter c who then s else s.dmaDeny c),
   (Addr.dmaFaultAddr 0 0, fun s who c _ _ => if dmaWriter c who then s else s.dmaDeny c),
   (Addr.sdcShCfg 0, fun s who n _ v => s.writeSdcShadow n 0 who v),
   (Addr.sdcShNco 0, fun s who n _ v => s.writeSdcShadow n 1 who v),
   (Addr.sdcShRs 0, fun s who n _ v => s.writeSdcShadow n 2 who v),
   (Addr.sdcCommit 0, fun s who n _ v => s.writeSdcCommit n who v),
   (Addr.laneCharCtrl 0, fun s _ l _ v => s.writeCharCtrl l v),
   (Addr.lanePrbsCtrl 0, fun s _ l _ v => s.writePrbsCtrl l v),
   (Addr.fhLqErrLog, fun s _ _ _ v => s.writeLog Addr.fhLqErrLog v),
   (Addr.hxFwEvt, fun s who _ _ v => s.writeFwEvt who v),
   (Addr.hxJqBase 0, fun s _ q _ v => s.writeQueueBase false q v),
   (Addr.hxCqBase 0, fun s _ q _ v => s.writeQueueBase true q v),
   (Addr.hxJqCfg 0, fun s _ q _ v => s.writeQueueCfg false q v),
   (Addr.hxCqCfg 0, fun s _ q _ v => s.writeQueueCfg true q v),
   (Addr.hxJqTail 0, fun s _ q _ v => s.writeJqTail q v),
   (Addr.hxCqHead 0, fun s _ q _ v => s.writeCqHead q v),
   (Addr.jnlCalSave, fun s _ _ _ v => s.writeCalSave v),
   (Addr.plbClear, fun s who _ _ v => s.writeClear who v),
   (Addr.plbWdt 0, fun s who k _ v => s.writeWdt k who v),
   (Addr.plbMask, fun s who _ _ v => s.writeMask who v),
   (Addr.plbMaintStart, fun s who _ _ v => s.writeMaintStart who v)]

/-- The block of the HX registers, which accept writes from the host and the Zelfa cores, and of the PLB registers, of
which the rest accept none but GPIO_FAULT's clears. -/
def inHx (a : Nat) : Bool := decide (0x41400000 ≤ a) && decide (a < 0x41800000)
def inPlb (a : Nat) : Bool := decide (0x41C00000 ≤ a) && decide (a < 0x42000000)

/-- A register of the HX block; unmasked vectors that are pending go out (R346). -/
def State.writeHxPlain (s : State) (r : RegSpec) (a v : Nat) : State :=
  let s := s.plainWrite r a v
  if r.base = Addr.hxMsixData 0 ∨ r.base = Addr.hxMsixAddr 0 then s.flushMsix else s

/-- A write of the whole value `v` to the register at `a`. -/
def State.writeWhole (s : State) (who : Requester) (r : RegSpec) (a v : Nat) : State :=
  if inHx a && !isHostOrZelfa who then s.count Addr.hxCfgDenyCnt
  else match regWrites.find? fun e => e.1 == r.base with
    | some e => e.2 s who (r.index a).1 (r.index a).2 v
    | none =>
      if inHx a then s.writeHxPlain r a v
      else if inPlb a && (!isHostOrZelfa who || r.base != Addr.plbGpioStat) then s.count Addr.plbWrDenyCnt
      else s.plainWrite r a v

/-- A write of n bytes of the register at `a` from byte `lo`: the other half as it stands, triggers not repeated (R423). -/
def State.writeReg (s : State) (who : Requester) (r : RegSpec) (a lo n data : Nat) : State :=
  let cover := byteCover lo n
  let keep := (s.reg a).toNat &&& r.mask fun x => x == .rw || x == .rwl || x == .ro
  s.writeWhole who r a ((keep - (keep &&& cover)) ||| ((data <<< (8 * lo)) &&& cover))

/-! ### Accesses by address -/

/-- The answer to a register read: data, ERR_DECODE, or TARGET_ASLEEP. -/
inductive RegAns where
  | ok (v : DWord)
  | decode
  | asleep
  deriving DecidableEq, Repr

/-- A read of 4 or 8 bytes at `a` in the register space. -/
def State.regRead (s : State) (who : Requester) (a n : Nat) : RegAns × State :=
  match regHit a n with
  | .none => (.ok 0, s)
  | .bad => (.decode, s.errDecode)
  | .reg r b lo =>
    if s.regFenced b then (.asleep, s.count Addr.nocFenceRejCnt)
    else let (v, s) := s.readReg who r b lo n; (.ok v, s)

/-- A write of 4 or 8 bytes at `a` in the register space. -/
def State.regWrite (s : State) (who : Requester) (a n data : Nat) : RegAns × State :=
  match regHit a n with
  | .none => (.ok 0, s)
  | .bad => (.decode, s.errDecode)
  | .reg r b lo =>
    if s.regFenced b then (.asleep, s.count Addr.nocFenceRejCnt) else (.ok 0, s.writeReg who r b lo n data)

/-- The host's 8-byte access that is not one of a 64-bit register makes two of 4 bytes. -/
def hostParts (a : Nat) (eight : Bool) : List (Nat × Nat) :=
  let d := a - a % 4
  if !eight then [(d, 4)]
  else match regHit d 8 with
    | .reg _ _ _ => [(d, 8)]
    | _ => [(d, 4), (d + 4, 4)]

/-- A write through BAR0: with partial byte enables it is ignored and counted (R422). -/
def State.hostRegWrite (s : State) (a : Nat) (eight full : Bool) (data : Nat) : State :=
  s.each (hostParts a eight) fun s p =>
    if !full then s.countIf (regCovers p.1) Addr.devAddrErrCnt
    else (s.regWrite .host p.1 p.2 (data / 2 ^ (8 * (p.1 - (a - a % 4))) % 2 ^ (8 * p.2))).2

/-- A read through BAR0: all ones behind a fence (R426); with partial byte enables the whole register is read (R422). -/
def State.hostRegRead (s : State) (full : Bool) (p : Nat × Nat) : List Byte × State :=
  match regHit p.1 p.2 with
  | .reg r b lo =>
    if s.regFenced b then (List.replicate p.2 0xFF, s.count Addr.nocFenceRejCnt)
    else
      let v := (s.regValue .host r b).toNat / 2 ^ (8 * lo)
      (leBytes p.2 v, s.afterRead .host r b (if full then byteCover lo p.2 else byteCover 0 8))
  | _ => (List.replicate p.2 0, s)

/-- BAR0_ACCESS (R333, R422). -/
def execBar0Access (write : Bool) (off : BitVec 26) (eight full : Bool) (data : DWord) (s : State) : Res :=
  let a := 0x40000000 + off.toNat
  State.done (if !s.hostReaches then s
  else if write then s.hostRegWrite a eight full data.toNat
  else
    let (l, s) := (hostParts a eight).foldl (fun x p =>
      let (d, s) := x.2.hostRegRead full p
      (x.1 ++ d, s)) (([] : List Byte), s)
    s.emit (.hostRsp l 0))

/-! ### One cycle's writes (R424) -/

/-- The order of writers in one cycle (R424). -/
def Requester.rank : Requester → Nat
  | .zelfa z => z
  | .plumb => 8
  | .dap => 9
  | .host => 10
  | .tile t => 11 + t

def insertWrite (w : RegWrite) : List RegWrite → List RegWrite
  | [] => [w]
  | x :: l => if Requester.rank w.who < Requester.rank x.who then w :: x :: l else x :: insertWrite w l

def sortWrites (l : List RegWrite) : List RegWrite := l.foldl (fun m w => insertWrite w m) []

/-- The key of the bank whose MEM_OWNER lies at `a`. -/
def ownerKey (a : Nat) : Option Nat :=
  match regAt a with
  | some r =>
    if r.base = Addr.memOwner 0 0 then some ((r.index a).1 * 256 + (r.index a).2)
    else if r.base = Addr.memOwner 24 0 then some (24 * 256 + (r.index a).1)
    else none
  | none => none

/-- A write of PWR_REQ with GO. -/
def isPwrRequest (w : RegWrite) : Bool := w.addr.toNat == Addr.pwrReq && !w.eight && bitOf w.data.toNat 31

/-- One write of the cycle `ws`: the host's PWR_REQ beside a Zelfa core's ends with PWR_BUSY (R356). -/
def State.cycleWrite (s : State) (ws : List RegWrite) (w : RegWrite) : State :=
  let n := if w.eight then 8 else 4
  let a := w.addr.toNat
  if !inRegSpace a then s.errDecode
  else if w.who = .host then
    if isPwrRequest w && w.full && ws.any (fun x => isZelfa x.who && isPwrRequest x)
        && requestAllowed .host s.mode (bitsOf w.data.toNat 30 28) then s.reqOutcome Req.busy 0
    else s.hostRegWrite a w.eight w.full w.data.toNat
  else (s.regWrite w.who a n w.data.toNat).2

/-- A write of the cycle to a MEM_OWNER that reaches it. -/
def toOwnerReg (w : RegWrite) (k : Nat) : Bool := ownerKey w.addr.toNat == some k && !w.eight && (w.full || w.who != .host)

/-- REGISTER_WRITE (R5, R424, R449): one CLK_NOC cycle's writes; `hwSet` are the W1C bits that the hardware sets in the same
cycle in the register of the first write. -/
def execRegisterWrite (ws : List RegWrite) (hwSet : DWord) (s : State) : Res :=
  let ws := sortWrites ws
  let keys := ((ws.filterMap fun w => ownerKey w.addr.toNat)).eraseDups
  let owner := fun (w : RegWrite) => keys.any fun k => toOwnerReg w k
  let s := s.each keys fun s k =>
    s.writeOwner k ((ws.filter fun w => toOwnerReg w k).map fun w =>
      ⟨some w.who, ⟨bitsOf w.data.toNat 15 12, bitsOf w.data.toNat 11 0⟩⟩)
  let s := s.each (ws.filter fun w => !owner w) fun s w => s.cycleWrite ws w
  State.done (match ws.head?.map fun w => regHit w.addr.toNat (if w.eight then 8 else 4) with
    | some (.reg r b _) =>
      if s.regFenced b then s
      else s.setReg b (s.reg b ||| (hwSet &&& BitVec.ofNat 64 (r.mask fun x => x == .w1c)))
    | _ => s)

/-- The RC field in which a register counts events; peaks count none. -/
def RegSpec.counter (r : RegSpec) : Option Fld :=
  (r.fields.find? fun f => f.acc == .rc && f.lo == 0).map fun f => ⟨f.hi, f.lo⟩

/-- The counter field of a register rises by one and stays at its largest value. -/
def State.countField (s : State) (a : Nat) (f : Fld) : State :=
  s.fset a f (min (s.fget a f + 1) (2 ^ (f.hi + 1 - f.lo) - 1))

/-- RC_FIELD_READ (R5, R6, R423): a read of a register; with `hwEvent` its counter counts in the same cycle, after the
clear. -/
def execRcFieldRead (who : Requester) (addr : BitVec 48) (eight : Bool) (hwEvent : Bool) (s : State) : Res :=
  let a := addr.toNat
  let n := if eight then 8 else 4
  if !inRegSpace a then State.done s.errDecode
  else
    let s := (s.regRead who a n).2
    State.done (match regHit a n with
      | .reg r b _ => match r.counter with
        | some f => if hwEvent && !s.regFenced b then s.countField b f else s
        | none => s
      | _ => s)

end Sys2Proof.Machine
end

