-- ==== Sys2Proof/Machine/CoreBase.lean ====
section
/-! DEFINITION. The core as one machine (R76, R84 to R91, R101 to R105, R400, R402): its registers and CSRs, taking an
exception, how an instruction is issued once or under REP, the loop wrap, and accesses of memory and registers. -/

namespace Sys2Proof.Machine

/-- The key of a core in `cores`. -/
def coreKey (c : CoreId) : Nat :=
  match c.unit with
  | .tile t => t
  | .zelfa z => 192 + z
  | .plumb => 200

def coreWho (c : CoreId) : Requester :=
  match c.unit with
  | .tile t => .tile t
  | .zelfa z => .zelfa z
  | .plumb => .plumb

/-- The identity of a core's accesses (Table 09-2, R400). -/
def coreIdent (c : CoreId) : Ident :=
  match c.unit with
  | .tile t => Ident.tile t
  | .zelfa _ | .plumb => Ident.system

def isZelfaCore (c : CoreId) : Bool :=
  match c.unit with
  | .tile _ => false
  | .zelfa _ | .plumb => true

def State.modCore (s : State) (k : Nat) (f : Core → Core) : State := s.setCore k (f (s.core k))

/-! ### G registers (R104) -/

def noWord : Nat → Word := fun _ => 0

/-- Register Gr: G0 reads as zero. -/
def Core.gv (c : Core) (r : Nat) : Word := if r = 0 then 0 else SMap.get noWord c.g r

/-- The poison bit of Gr: G0 never carries poison. -/
def Core.gp (c : Core) (r : Nat) : Bool := r != 0 && c.gPoison.getLsbD r

/-- Write Gr and its poison bit; writes to G0 are discarded. -/
def Core.setG (c : Core) (r : Nat) (v : Word) (p : Bool) : Core :=
  if r = 0 then c
  else
    let m : BitVec 32 := BitVec.ofNat 32 (2 ^ r)
    { c with g := SMap.set noWord c.g r v
             gPoison := if p then c.gPoison ||| m else c.gPoison &&& ~~~ m }

def State.gv (s : State) (k r : Nat) : Word := (s.core k).gv r
def State.gp (s : State) (k r : Nat) : Bool := (s.core k).gp r
def State.setG (s : State) (k r : Nat) (v : Word) (p : Bool) : State := s.modCore k fun c => c.setG r v p

/-! ### Exceptions (R101 to R103, Table 04-18) -/

def Exc.illegal : Nat := 0x01
def Exc.align : Nat := 0x02
def Exc.access : Nat := 0x03
def Exc.poison : Nat := 0x04
def Exc.repcnt : Nat := 0x05
def Exc.loopcfg : Nat := 0x06
def Exc.agcfg : Nat := 0x07
def Exc.brk : Nat := 0x08
def Exc.vector : Nat := 0x09
def Exc.cpdone : Nat := 0x10

/-- The handler is entered at TVEC. -/
def State.enterHandler (s : State) (k : Nat) : State := s.modCore k fun c => { c with pc := c.tvec, inHandler := true }

/-- Taking an exception: EPC and ECAUSE are written, EVAL where there is a faulting address or a code, and execution
continues at TVEC. On a tile POISON stops the stage and closes its job FAULTED (R102), and an exception without a handler
or inside one halts the core (R103); a Zelfa core halts only without a handler (R400). -/
def State.raise (s : State) (k cause : Nat) (epc : Word) (eval : Option Word) : State :=
  let c := s.core k
  let s := s.setCore k
    { c with rep := none, ecause := BitVec.ofNat 32 cause, epc := epc, eval := eval.getD c.eval }
  if 192 ≤ k then
    if c.tvec = 0 then s.modCore k fun c => { c with state := 2 } else s.enterHandler k
  else
    let s := (s.count (Addr.tileExcCnt k)).fset (Addr.tileStat k) Fld.tileStatLastCause cause
    if cause = Exc.poison then s.faultStage c.job c.stage
    else if c.tvec = 0 ∨ c.inHandler then (s.setCoreState k 2).count (Addr.tileUnhandledCnt k)
    else s.enterHandler k

/-! ### Completion of a coprocessor operation (R94 to R99) -/

/-- The operation that is under way completes: its result is written, BUSY clears and CPST shows its end; with IEN[0] = 1
the CPDONE interrupt becomes pending. -/
def State.cpComplete (s : State) (k : Nat) : State :=
  let c := s.core k
  match c.cpBusy with
  | none => s
  | some op =>
    let (ok, s) :=
      if op.err = 1 ∨ op.err = 2 ∨ op.err = 3 then (true, s)
      else s.writeBank [Ident.tile k] op.dst (op.bytes.map fun b => (b, op.poison))
    let err := if ok then op.err else 2
    let s := s.countIf (1 ≤ err && err ≤ 3) (Addr.tileCpErrCnt k)
    s.modCore k fun c => { c with
      cpBusy := none, cpValid := true, cpOp := BitVec.ofNat 8 op.code, cpErr := BitVec.ofNat 4 err
      cpDonePend := c.cpDonePend || c.ien.getLsbD 0 }

/-! ### CSRs (Tables 04-12, 05-7 and 16-32) -/

/-- The interrupt sources of Table 16-33 that are pending. -/
def State.zPending (s : State) : Nat :=
  let b := fun (x : Bool) n => if x then 2 ^ n else 0
  let mem := (List.range 25).any fun c =>
    s.flag (Addr.memRemapCand c) Fld.memRemapCandValid || s.flag (Addr.memScrubStat c) Fld.memScrubStatAlarm
  let dma := (List.range 25).any fun c => (List.range 16).any fun ch => s.flag (Addr.dmaStat c ch) Fld.dmaStatIntPend
  let therm := s.flag Addr.plbTherm Fld.plbThermWarn || s.flag Addr.plbTherm Fld.plbThermAlert
  b mem 0 ||| b dma 1 ||| b (!s.fh.cm.isEmpty) 2 ||| b (!s.fh.rtc.isEmpty) 3 ||| b (!s.fh.ptp.isEmpty) 4 ||| b (s.reg Addr.hxEvtCause != 0) 6
    ||| b (s.flag Addr.nocErrLog Fld.nocErrLogValid) 9 ||| b therm 11 ||| s.plb.latch.toNat

/-- CLK_DSP cycles since the stage was selected. -/
def State.dspCycles (s : State) (c : Core) : Nat := 4 * (s.time.ticks - c.selEdge)

/-- CLK_NOC cycles since a Zelfa core started. -/
def State.zCycles (s : State) (c : Core) : Nat := 8 * (s.time.ticks - c.startEdge) / 3

/-- CPST (Table 04-15). Until the commit signal of an operation has come, `early`, only BUSY shows it; from then on OP
names it, VALID and ERR being 0 until it completes (R96). -/
def Core.cpst (c : Core) (early : Bool) : Word :=
  match c.cpBusy with
  | none => BitVec.ofNat 32 ((if c.cpValid then 2 ^ 30 else 0) + c.cpOp.toNat * 2 ^ 16 + c.cpErr.toNat)
  | some op =>
    if early then BitVec.ofNat 32 (2 ^ 31 + (if c.cpValid then 2 ^ 30 else 0) + c.cpOp.toNat * 2 ^ 16 + c.cpErr.toNat)
    else BitVec.ofNat 32 (2 ^ 31 + op.code % 256 * 2 ^ 16)

def AddrGen.reg (g : AddrGen) : Nat → Option Word
  | 0 => some g.base
  | 1 => some g.index
  | 2 => some g.step
  | 3 => some g.len
  | 4 => some g.mode
  | _ => none

def AddrGen.put (g : AddrGen) (v : Word) : Nat → Option AddrGen
  | 0 => some { g with base := v }
  | 1 => some { g with index := v }
  | 2 => some { g with step := v }
  | 3 => some { g with len := v }
  | 4 => some { g with mode := v }
  | _ => none

def Core.ag (c : Core) (i : Nat) : AddrGen := if i = 0 then c.ag0 else if i = 1 then c.ag1 else c.ag2

def Core.setAg (c : Core) (i : Nat) (g : AddrGen) : Core :=
  if i = 0 then { c with ag0 := g } else if i = 1 then { c with ag1 := g } else { c with ag2 := g }

/-- CSRs that both kinds of core have. -/
def Core.csrBoth (c : Core) (n : Nat) : Option Word :=
  match n with
  | 0x001 => some c.tvec
  | 0x002 => some c.epc
  | 0x003 => some c.ecause
  | 0x004 => some c.eval
  | 0x010 => some c.lc
  | 0x011 => some c.ls
  | 0x012 => some c.le
  | 0x013 => some c.rcnt
  | _ => none

/-- Vector CSRs (Table 05-7). -/
def Core.csrVector (c : Core) (n : Nat) : Option Word :=
  match n with
  | 0x100 => some (BitVec.ofNat 32 ((if c.vsat then 4 else 0) + c.rm.toNat))
  | 0x101 => some (c.vstart.setWidth 32)
  | 0x102 => some (c.vl.setWidth 32)
  | 0x103 => some (c.vtype.setWidth 32)
  | 0x104 => some 128
  | 0x105 => some (c.vseg.setWidth 32)
  | 0x106 => some (c.vxcause.setWidth 32)
  | _ => none

/-- The value of a CSR of core k; none where the core has none of that number (R84, R400); `early` is CPST's. -/
def State.csr (s : State) (k n : Nat) (early : Bool) : Option Word :=
  let c := s.core k
  match c.csrBoth n with
  | some v => some v
  | none =>
    if 192 ≤ k then
      match n with
      | 0x006 => some c.zien
      | 0x007 => some (BitVec.ofNat 32 s.zPending)
      | 0x008 => some (BitVec.ofNat 32 (k - 192))
      | 0x00A => some (BitVec.ofNat 32 (s.zCycles c))
      | 0x00B => some c.zcycleHi
      | _ => none
    else if n = 0x005 then some c.ien
    else if 0x020 ≤ n ∧ n < 0x038 then (c.ag ((n - 0x020) / 8)).reg ((n - 0x020) % 8)
    else if n = 0x040 then some (c.cpst early)
    else if 0x080 ≤ n ∧ n ≤ 0x093 then some (SMap.get noWord c.dw (n - 0x080))
    else if n = 0x200 then some (BitVec.ofNat 32 (s.dspCycles c))
    else if n = 0x201 then some (BitVec.ofNat 32 (c.budget - s.dspCycles c))
    else c.csrVector n

/-- A core of key k with CSR n written; none where the number is unlisted or read-only. -/
def Core.putCsr (c : Core) (k n : Nat) (v : Word) : Option Core :=
  match n with
  | 0x001 => some { c with tvec := v }
  | 0x002 => some { c with epc := v }
  | 0x010 => some { c with lc := v }
  | 0x011 => some { c with ls := v }
  | 0x012 => some { c with le := v }
  | _ =>
    if 192 ≤ k then if n = 0x006 then some { c with zien := v } else none
    else if n = 0x005 then some { c with ien := v &&& 1 }
    else if 0x020 ≤ n ∧ n < 0x038 then
      ((c.ag ((n - 0x020) / 8)).put v ((n - 0x020) % 8)).map fun g => c.setAg ((n - 0x020) / 8) g
    else if n = 0x100 then some { c with vsat := v.getLsbD 2, rm := v.setWidth 2 }
    else if n = 0x101 then some { c with vstart := v.setWidth 11 }
    else if n = 0x105 then some { c with vseg := v.setWidth 11 }
    else none

/-! ### Issue -/

/-- What an instruction leads to: the next instruction, a taken branch, another address without ending a loop, an exception
(its code, and EVAL where it is written), or the end of the stage. -/
inductive Next where
  | next
  | jump (a : Word)
  | goto (a : Word)
  | exc (cause : Nat) (eval : Option Word)
  | ended
  deriving DecidableEq, Repr

/-- An MTC that the last instruction did not yet see takes effect (R84). -/
def Core.applyMtc (c : Core) (k : Nat) (m : Option (Nat × Word)) : Core :=
  match m with
  | none => c
  | some (n, v) => (c.putCsr k n v).getD c

/-- The address lies in the body of the running loop (R90). -/
def Core.inLoop (c : Core) (a : Word) : Bool := c.lc != 0 && decide (c.ls.toNat ≤ a.toNat) && decide (a.toNat < c.le.toNat)

/-- The pc passes an instruction of `size` bytes: at the end of the body the loop wraps while LC is above 1 (R89). -/
def Core.advance (c : Core) (size : Nat) : Core :=
  let a := c.pc + BitVec.ofNat 32 size
  if c.inLoop c.pc && a == c.le then
    if 1 < c.lc.toNat then { c with lc := c.lc - 1, pc := c.ls } else { c with lc := 0, pc := a }
  else { c with pc := a }

/-- A taken branch ends the loop it lies in (R90). -/
def Core.branch (c : Core) (a : Word) : Core := if c.inLoop c.pc then { c with lc := 0, pc := a } else { c with pc := a }

/-- The instruction under way writes the CSRs `ns` itself: program order lets its value stand, not that of the MTC before
it (R84, R124). -/
def Core.supersede (c : Core) (ns : List Nat) : Core :=
  match c.mtcHeld with
  | none => c
  | some (n, _) => if ns.contains n then { c with mtcHeld := none } else c

/-- VSAT is set, also in the value of a VCSR write that waits for the end of this instruction (R124). -/
def Core.setVsat (c : Core) (b : Bool) : Core :=
  match c.mtcHeld with
  | none => { c with vsat := c.vsat || b }
  | some (n, v) => { c with vsat := c.vsat || b, mtcHeld := some (n, if b && n == 0x100 then v ||| 4 else v) }

/-- One execution of an instruction: an MTC of the cycle before takes effect at its end. -/
def State.once (s : State) (k : Nat) (body : State → Next × State) : Next × State :=
  match (s.core k).mtc with
  | none => body s
  | some m =>
    let (x, s) := body (s.modCore k fun c => { c with mtc := none, mtcHeld := some m })
    (x, s.modCore k fun c => { c.applyMtc k c.mtcHeld with mtcHeld := none })

/-- n repetitions; the answer holds how many were not executed, counting a faulting one (R87). -/
def State.repeats (k : Nat) (body : State → Next × State) : Nat → State → Next × Nat × State
  | 0, s => (.next, 0, s)
  | n + 1, s =>
    match s.once k body with
    | (.next, s') => State.repeats k body n s'
    | (x, s') => (x, n + 1, s')

/-- What follows an instruction of `size` bytes at `at'`. -/
def State.follow (s : State) (k size : Nat) (at' : Word) (x : Next) : State :=
  match x with
  | .next => s.modCore k fun c => c.advance size
  | .jump a => s.modCore k fun c => c.branch a
  | .goto a => s.modCore k fun c => { c with pc := a }
  | .exc cause eval => s.raise k cause at' eval
  | .ended => s

/-- The repetitions of a REP sequence that a command carries out: all that are left, or `part` of them. -/
def repCount (left part : Nat) : Nat := if part = 0 then left else min part left

/-- A REP sequence under way with n repetitions left goes on with the instruction at the pc. After a part of them the rest
is still under way; RCNT counts all that were not executed (R87). -/
def State.runRep (s : State) (k size n : Nat) (at' : Word) (body : State → Next × State) : State :=
  let c := s.core k
  let m := repCount n c.repPart
  let (x, left, s) := State.repeats k body m (s.modCore k fun c => { c with rep := none, repPart := 0 })
  if x = .next then
    if m < n then s.modCore k fun c => { c with rep := some (n - m, at') }
    else (s.follow k size c.pc x).takeHalt k
  else
    ((s.modCore k fun c => { c with rcnt := BitVec.ofNat 32 (left + (n - m)) }).follow k size c.pc x).takeHalt k

/-- The core of key k issues an instruction of `size` bytes at its pc: `mayRep` tells whether REP may repeat it (R86). A core
that is not running executes nothing. -/
def State.issue (s : State) (k size : Nat) (mayRep : Bool) (body : State → Next × State) : State :=
  let c := s.core k
  if c.state ≠ 1 then s
  else match c.rep with
    | none =>
      let (x, s) := s.once k body
      s.follow k size c.pc x
    | some (n, at') =>
      if mayRep then s.runRep k size n at' body
      else ((s.modCore k fun c => { c with rep := none, repPart := 0 }).raise k Exc.illegal at' none).takeHalt k

/-- The ILLEGAL exception and no other effect (R83). -/
def illegalExc (s : State) : Next × State := (.exc Exc.illegal none, s)

/-- The size of an instruction by the format of its first word (Table 04-5). -/
def wordSize (w : Word) : Nat := if fld w 31 29 = 7 then 8 else 4

/-- The core issues what it fetched: the command's instruction, or words that encode nothing (R83). -/
def State.fetched (s : State) (c : CoreId) (size : Nat) (mayRep : Bool) (body : State → Next × State) : State :=
  if coreEncoded c then s.issue (coreKey c) size mayRep body
  else s.issue (coreKey c) (wordSize ((c.words.map (·.1)).getD 0)) true illegalExc

/-- An instruction that both kinds of core have. -/
def State.scalar (s : State) (c : CoreId) (size : Nat) (mayRep : Bool) (body : State → Next × State) : Res :=
  State.done (s.fetched c size mayRep body)

/-- An instruction that Zelfa cores lack: there it takes ILLEGAL (R400). -/
def State.gelvipa (s : State) (c : CoreId) (size : Nat) (mayRep : Bool) (body : State → Next × State) : Res :=
  State.done (s.fetched c size mayRep (if isZelfaCore c then illegalExc else body))

/-! ### Memory and registers as a core reaches them (R77, R80, R400, R418 to R422) -/

/-- The range lies in tile t's own scratchpad. -/
def ownPad (t a n : Nat) : Bool := decide (t * 0x80000 ≤ a) && decide (a + n ≤ (t + 1) * 0x80000)

def isLocal (c : CoreId) (a n : Nat) : Bool :=
  match c.unit with
  | .tile t => ownPad t a n
  | .zelfa _ | .plumb => false

/-- A load of n bytes: the bytes with their poison, or nothing where the answer is an error. -/
def State.coreRead (s : State) (c : CoreId) (a n : Nat) (other : Option PortAccess) : Option (List (Byte × Bool)) × State :=
  match target a with
  | .mem _ =>
    let (r, _, s) := s.withPort (isLocal c a n) false a n other fun s => s.readBank [coreIdent c] a n
    (r, s)
  | .reg a =>
    match s.regRead (coreWho c) a n with
    | (.ok v, s) => (some (clean (leBytes n v.toNat)), s)
    | (_, s) => (none, s)
  | .host _ => (none, s)
  | _ => (none, s.errDecode)

/-- A store; answers whether it was accepted. -/
def State.coreWrite (s : State) (c : CoreId) (a : Nat) (d : List (Byte × Bool)) (other : Option PortAccess) : Bool × State :=
  match target a with
  | .mem _ =>
    let (ok, _, s) := s.withPort (isLocal c a d.length) true a d.length other fun s => s.writeBank [coreIdent c] a d
    (ok, s)
  | .reg a =>
    match s.regWrite (coreWho c) a d.length (leVal (bytesOf d)) with
    | (.ok _, s) => (true, s)
    | (_, s) => (false, s)
  | .host _ => (false, s)
  | _ => (false, s.errDecode)

/-- A store to the bit-set or bit-clear alias of an address (R217, R419). -/
def State.coreAlias (s : State) (c : CoreId) (set : Bool) (a : Nat) (d : List (Byte × Bool)) (other : Option PortAccess) :
    Bool × State :=
  if (bankOf a).isNone then (false, s.errDecode)
  else
    let (ok, _, s) := s.withPort (isLocal c a d.length) true a d.length other fun s =>
      let (ok, s) := s.admitRange [coreIdent c] true a d.length
      if ok then (true, s.aliasMem (coreIdent c) set a d) else (false, s)
    (ok, s)

end Sys2Proof.Machine
end

