-- ==== Sys2Proof/Machine/Scalar.lean ====
section
/-! DEFINITION. The scalar instructions of the Gelvipa and Zelfa cores (R83 to R91, R101, R104, R106, R107, Tables 04-6 to
04-11). -/

namespace Sys2Proof.Machine

/-! ### Arithmetic (Tables 04-6, 04-7) -/

/-- rd takes a value computed from two G registers; its poison is that of its sources (R104). -/
def binary (c : CoreId) (rd ra rb : Fin 32) (f : Word → Word → Word) (s : State) : Next × State :=
  let k := coreKey c
  (.next, s.setG k rd (f (s.gv k ra) (s.gv k rb)) (s.gp k ra || s.gp k rb))

/-- rd takes a value computed from one G register. -/
def unary (c : CoreId) (rd ra : Fin 32) (f : Word → Word) (s : State) : Next × State :=
  let k := coreKey c
  (.next, s.setG k rd (f (s.gv k ra)) (s.gp k ra))

def execAdd (c : CoreId) (rd ra rb : Fin 32) (s : State) : Res := s.scalar c 4 true (binary c rd ra rb (fun a b => a + b))
def execSub (c : CoreId) (rd ra rb : Fin 32) (s : State) : Res := s.scalar c 4 true (binary c rd ra rb (fun a b => a - b))
def execAnd (c : CoreId) (rd ra rb : Fin 32) (s : State) : Res := s.scalar c 4 true (binary c rd ra rb (fun a b => a &&& b))
def execOr (c : CoreId) (rd ra rb : Fin 32) (s : State) : Res := s.scalar c 4 true (binary c rd ra rb (fun a b => a ||| b))
def execXor (c : CoreId) (rd ra rb : Fin 32) (s : State) : Res := s.scalar c 4 true (binary c rd ra rb (fun a b => a ^^^ b))
def execAndn (c : CoreId) (rd ra rb : Fin 32) (s : State) : Res := s.scalar c 4 true (binary c rd ra rb (fun a b => a &&& ~~~ b))
def execShl (c : CoreId) (rd ra rb : Fin 32) (s : State) : Res := s.scalar c 4 true (binary c rd ra rb aluShl)
def execShr (c : CoreId) (rd ra rb : Fin 32) (s : State) : Res := s.scalar c 4 true (binary c rd ra rb aluShr)
def execSar (c : CoreId) (rd ra rb : Fin 32) (s : State) : Res := s.scalar c 4 true (binary c rd ra rb aluSar)
def execRol (c : CoreId) (rd ra rb : Fin 32) (s : State) : Res := s.scalar c 4 true (binary c rd ra rb aluRol)
def execSlt (c : CoreId) (rd ra rb : Fin 32) (s : State) : Res := s.scalar c 4 true (binary c rd ra rb aluSlt)
def execSltu (c : CoreId) (rd ra rb : Fin 32) (s : State) : Res := s.scalar c 4 true (binary c rd ra rb aluSltu)
def execMin (c : CoreId) (rd ra rb : Fin 32) (s : State) : Res := s.scalar c 4 true (binary c rd ra rb aluMin)
def execMax (c : CoreId) (rd ra rb : Fin 32) (s : State) : Res := s.scalar c 4 true (binary c rd ra rb aluMax)
def execMinu (c : CoreId) (rd ra rb : Fin 32) (s : State) : Res := s.scalar c 4 true (binary c rd ra rb aluMinu)
def execMaxu (c : CoreId) (rd ra rb : Fin 32) (s : State) : Res := s.scalar c 4 true (binary c rd ra rb aluMaxu)
def execMul (c : CoreId) (rd ra rb : Fin 32) (s : State) : Res := s.scalar c 4 true (binary c rd ra rb aluMul)
def execMulh (c : CoreId) (rd ra rb : Fin 32) (s : State) : Res := s.scalar c 4 true (binary c rd ra rb aluMulh)
def execMulhu (c : CoreId) (rd ra rb : Fin 32) (s : State) : Res := s.scalar c 4 true (binary c rd ra rb aluMulhu)
def execAdds (c : CoreId) (rd ra rb : Fin 32) (s : State) : Res := s.scalar c 4 true (binary c rd ra rb aluAdds)
def execSubs (c : CoreId) (rd ra rb : Fin 32) (s : State) : Res := s.scalar c 4 true (binary c rd ra rb aluSubs)
def execAbs (c : CoreId) (rd ra : Fin 32) (s : State) : Res := s.scalar c 4 true (unary c rd ra aluAbs)
def execNorm (c : CoreId) (rd ra : Fin 32) (s : State) : Res := s.scalar c 4 true (unary c rd ra aluNorm)
def execExp (c : CoreId) (rd ra : Fin 32) (s : State) : Res := s.scalar c 4 true (unary c rd ra aluExp)
def execClz (c : CoreId) (rd ra : Fin 32) (s : State) : Res := s.scalar c 4 true (unary c rd ra aluClz)
def execPopc (c : CoreId) (rd ra : Fin 32) (s : State) : Res := s.scalar c 4 true (unary c rd ra aluPopc)

def execAddi (c : CoreId) (rd ra : Fin 32) (imm : BitVec 14) (s : State) : Res :=
  s.scalar c 4 true (unary c rd ra fun a => a + immS imm)
def execAndi (c : CoreId) (rd ra : Fin 32) (imm : BitVec 14) (s : State) : Res :=
  s.scalar c 4 true (unary c rd ra fun a => a &&& immZ imm)
def execOri (c : CoreId) (rd ra : Fin 32) (imm : BitVec 14) (s : State) : Res :=
  s.scalar c 4 true (unary c rd ra fun a => a ||| immZ imm)
def execXori (c : CoreId) (rd ra : Fin 32) (imm : BitVec 14) (s : State) : Res :=
  s.scalar c 4 true (unary c rd ra fun a => a ^^^ immZ imm)
def execSlti (c : CoreId) (rd ra : Fin 32) (imm : BitVec 14) (s : State) : Res :=
  s.scalar c 4 true (unary c rd ra fun a => aluSlt a (immS imm))
def execSltiu (c : CoreId) (rd ra : Fin 32) (imm : BitVec 14) (s : State) : Res :=
  s.scalar c 4 true (unary c rd ra fun a => aluSltu a (immS imm))
def execShli (c : CoreId) (rd ra : Fin 32) (sh : Fin 32) (s : State) : Res := s.scalar c 4 true (unary c rd ra fun a => a <<< sh.val)
def execShri (c : CoreId) (rd ra : Fin 32) (sh : Fin 32) (s : State) : Res := s.scalar c 4 true (unary c rd ra fun a => a >>> sh.val)
def execSari (c : CoreId) (rd ra : Fin 32) (sh : Fin 32) (s : State) : Res := s.scalar c 4 true (unary c rd ra fun a => a.sshiftRight sh.val)

/-- rd takes a constant. -/
def constant (c : CoreId) (rd : Fin 32) (v : Word) (s : State) : Next × State := (.next, s.setG (coreKey c) rd v false)

def execLui (c : CoreId) (rd : Fin 32) (imm : BitVec 14) (s : State) : Res :=
  s.scalar c 4 true (constant c rd (immZ imm <<< 18))
def execLi (c : CoreId) (rd : Fin 32) (imm : Word) (s : State) : Res := s.scalar c 8 true (constant c rd imm)
def execAddil (c : CoreId) (rd ra : Fin 32) (imm : Word) (s : State) : Res := s.scalar c 8 true (unary c rd ra fun a => a + imm)
def execAndil (c : CoreId) (rd ra : Fin 32) (imm : Word) (s : State) : Res := s.scalar c 8 true (unary c rd ra fun a => a &&& imm)
def execOril (c : CoreId) (rd ra : Fin 32) (imm : Word) (s : State) : Res := s.scalar c 8 true (unary c rd ra fun a => a ||| imm)
def execXoril (c : CoreId) (rd ra : Fin 32) (imm : Word) (s : State) : Res := s.scalar c 8 true (unary c rd ra fun a => a ^^^ imm)

/-! ### Loads and stores (Table 04-8, R104) -/

/-- The POISON exception. -/
def poisonExc (s : State) : Next × State := (.exc Exc.poison none, s)

/-- A load of n bytes at Gra + off; `ext` extends the value. -/
def load (c : CoreId) (rd ra : Fin 32) (off : Word) (n : Nat) (ext : Nat → Word) (other : Option PortAccess) (s : State) :
    Next × State :=
  let k := coreKey c
  let a := s.gv k ra + off
  if s.gp k ra then poisonExc s
  else if a.toNat % n ≠ 0 then (.exc Exc.align (some a), s)
  else match s.coreRead c a.toNat n other with
    | (none, s) => (.exc Exc.access (some a), s)
    | (some d, s) => (.next, s.setG k rd (ext (leVal (bytesOf d))) (anyPoison d))

def zext (v : Nat) : Word := BitVec.ofNat 32 v
def sext (w v : Nat) : Word := BitVec.ofInt 32 (signed w v)

def off15 (o : BitVec 15) : Word := o.signExtend 32

def execLdw (c : CoreId) (rd ra : Fin 32) (off : BitVec 15) (other : Option PortAccess) (s : State) : Res :=
  s.scalar c 4 true (load c rd ra (off15 off) 4 zext other)
def execLdh (c : CoreId) (rd ra : Fin 32) (off : BitVec 15) (other : Option PortAccess) (s : State) : Res :=
  s.scalar c 4 true (load c rd ra (off15 off) 2 (sext 16) other)
def execLdhu (c : CoreId) (rd ra : Fin 32) (off : BitVec 15) (other : Option PortAccess) (s : State) : Res :=
  s.scalar c 4 true (load c rd ra (off15 off) 2 zext other)
def execLdb (c : CoreId) (rd ra : Fin 32) (off : BitVec 15) (other : Option PortAccess) (s : State) : Res :=
  s.scalar c 4 true (load c rd ra (off15 off) 1 (sext 8) other)
def execLdbu (c : CoreId) (rd ra : Fin 32) (off : BitVec 15) (other : Option PortAccess) (s : State) : Res :=
  s.scalar c 4 true (load c rd ra (off15 off) 1 zext other)
def execLdwl (c : CoreId) (rd ra : Fin 32) (imm : Word) (other : Option PortAccess) (s : State) : Res :=
  s.scalar c 8 true (load c rd ra imm 4 zext other)

/-- A store of the low n bytes of Grs at Gra + off; `put` writes them. -/
def store (c : CoreId) (rs ra : Fin 32) (off : Word) (n : Nat) (put : State → Nat → List (Byte × Bool) → Bool × State)
    (s : State) : Next × State :=
  let k := coreKey c
  let a := s.gv k ra + off
  if s.gp k rs || s.gp k ra then poisonExc s
  else if a.toNat % n ≠ 0 then (.exc Exc.align (some a), s)
  else match put s a.toNat (clean (leBytes n (s.gv k rs).toNat)) with
    | (true, s) => (.next, s)
    | (false, s) => (.exc Exc.access (some a), s)

def execStw (c : CoreId) (rs ra : Fin 32) (off : BitVec 15) (other : Option PortAccess) (s : State) : Res :=
  s.scalar c 4 true (store c rs ra (off15 off) 4 fun s a d => s.coreWrite c a d other)
def execSth (c : CoreId) (rs ra : Fin 32) (off : BitVec 15) (other : Option PortAccess) (s : State) : Res :=
  s.scalar c 4 true (store c rs ra (off15 off) 2 fun s a d => s.coreWrite c a d other)
def execStb (c : CoreId) (rs ra : Fin 32) (off : BitVec 15) (other : Option PortAccess) (s : State) : Res :=
  s.scalar c 4 true (store c rs ra (off15 off) 1 fun s a d => s.coreWrite c a d other)
def execStws (c : CoreId) (rs ra : Fin 32) (off : BitVec 15) (other : Option PortAccess) (s : State) : Res :=
  s.scalar c 4 true (store c rs ra (off15 off) 4 fun s a d => s.coreAlias c true a d other)
def execStwc (c : CoreId) (rs ra : Fin 32) (off : BitVec 15) (other : Option PortAccess) (s : State) : Res :=
  s.scalar c 4 true (store c rs ra (off15 off) 4 fun s a d => s.coreAlias c false a d other)
def execStwl (c : CoreId) (rs ra : Fin 32) (imm : Word) (other : Option PortAccess) (s : State) : Res :=
  s.scalar c 8 true (store c rs ra imm 4 fun s a d => s.coreWrite c a d other)

/-! ### Branches (Table 04-9, R90); displacements count from the branch itself (DESIGN CHOICE, log 48) -/

/-- A conditional branch on two G registers. -/
def branchIf (c : CoreId) (ra rb : Fin 32) (disp : BitVec 15) (p : Word → Word → Bool) (s : State) : Next × State :=
  let k := coreKey c
  if s.gp k ra || s.gp k rb then poisonExc s
  else if p (s.gv k ra) (s.gv k rb) then (.jump ((s.core k).pc + (disp.signExtend 32 <<< 2)), s) else (.next, s)

def execBeq (c : CoreId) (ra rb : Fin 32) (disp : BitVec 15) (s : State) : Res :=
  s.scalar c 4 false (branchIf c ra rb disp fun a b => a == b)
def execBne (c : CoreId) (ra rb : Fin 32) (disp : BitVec 15) (s : State) : Res :=
  s.scalar c 4 false (branchIf c ra rb disp fun a b => a != b)
def execBlt (c : CoreId) (ra rb : Fin 32) (disp : BitVec 15) (s : State) : Res :=
  s.scalar c 4 false (branchIf c ra rb disp fun a b => a.slt b)
def execBge (c : CoreId) (ra rb : Fin 32) (disp : BitVec 15) (s : State) : Res :=
  s.scalar c 4 false (branchIf c ra rb disp fun a b => !a.slt b)
def execBltu (c : CoreId) (ra rb : Fin 32) (disp : BitVec 15) (s : State) : Res :=
  s.scalar c 4 false (branchIf c ra rb disp fun a b => a.ult b)
def execBgeu (c : CoreId) (ra rb : Fin 32) (disp : BitVec 15) (s : State) : Res :=
  s.scalar c 4 false (branchIf c ra rb disp fun a b => !a.ult b)

/-- BCPB (R99, R100): taken while the coprocessor is busy. -/
def execBcpb (c : CoreId) (disp : BitVec 15) (s : State) : Res :=
  s.gelvipa c 4 false fun s =>
    let x := s.core (coreKey c)
    (if x.cpBusy.isSome then .jump (x.pc + (disp.signExtend 32 <<< 2)) else .next, s)

/-- JAL (R78). -/
def execJal (c : CoreId) (rd : Fin 32) (disp : BitVec 20) (s : State) : Res :=
  s.scalar c 4 false fun s =>
    let k := coreKey c
    let pc := (s.core k).pc
    (.jump (pc + (disp.signExtend 32 <<< 2)), s.setG k rd (pc + 4) false)

/-- JR (R78, Table 04-18). -/
def execJr (c : CoreId) (rd ra : Fin 32) (s : State) : Res :=
  s.scalar c 4 false fun s =>
    let k := coreKey c
    let a := s.gv k ra
    if s.gp k ra then poisonExc s
    else if a.toNat % 4 ≠ 0 then (.exc Exc.align (some a), s)
    else (.jump a, s.setG k rd ((s.core k).pc + 4) false)

def execJl (c : CoreId) (target : Word) (s : State) : Res := s.scalar c 8 false fun s => (.jump target, s)

/-! ### REP and LOOP (R85 to R91) -/

/-- The next instruction is repeated n times; the command that follows carries out `part` of the repetitions, 0 for all,
which tells how far the sequence has come when a budget stop ends it (R87). -/
def repeatNext (c : CoreId) (n : Nat) (part : BitVec 16) (s : State) : Next × State :=
  (.next, s.modCore (coreKey c) fun x => { x with rep := some (n, x.pc), repPart := part.toNat })

def execRepImm (c : CoreId) (n part : BitVec 16) (s : State) : Res := s.scalar c 4 false (repeatNext c n.toNat part)

def execRepReg (c : CoreId) (ra : Fin 32) (part : BitVec 16) (s : State) : Res :=
  s.scalar c 4 false fun s =>
    let k := coreKey c
    if s.gp k ra then poisonExc s
    else if 65535 < (s.gv k ra).toNat then (.exc Exc.repcnt none, s)
    else repeatNext c (s.gv k ra).toNat part s

/-- LOOP of `size` bytes over the next len + 1 entries (R89). R89 orders its four exceptions nowhere: the model looks at the
count's poison first, then at its size, then at the body, and a count of 0 with a bad body still takes ILLEGAL or LOOPCFG
(DESIGN CHOICE, log 60). -/
def loopFor (c : CoreId) (size count : Nat) (len : Fin 32) (bad : LoopBody) (s : State) : Next × State :=
  let k := coreKey c
  let first := (s.core k).pc + BitVec.ofNat 32 size
  let last := first + BitVec.ofNat 32 (4 * (len.val + 1))
  match bad with
  | .holdsLoop => (.exc Exc.illegal none, s)
  | .endsInRep => (.exc Exc.loopcfg none, s)
  | .ok =>
    if count = 0 then (.goto last, s)
    else (.goto first, s.modCore k fun x =>
      { x.supersede [0x010, 0x011, 0x012] with lc := BitVec.ofNat 32 count, ls := first, le := last })

def execLoop (c : CoreId) (ra : Fin 32) (len : Fin 32) (bad : LoopBody) (s : State) : Res :=
  s.scalar c 4 false fun s =>
    let k := coreKey c
    if s.gp k ra then poisonExc s
    else if 16777215 < (s.gv k ra).toNat then (.exc Exc.repcnt none, s)
    else loopFor c 4 (s.gv k ra).toNat len bad s

def execLoopl (c : CoreId) (count : BitVec 24) (len : Fin 32) (bad : LoopBody) (s : State) : Res :=
  s.scalar c 8 false (loopFor c 8 count.toNat len bad)

/-! ### Control -/

/-- CPWAIT (R99): the operation under way completes. -/
def execCpwait (c : CoreId) (s : State) : Res := s.gelvipa c 4 false fun s => (.next, s.cpComplete (coreKey c))

/-- MFC (R84); a read of ZCYCLE_LO latches ZCYCLE_HI; `early` tells that the commit signal of the last CPX has not yet come
(R96). -/
def execMfc (c : CoreId) (rd : Fin 32) (csr : BitVec 12) (early : Bool) (s : State) : Res :=
  s.scalar c 4 false fun s =>
    let k := coreKey c
    match s.csr k csr.toNat early with
    | none => (.exc Exc.illegal none, s)
    | some v =>
      let hi : Word := BitVec.ofNat 32 (s.zCycles (s.core k) / 2 ^ 32)
      let s := if isZelfaCore c && csr == 0x00A then s.modCore k fun x => { x with zcycleHi := hi } else s
      (.next, s.setG k rd v false)

/-- MTC (R84): `soon` tells that the next instruction issues in the next cycle and sees the old value. -/
def execMtc (c : CoreId) (ra : Fin 32) (csr : BitVec 12) (soon : Bool) (s : State) : Res :=
  s.scalar c 4 false fun s =>
    let k := coreKey c
    match (s.core k).putCsr k csr.toNat (s.gv k ra) with
    | none => (.exc Exc.illegal none, s)
    | some x =>
      if s.gp k ra then poisonExc s
      else (.next, if soon then s.modCore k fun x => { x with mtc := some (csr.toNat, s.gv k ra) }
        else s.setCore k (x.supersede [csr.toNat]))

/-- The stage of tile core k ends with STEND: the coprocessor has become idle, mask bits outside the stage's SELF_CANCEL set
are counted, and the dispatcher takes the completion (R62, R106). -/
def State.stageEnd (s : State) (k mask : Nat) : State :=
  let s := s.cpComplete k
  let x := s.core k
  let ignored := match s.job x.job with
    | some j => ((List.range 64).filter fun m => bitOf mask m && !bitOf (j.stageT x.stage).selfCancel m).length
    | none => 0
  let s := s.countBy (Addr.tileStendIgnCnt k) ignored
  let s := (s.modCore k fun x => { x with lc := 0, inHandler := false, cpDonePend := false }).setCoreState k 0
  s.completeStage x.job x.stage mask false

/-- STEND (R106). -/
def execStend (c : CoreId) (ra rb : Fin 32) (s : State) : Res :=
  s.gelvipa c 4 false fun s =>
    let k := coreKey c
    if s.gp k ra || s.gp k rb then poisonExc s
    else (.ended, s.stageEnd k ((s.gv k ra).toNat + (s.gv k rb).toNat * 2 ^ 32))

/-- Stage k's value for RESULTn reaches the dispatcher: the last one stays; with `same`, in the cycle of the one before it,
that of the higher stage index (R107). -/
def Job.setResult (j : Job) (n k : Nat) (v : Word) (same : Bool) : Job :=
  if same && decide (k < SMap.get (fun _ => 0) j.resultBy n) then j
  else { j with results := SMap.set noWord j.results n v, resultBy := SMap.set (fun _ => 0) j.resultBy n k }

/-- SETRES (R107). -/
def execSetres (c : CoreId) (ra : Fin 32) (n : Fin 4) (same : Bool) (s : State) : Res :=
  s.gelvipa c 4 false fun s =>
    let k := coreKey c
    let v := s.gv k ra
    if s.gp k ra then poisonExc s
    else (.next, s.modJob (s.core k).job fun j => j.setResult n (s.core k).stage v same)

/-- ERET (R101). -/
def execEret (c : CoreId) (s : State) : Res :=
  s.scalar c 4 false fun s =>
    let k := coreKey c
    (.goto (s.core k).epc, s.modCore k fun x => { x with inHandler := false })

def execBrk (c : CoreId) (code : BitVec 16) (s : State) : Res :=
  s.scalar c 4 false fun s => (.exc Exc.brk (some (code.setWidth 32)), s)

/-- FENCE: every store is acknowledged when its instruction ends. -/
def execFence (c : CoreId) (s : State) : Res := s.scalar c 4 false fun s => (.next, s)

/-! ### Interrupts (R101, R402) -/

/-- The core runs and is not between a REP and what it repeats (R87). -/
def Core.interruptible (x : Core) : Bool := x.state == 1 && x.rep.isNone

/-- COPROCESSOR_DONE (R99): the operation under way on tile t completes. -/
def execCoprocessorDone (t : Fin 192) (s : State) : Res := State.done (s.cpComplete t)

/-- CPDONE_INTERRUPT (R101): taken between instructions while it is pending and enabled. -/
def execCpdoneInterrupt (t : Fin 192) (s : State) : Res :=
  let x := s.core t
  State.done (if x.interruptible && x.cpDonePend && x.ien.getLsbD 0 then
    (s.setCore t ({ x with cpDonePend := false, mtc := none }.applyMtc t x.mtc)).raise t Exc.cpdone x.pc none
  else s)

/-- ZELFA_INTERRUPT (R402): source n, pending and enabled, is taken by core z. -/
def execZelfaInterrupt (z : Fin 8) (n : Fin 12) (s : State) : Res :=
  let k := 192 + z.val
  let x := s.core k
  State.done (if x.interruptible && !x.inHandler && x.zien.getLsbD n && bitOf s.zPending n then
    (s.setCore k ({ x with mtc := none }.applyMtc k x.mtc)).raise k (0x20 + n.val) x.pc none
  else s)

end Sys2Proof.Machine
end

