-- ==== Sys2Proof/Machine/Cop.lean ====
section
/-! DEFINITION. The tile coprocessor: CPX and its seven operations (R93 to R100, Tables 04-14 and 04-15). -/

namespace Sys2Proof.Machine

/-- An operation of Table 04-14: its parameters' check, the bytes of data it reads and writes, and the data it writes. -/
structure CpSpec where
  code : Nat
  /-- N, P1, P2 within Table 04-14 -/
  ok : Nat → Nat → Nat → Bool
  inLen : Nat → Nat → Nat
  outLen : Nat → Nat → Nat
  /-- the result of N, P1, P2 and the data; free values are drawn from the state -/
  run : Nat → Nat → Nat → List Byte → State → List Byte × State

/-- Element i of w bytes of a block. -/
def elemAt (l : List Byte) (w i : Nat) : Nat := leVal ((l.drop (w * i)).take w)

/-- Bit i of a block, packed from bit 0 of byte 0. -/
def blockBit (l : List Byte) (i : Nat) : Bool := (l.getD (i / 8) 0).getLsbD (i % 8)

/-- Bits packed from bit 0 of byte 0. Table 04-14 is silent on the bits of the last byte above the last one: they are 0
(DESIGN CHOICE, log 60). -/
def packLow (l : List Bool) : List Byte :=
  (List.range (ceilDiv l.length 8)).map fun i =>
    BitVec.ofNat 8 ((List.range 8).foldl (fun a b => a + (if l.getD (8 * i + b) false then 2 ^ b else 0)) 0)

def countOk (n : Nat) : Bool := decide (1 ≤ n) && decide (n ≤ 4096)
def bitsOk (n : Nat) : Bool := decide (1 ≤ n) && decide (n ≤ 1048576)

/-! ### The seven operations -/

/-- The least exponent for which both parts of 1/(a + jb), divided by 2^e, fit Q15 mantissas; d is a² + b². -/
def crecipLeast (a b d : Int) : Nat :=
  let fits := fun (x : Int) (e : Nat) =>
    let q := x * 2 ^ 30 / (d * 2 ^ e)
    decide (-32768 ≤ q) && (decide (q < 32767) || (decide (q = 32767) && x * 2 ^ 30 % (d * 2 ^ e) == 0))
  ((List.range 17).find? fun e => fits a e && fits (-b) e).getD 16

/-- One part of the mantissa: the exact quotient, or one of its two neighbours. -/
def crecipPart (x d : Int) (e : Nat) (up : Bool) : Int :=
  let n := x * 2 ^ 30
  n / (d * 2 ^ e) + (if up && n % (d * 2 ^ e) != 0 then 1 else 0)

/-- The reciprocal of a complex int16 Q15 input as the pattern of its mantissas and its exponent: m × 2^e is 1/x but for the
rounding of m. Table 04-14 fixes neither the exponent nor the rounding: both are free (log 7). -/
def crecip (v : Nat) : Nat × Nat :=
  if v % 2 ^ 32 = 0 then (0x7FFF, 127)
  else
    let a := toSigned 16 v
    let b := toSigned 16 (v / 65536)
    let d := a * a + b * b
    let least := crecipLeast a b d
    let e := least + Config.crecipE (BitVec.ofNat 32 v) % (128 - least)
    let up := Config.crecipUp (BitVec.ofNat 32 v)
    (ofSigned 16 (crecipPart a d e up.1) + ofSigned 16 (crecipPart (-b) d e up.2) * 65536, e)

def cpCrecip : CpSpec where
  code := 0x01
  ok n _ _ := countOk n
  inLen n _ := 4 * n
  outLen n _ := 5 * n
  run n _ _ l s :=
    let x := (List.range n).map fun i => elemAt l 4 i
    ((x.map fun v => leBytes 4 (crecip v).1).flatten ++ x.map fun v => BitVec.ofNat 8 (crecip v).2, s)

/-- A root that does not fit 16 bits is left free. -/
def rootBytes (v : Nat) (s : State) : List Byte × State :=
  if isqrtRound v < 65536 then (leBytes 2 (isqrtRound v), s)
  else let (x, s) := s.free 16; (leBytes 2 x.toNat, s)

def cpSqrt : CpSpec where
  code := 0x02
  ok n _ _ := countOk n
  inLen n _ := 4 * n
  outLen n _ := 2 * n
  run n _ _ l s := (List.range n).foldl (fun (acc : List Byte × State) i =>
    let (b, s) := rootBytes (elemAt l 4 i) acc.2
    (acc.1 ++ b, s)) ([], s)

/-- atan(2^-i) for i = 0 to 39, in 2^-32 of 1/32,768 of π. -/
def atanTable : List Int :=
  [35184372088832, 20770547670515, 10974586953444, 5570871696862, 2796246208089, 1399486241028, 699913886760, 349978300884, 174991820497, 87496244017]
    ++ [43748163730, 21874087080, 10937044192, 5468522177, 2734261099, 1367130551, 683565276, 341782638, 170891319, 85445659, 42722830, 21361415]
    ++ [10680707, 5340354, 2670177, 1335088, 667544, 333772, 166886, 83443, 41722, 20861, 10430, 5215, 2608, 1304, 652, 326, 163, 81]

/-- Rotate (x, y) onto the first axis, step i by ± atan(2^-i): the angle turned. -/
def rotate : List Int → Nat → Int → Int → Int → Int
  | [], _, _, _, z => z
  | t :: l, i, x, y, z =>
    if 0 < y then rotate l (i + 1) (x + y / 2 ^ i) (y - x / 2 ^ i) (z + t)
    else rotate l (i + 1) (x - y / 2 ^ i) (y + x / 2 ^ i) (z - t)

/-- The angle of (I, Q) in 2^-32 of 1/32,768 of π, to within 2^-24 of 1/32,768 of π. -/
def angle (i q : Int) : Int :=
  let z := rotate atanTable 0 (i.natAbs * 2 ^ 40) (q.natAbs * 2 ^ 40) 0
  let z := if i < 0 then 32768 * 2 ^ 32 - z else z
  if q < 0 then -z else z

/-- The angles that ATAN2 may answer: those within 1 LSB of the exact one (Table 04-14), which of them is free (log 7). -/
def atanNear (i q : Int) : List Int :=
  let z := angle i q
  let r := (z + 2 ^ 31) / 2 ^ 32
  [r - 1, r, r + 1].filter fun c => decide ((c * 2 ^ 32 - z).natAbs ≤ 2 ^ 32 + 2 ^ 8)

def atan2 (v : Nat) : Nat :=
  if v % 2 ^ 32 = 0 then 0
  else
    let l := atanNear (toSigned 16 v) (toSigned 16 (v / 65536))
    ofSigned 16 (l.getD (Config.atan2Pick (BitVec.ofNat 32 v) % l.length) 0)

def cpAtan2 : CpSpec where
  code := 0x03
  ok n _ _ := countOk n
  inLen n _ := 4 * n
  outLen n _ := 2 * n
  run n _ _ l s :=
    (((List.range n).map fun i => leBytes 2 (atan2 (elemAt l 4 i))).flatten, s)

/-- Insert a pair behind every pair of a value at least as large. -/
def insertTop (p : Nat × Int) : List (Nat × Int) → List (Nat × Int)
  | [] => [p]
  | x :: l => if x.2 < p.2 then p :: x :: l else x :: insertTop p l

/-- The k largest values of n, equal values in index order; pairs beyond n are left free. -/
def topPairs (n k : Nat) (l : List Byte) (s : State) : List Byte × State :=
  let all := (List.range n).foldl (fun (m : List (Nat × Int)) i => (insertTop (i, toSigned 16 (elemAt l 2 i)) m).take k) []
  let got := (all.map fun p => leBytes 2 p.1 ++ leBytes 2 (ofSigned 16 p.2)).flatten
  (List.range (k - n)).foldl (fun (acc : List Byte × State) _ =>
    let (x, s) := acc.2.free 32
    (acc.1 ++ leBytes 4 x.toNat, s)) (got, s)

def cpTopk : CpSpec where
  code := 0x04
  ok n p1 _ := countOk n && decide (1 ≤ p1) && decide (p1 ≤ 64)
  inLen n _ := 2 * n
  outLen _ p1 := 4 * p1
  run n p1 _ l s := topPairs n p1 l s

/-- Width and polynomial of a 3GPP CRC by its number in P1[2:0] (TS 38.212 clause 5.1). -/
def crcPoly (i : Nat) : Nat × Nat :=
  match i with
  | 0 => (24, 0x864CFB)
  | 1 => (24, 0x800063)
  | 2 => (24, 0xB2B117)
  | 3 => (16, 0x1021)
  | 4 => (11, 0x621)
  | _ => (6, 0x21)

def cpCrc : CpSpec where
  code := 0x05
  ok n p1 _ := bitsOk n && decide (p1 % 8 ≤ 5)
  inLen n _ := ceilDiv n 8
  outLen _ _ := 4
  run n p1 p2 l s :=
    let (w, p) := crcPoly (p1 % 8)
    let r := crcFrom (if p2 % 2 = 1 then 2 ^ w - 1 else 0) w p ((List.range n).map (blockBit l))
    (leBytes 4 (if r = 0 then 2 ^ 31 else r), s)

def cpScramb : CpSpec where
  code := 0x06
  ok n p1 p2 := bitsOk n && decide (p1 < 2 ^ 31) && decide (p2 ≤ 2 ^ 20)
  inLen _ _ := 0
  outLen n _ := ceilDiv n 8
  run n p1 p2 _ s := (packLow (goldFrom p1 p2 n), s)

def cpIntlv : CpSpec where
  code := 0x07
  ok n p1 _ := bitsOk n && decide (1 ≤ p1) && decide (p1 ≤ 16) && n % p1 == 0
  inLen n _ := ceilDiv n 8
  outLen n _ := ceilDiv n 8
  run n p1 _ l s :=
    (packLow ((List.range n).map fun j => blockBit l (j % p1 * (n / p1) + j / p1)), s)

/-! ### CPX -/

/-- A block lies in tile t's scratchpad and its pointer is 16-byte aligned (R94). -/
def blockOk (t a n : Nat) : Bool := a % 16 == 0 && ownPad t a n

/-- What an operation that has read its operand block leaves to be written: the checks of R94 come first, in the order
pointers, PARAM, blocks, OVERLAP, which R94 leaves open; a poisoned header word is used as it is read, so a bad one ends
PARAM and not POISON, an order that R95 leaves open (DESIGN CHOICE, log 60). -/
def State.cpRun (s : State) (t : Nat) (x : CpSpec) (src dst : Nat) : CpOp × State :=
  let err := fun e (s : State) => (({ code := x.code, err := e, dst := dst, bytes := [], poison := false } : CpOp), s)
  if !blockOk t src 16 || dst % 16 != 0 then err 2 s
  else match s.readBank [Ident.tile t] src 16 with
    | (none, s) => err 2 s
    | (some h, s) =>
      let f := fun o => leVal (((bytesOf h).drop o).take 4)
      let (n, p1, p2) := (f 0, f 4, f 8)
      let (il, ol) := (x.inLen n p1, x.outLen n p1)
      if !x.ok n p1 p2 then err 1 s
      else if !ownPad t src (16 + il) || !ownPad t dst ol then err 2 s
      else if src < dst + ol && dst < src + 16 + il then err 3 s
      else match s.readBank [Ident.tile t] (src + 16) il with
        | (none, s) => err 2 s
        | (some d, s) =>
          let (out, s) := x.run n p1 p2 (bytesOf d) s
          let bad := anyPoison h || anyPoison d
          (⟨x.code, if bad then 4 else 0, dst, out, bad⟩, s)

/-- CPX (R94 to R100): a squashed one leaves no trace; one that meets BUSY waits for the operation before it. -/
def State.cpx (s : State) (c : CoreId) (x : CpSpec) (ra rb : Fin 32) (squashed : Bool) : Res :=
  if squashed then s.done
  else s.gelvipa c 4 false fun s =>
    let k := coreKey c
    if s.gp k ra || s.gp k rb then poisonExc s
    else
      let s := s.cpComplete k
      let (op, s) := s.cpRun k x (s.gv k ra).toNat (s.gv k rb).toNat
      (.next, s.modCore k fun y => { y with cpBusy := some op })

def execCpCrecip (c : CoreId) (ra rb : Fin 32) (squashed : Bool) (s : State) : Res := s.cpx c cpCrecip ra rb squashed
def execCpSqrt (c : CoreId) (ra rb : Fin 32) (squashed : Bool) (s : State) : Res := s.cpx c cpSqrt ra rb squashed
def execCpAtan2 (c : CoreId) (ra rb : Fin 32) (squashed : Bool) (s : State) : Res := s.cpx c cpAtan2 ra rb squashed
def execCpTopk (c : CoreId) (ra rb : Fin 32) (squashed : Bool) (s : State) : Res := s.cpx c cpTopk ra rb squashed
def execCpCrc (c : CoreId) (ra rb : Fin 32) (squashed : Bool) (s : State) : Res := s.cpx c cpCrc ra rb squashed
def execCpScramb (c : CoreId) (ra rb : Fin 32) (squashed : Bool) (s : State) : Res := s.cpx c cpScramb ra rb squashed
def execCpIntlv (c : CoreId) (ra rb : Fin 32) (squashed : Bool) (s : State) : Res := s.cpx c cpIntlv ra rb squashed

end Sys2Proof.Machine
end

