-- ==== Sys2Proof/Machine/VecBase.lean ====
section
/-! DEFINITION. The vector unit's registers, element views, masks, checks and operands (R109 to R119, R122 to R124, R133,
R134). -/

namespace Sys2Proof.Machine

/-! ### Registers and elements (R109, R111, R133) -/

def noVreg : Nat → VReg := fun _ => 0
def noGran : Nat → BitVec 16 := fun _ => 0

def Core.vreg (c : Core) (r : Nat) : VReg := SMap.get noVreg c.v r
def Core.mreg (c : Core) (m : Nat) : VReg := SMap.get noVreg c.masks m
def Core.setM (c : Core) (m : Nat) (v : VReg) : Core := { c with masks := SMap.set noVreg c.masks m v }

/-- Element i of w bits of the group that starts at Vr. -/
def Core.velem (c : Core) (r w i : Nat) : Nat := ((c.vreg (r + i * w / 1024)).extractLsb' (i * w % 1024) w).toNat

/-- The poison of the 64-bit granule that holds the element. -/
def Core.vpois (c : Core) (r w i : Nat) : Bool :=
  (SMap.get noGran c.vPoison (r + i * w / 1024)).getLsbD (i * w % 1024 / 64)

/-- An element to be written: its index, value and poison. -/
structure VElem where
  i : Nat
  v : Nat
  p : Bool
  deriving DecidableEq, Repr

/-- Register and granule of an element, as one number. -/
def granKey (r w i : Nat) : Nat := (r * 1024 + i * w) / 64

/-- The granule's poison after a write of the elements `l`: set by a poisoned element, cleared only where all of it is
written clean. -/
def Core.setGranule (c : Core) (r w : Nat) (l : List VElem) (key : Nat) : Core :=
  let mine := l.filter fun e => granKey r w e.i == key
  let old := SMap.get noGran c.vPoison (key / 16)
  let bit : BitVec 16 := BitVec.ofNat 16 (2 ^ (key % 16))
  let p := mine.any (·.p) || (old.getLsbD (key % 16) && decide (mine.length * w < 64))
  { c with vPoison := SMap.set noGran c.vPoison (key / 16) (if p then old ||| bit else old &&& ~~~ bit) }

def Core.setElem (c : Core) (r w : Nat) (e : VElem) : Core :=
  let k := r + e.i * w / 1024
  let o := e.i * w % 1024
  let m : VReg := BitVec.ofNat 1024 ((2 ^ w - 1) <<< o)
  { c with v := SMap.set noVreg c.v k ((c.vreg k &&& ~~~ m) ||| BitVec.ofNat 1024 ((e.v % 2 ^ w) <<< o)) }

/-- Write elements of w bits of the group at Vr. -/
def Core.putElems (c : Core) (r w : Nat) (l : List VElem) : Core :=
  let c := l.foldl (fun c e => c.setElem r w e) c
  ((l.map fun e => granKey r w e.i).eraseDups).foldl (fun c k => c.setGranule r w l k) c

/-! ### Element type, group and length (Table 05-1, R110) -/

structure VT where
  /-- element width, and the width of a part: 16 for cint16 -/
  w : Nat
  pw : Nat
  cplx : Bool
  int32 : Bool
  g : Nat
  vl : Nat
  start : Nat
  deriving DecidableEq, Repr

def ewBits (e : Nat) : Nat := if e = 0 then 8 else if e = 1 then 16 else 32

def Core.vt (c : Core) : VT :=
  let e := c.vtype.toNat % 4
  { w := ewBits e, pw := if e = 3 then 16 else ewBits e, cplx := e == 3, int32 := e == 2, g := 2 ^ (c.vtype.toNat / 4)
    vl := c.vl.toNat, start := c.vstart.toNat }

def VT.vlmax (t : VT) : Nat := 1024 * t.g / t.w

/-- The elements from VSTART to vl − 1. -/
def VT.indices (t : VT) : List Nat := (List.range t.vl).drop t.start

/-- Element i is active: unmasked, or its bit of the mask register is set (R114). -/
def Core.active (c : Core) (men : Bool) (m : Nat) (i : Nat) : Bool := !men || (c.mreg m).getLsbD i

/-- Write an element result for every element: active ones take `f`, whose answer holds value, poison and whether it was
clipped; inactive ones follow MZ; a clipped active element sets VSAT under SAT = 1 (R114, R124). -/
def State.vwrite (s : State) (k r w : Nat) (idx : List Nat) (mz sat : Bool) (active : Nat → Bool)
    (f : Nat → Nat × Bool × Bool) : State :=
  let rows := idx.filterMap fun i =>
    if active i then some (⟨i, (f i).1, (f i).2.1⟩, (f i).2.2) else if mz then some (⟨i, 0, false⟩, false) else none
  let clipped := rows.any (·.2)
  s.modCore k fun c =>
    let c := c.putElems r w (rows.map (·.1))
    c.setVsat (sat && clipped)

/-! ### Checks (R112 to R118, R134) -/

def Vx.group : Nat := 1
def Vx.type : Nat := 2
def Vx.overlap : Nat := 3
def Vx.seg : Nat := 4
def Vx.start : Nat := 5
def Vx.calign : Nat := 6
def Vx.length : Nat := 7
def Vx.param : Nat := 8

/-- Operands of groups of n registers whose number is not a multiple of n. -/
def misaligned (l : List (Nat × Nat)) : Bool := l.any fun e => e.1 % e.2 != 0

/-- The destination's registers meet a source's. -/
def vOverlaps (d n : Nat) (l : List (Nat × Nat)) : Bool := l.any fun e => decide (d < e.1 + e.2) && decide (e.1 < d + n)

/-- Carry out a vector instruction whose first word is `word`: ILLEGAL, then the vector exceptions in the order of
Table 05-6, of which vl = 0 leaves GROUP and TYPE (R110); VSTART clears when it commits (R116). -/
def vectorOp (c : CoreId) (word : Nat) (illegal : Bool) (checks : VT → List (Nat × Bool)) (body : VT → State → Next × State)
    (s : State) : Next × State :=
  let k := coreKey c
  let t := (s.core k).vt
  if illegal then (.exc Exc.illegal none, s)
  else match (checks t).find? fun e => e.2 && (t.vl != 0 || decide (e.1 ≤ 2)) with
    | some e => (.exc Exc.vector (some (BitVec.ofNat 32 word)), s.modCore k fun x => { x with vxcause := BitVec.ofNat 4 e.1 })
    | none =>
      match body t s with
      | (.next, s) => (.next, s.modCore k fun x => { x.supersede [0x101] with vstart := 0 })
      | r => r

/-- The first word of a VA instruction (Table 05-8). -/
def vaWord (x : VArith) (op : Nat) : Nat :=
  5 * 2 ^ 29 + op * 2 ^ 23 + x.vd * 2 ^ 18 + x.vs1 * 2 ^ 13 + x.vs2 * 2 ^ 8 + x.k * 2 ^ 6
    + (if x.sat then 32 else 0) + (if x.mz then 16 else 0) + (if x.men then 8 else 0) + x.m

/-- An unmasked instruction must carry M = 0 (R114). -/
def badMask (men : Bool) (m : Fin 8) : Bool := !men && m != 0

/-! ### The second operand (R118) -/

/-- The address of a C operand. -/
def cAddr (s : State) (k : Nat) (r : Fin 32) : Nat := (s.gv k r).toNat

def usesC (x : VArith) : Bool := decide (2 ≤ x.k.val)

/-- The second operand as a function of the element: value and poison; `f` goes on with it. A C operand is read once; with
K = 0b11 its register then advances. -/
def withOp2 (c : CoreId) (x : VArith) (t : VT) (s : State) (f : (Nat → Nat × Bool) → State → Next × State) : Next × State :=
  let k := coreKey c
  let co := s.core k
  let adv := fun (r : Next × State) =>
    if x.k = 3 ∧ r.1 = .next then
      (r.1, r.2.setG k x.vs2 (s.gv k x.vs2 + BitVec.ofNat 32 (t.w / 8)) (s.gp k x.vs2))
    else r
  match x.k with
  | 0 => f (fun i => (co.velem x.vs2 t.w i, co.vpois x.vs2 t.w i)) s
  | 1 => f (fun _ => ((s.gv k x.vs2).toNat % 2 ^ t.w, s.gp k x.vs2)) s
  | _ =>
    if t.vl = 0 then adv (f (fun _ => (0, false)) s)
    else if s.gp k x.vs2 then poisonExc s
    else match s.coreRead c (cAddr s k x.vs2) (t.w / 8) x.other with
      | (none, s) => (.exc Exc.access (some (s.gv k x.vs2)), s.modCore k fun y => { y.supersede [0x101] with vstart := 0 })
      | (some d, s) => adv (f (fun _ => (leVal (bytesOf d), anyPoison d)) s)

/-- The check of a C operand's address. -/
def calign (s : State) (c : CoreId) (x : VArith) (t : VT) : Nat × Bool :=
  (Vx.calign, usesC x && cAddr s (coreKey c) x.vs2 % (t.w / 8) != 0)

/-- The vector register groups of op2: none for a G or C operand. -/
def op2Regs (x : VArith) (n : Nat) : List (Nat × Nat) := if x.k = 0 then [(x.vs2.val, n)] else []

/-! ### Arithmetic of an element or of its parts (R113, R122 to R124) -/

/-- A function of two integers on each part of an element, narrowed to `dw` bits a part. -/
def liftParts (cplx sat : Bool) (aw bw dw : Nat) (f : (Nat → Int) → (Nat → Int) → Nat → Int) (a b : Nat) : Nat × Bool :=
  let pa := fun p => toSigned aw (a / 2 ^ (aw * p))
  let pb := fun p => toSigned bw (b / 2 ^ (bw * p))
  let lo := narrow sat dw (f pa pb 0)
  if cplx then
    let hi := narrow sat dw (f pa pb 1)
    (lo.1 + hi.1 * 2 ^ dw, lo.2 || hi.2)
  else lo

end Sys2Proof.Machine
end

