-- ==== Sys2Proof/Machine/Vector.lean ====
section
/-! DEFINITION. The vector arithmetic, mask, permute, block and reduction instructions (R110, R114 to R116, R121 to R132,
Tables 05-4, 05-9). -/

namespace Sys2Proof.Machine

/-! ### Element-wise instructions of one width -/

/-- The operands of an element-wise instruction that must be groups of g registers. -/
def sameGroups (x : VArith) (t : VT) : List (Nat × Nat) := (x.vd.val, t.g) :: (x.vs1.val, t.g) :: op2Regs x t.g

/-- vd[i] = f vs1[i] op2[i] for the active elements; `sel` overrides which elements take the result. -/
def elementwise (c : CoreId) (x : VArith) (op : Nat) (illegal : Bool) (badType : VT → Bool)
    (f : Core → VT → Nat → Nat → Nat → Nat × Bool) (s : State) : Next × State :=
  vectorOp c (vaWord x op) (illegal || badMask x.men x.m)
    (fun t => [(Vx.group, misaligned (sameGroups x t)), (Vx.type, badType t), calign s c x t])
    (fun t s => withOp2 c x t s fun b s =>
      let k := coreKey c
      let co := s.core k
      (.next, s.vwrite k x.vd t.w t.indices x.mz x.sat (co.active x.men x.m) fun i =>
        let r := f co t i (co.velem x.vs1 t.w i) (b i).1
        (r.1, co.vpois x.vs1 t.w i || (b i).2, r.2))) s

/-- Element-wise on parts, exact in the integers and narrowed under SAT. -/
def partwise (x : VArith) (f : Nat → Nat → Int → Int → Int) (co : Core) (t : VT) (_ a b : Nat) : Nat × Bool :=
  liftParts t.cplx x.sat t.pw t.pw t.pw (fun pa pb p => f co.rm.toNat t.pw (pa p) (pb p)) a b

/-- Element-wise on the bits. -/
def bitwise (f : Nat → Nat → Nat) (_ : Core) (_ : VT) (_ a b : Nat) : Nat × Bool := (f a b, false)

def anyType (_ : VT) : Bool := false
def onlyCplx (t : VT) : Bool := !t.cplx
def notCplx (t : VT) : Bool := t.cplx
def notInt32 (t : VT) : Bool := t.int32

/-- A shift count modulo the part width. -/
def shiftCount (pw : Nat) (b : Int) : Nat := (b % pw).toNat

/-- A unary element-wise instruction: vs2 and K are not operands. -/
def unaryWise (c : CoreId) (x : VArith) (op : Nat) (illegal : Bool) (badType : VT → Bool)
    (f : Core → VT → Nat → Nat → Nat → Nat × Bool) (s : State) : Next × State :=
  vectorOp c (vaWord x op) (illegal || badMask x.men x.m)
    (fun t => [(Vx.group, misaligned [(x.vd.val, t.g), (x.vs1.val, t.g)]), (Vx.type, badType t)])
    (fun t s =>
      let k := coreKey c
      let co := s.core k
      (.next, s.vwrite k x.vd t.w t.indices x.mz x.sat (co.active x.men x.m) fun i =>
        let r := f co t i (co.velem x.vs1 t.w i) 0
        (r.1, co.vpois x.vs1 t.w i, r.2))) s

def execVadd (c : CoreId) (x : VArith) (s : State) : Res :=
  s.gelvipa c 4 true (elementwise c x 0x00 false anyType (partwise x fun _ _ a b => a + b))
def execVsub (c : CoreId) (x : VArith) (s : State) : Res :=
  s.gelvipa c 4 true (elementwise c x 0x01 false anyType (partwise x fun _ _ a b => a - b))
def execVrsub (c : CoreId) (x : VArith) (s : State) : Res :=
  s.gelvipa c 4 true (elementwise c x 0x02 false anyType (partwise x fun _ _ a b => b - a))
def execVmin (c : CoreId) (x : VArith) (s : State) : Res :=
  s.gelvipa c 4 true (elementwise c x 0x03 false anyType (partwise x fun _ _ a b => min a b))
def execVmax (c : CoreId) (x : VArith) (s : State) : Res :=
  s.gelvipa c 4 true (elementwise c x 0x04 false anyType (partwise x fun _ _ a b => max a b))
def execVabs (c : CoreId) (x : VArith) (s : State) : Res :=
  s.gelvipa c 4 true (unaryWise c x 0x05 (x.k != 0 || x.vs2 != 0) anyType
    (partwise x fun _ _ a _ => if a < 0 then -a else a))
def execVand (c : CoreId) (x : VArith) (s : State) : Res :=
  s.gelvipa c 4 true (elementwise c x 0x06 false anyType (bitwise fun a b => a &&& b))
def execVor (c : CoreId) (x : VArith) (s : State) : Res :=
  s.gelvipa c 4 true (elementwise c x 0x07 false anyType (bitwise fun a b => a ||| b))
def execVxor (c : CoreId) (x : VArith) (s : State) : Res :=
  s.gelvipa c 4 true (elementwise c x 0x08 false anyType (bitwise fun a b => a ^^^ b))
def execVshl (c : CoreId) (x : VArith) (s : State) : Res :=
  s.gelvipa c 4 true (elementwise c x 0x09 false anyType (partwise x fun _ w a b => a * 2 ^ shiftCount w b))
def execVshr (c : CoreId) (x : VArith) (s : State) : Res :=
  s.gelvipa c 4 true (elementwise c x 0x0A false anyType
    (partwise x fun _ w a b => toSigned w (ofSigned w a / 2 ^ shiftCount w b)))
def execVsra (c : CoreId) (x : VArith) (s : State) : Res :=
  s.gelvipa c 4 true (elementwise c x 0x0B false anyType (partwise x fun _ w a b => a / 2 ^ shiftCount w b))
def execVsrar (c : CoreId) (x : VArith) (s : State) : Res :=
  s.gelvipa c 4 true (elementwise c x 0x0C false anyType (partwise x fun rm w a b => roundShift rm a (shiftCount w b)))

/-- VMERGE (Table 05-9): every element takes op2 or vs1 by its mask bit; a poisoned broadcast poisons every granule of the
result (R133). -/
def execVmerge (c : CoreId) (x : VArith) (s : State) : Res :=
  s.gelvipa c 4 true fun s =>
    vectorOp c (vaWord x 0x0D) (!x.men) (fun t => [(Vx.group, misaligned (sameGroups x t)), calign s c x t])
      (fun t s => withOp2 c x t s fun b s =>
        let k := coreKey c
        let co := s.core k
        (.next, s.vwrite k x.vd t.w t.indices false false (fun _ => true) fun i =>
          let cast := x.k != 0 && (b i).2
          if (co.mreg x.m).getLsbD i then ((b i).1, (b i).2, false)
          else (co.velem x.vs1 t.w i, co.vpois x.vs1 t.w i || cast, false))) s

/-- VCLR (R131): r registers from vd become zero and clean, whatever vl and the mask; with VSTART = k > 0 from element k on
(R116). -/
def execVclr (c : CoreId) (x : VArith) (s : State) : Res :=
  s.gelvipa c 4 true fun s =>
    let r := x.vs2.val
    let ok := r == 1 || r == 2 || r == 4 || r == 8
    vectorOp c (vaWord x 0x0E) (x.k != 0 || badMask x.men x.m)
      (fun _ => [(Vx.group, ok && x.vd.val % r != 0), (Vx.param, !ok)])
      (fun t s => (.next, if !ok then s
        else if t.start ≠ 0 then s.modCore (coreKey c) fun co =>
          co.putElems x.vd t.w (((List.range (1024 * r / t.w)).drop t.start).map fun i => ⟨i, 0, false⟩)
        else s.modCore (coreKey c) fun co =>
          (List.range r).foldl (fun co j =>
            { co with v := SMap.set noVreg co.v (x.vd + j) 0, vPoison := SMap.set noGran co.vPoison (x.vd + j) 0 }) co)) s

def execVconj (c : CoreId) (x : VArith) (s : State) : Res :=
  s.gelvipa c 4 true (unaryWise c x 0x0F false onlyCplx fun _ _ _ a _ =>
    liftParts true x.sat 16 16 16 (fun pa _ p => if p = 0 then pa 0 else -(pa 1)) a 0)
def execVnorm (c : CoreId) (x : VArith) (s : State) : Res :=
  s.gelvipa c 4 true (unaryWise c x 0x1D false anyType
    (partwise x fun _ w a _ => toSigned w (ofSigned w a * 2 ^ expW w (ofSigned w a))))
def execVexp (c : CoreId) (x : VArith) (s : State) : Res :=
  s.gelvipa c 4 true (unaryWise c x 0x1E false anyType (partwise x fun _ w a _ => (expW w (ofSigned w a) : Int)))
def execVmul (c : CoreId) (x : VArith) (s : State) : Res :=
  s.gelvipa c 4 true (elementwise c x 0x10 false anyType fun _ t _ a b =>
    liftParts t.cplx false t.pw t.pw t.pw (fun pa pb p => pa p * pb p) a b)
def execVmulq (c : CoreId) (x : VArith) (s : State) : Res :=
  s.gelvipa c 4 true (elementwise c x 0x11 false anyType (partwise x fun rm w a b => roundShift rm (a * b) (w - 1)))

/-- One part of a complex product, of a or of its conjugate. -/
def cmulPart (conj : Bool) (pa pb : Nat → Int) (p : Nat) : Int :=
  let ai := if conj then -(pa 1) else pa 1
  if p = 0 then pa 0 * pb 0 - ai * pb 1 else pa 0 * pb 1 + ai * pb 0

/-- A complex fractional product (R122). -/
def cmulq (x : VArith) (conj : Bool) (co : Core) (_ : VT) (_ a b : Nat) : Nat × Bool :=
  liftParts true x.sat 16 16 16 (fun pa pb p => roundShift co.rm.toNat (cmulPart conj pa pb p) 15) a b

def execVcmulq (c : CoreId) (x : VArith) (s : State) : Res :=
  s.gelvipa c 4 true (elementwise c x 0x14 false onlyCplx (cmulq x false))
def execVcmulcq (c : CoreId) (x : VArith) (s : State) : Res :=
  s.gelvipa c 4 true (elementwise c x 0x15 false onlyCplx (cmulq x true))

/-! ### Widening and narrowing (R112, R125, R132) -/

/-- An accumulation of a product into the double-width group vd: `f` gives a part of the product. -/
def accumulate (c : CoreId) (x : VArith) (op : Nat) (badType : VT → Bool) (f : (Nat → Int) → (Nat → Int) → Nat → Int)
    (s : State) : Next × State :=
  let srcs := fun (t : VT) => (x.vs1.val, t.g) :: op2Regs x t.g
  vectorOp c (vaWord x op) (badMask x.men x.m)
    (fun t => [(Vx.group, t.g == 8 || misaligned ((x.vd.val, 2 * t.g) :: srcs t)), (Vx.type, badType t),
      (Vx.overlap, vOverlaps x.vd (2 * t.g) (srcs t)), calign s c x t])
    (fun t s => withOp2 c x t s fun b s =>
      let k := coreKey c
      let co := s.core k
      (.next, s.vwrite k x.vd (2 * t.w) t.indices x.mz x.sat (co.active x.men x.m) fun i =>
        let d := co.velem x.vd (2 * t.w) i
        let r := liftParts t.cplx x.sat t.pw t.pw (2 * t.pw)
          (fun pa pb p => toSigned (2 * t.pw) (d / 2 ^ (2 * t.pw * p)) + f pa pb p) (co.velem x.vs1 t.w i) (b i).1
        (r.1, co.vpois x.vs1 t.w i || (b i).2 || co.vpois x.vd (2 * t.w) i, r.2))) s

def execVmacw (c : CoreId) (x : VArith) (s : State) : Res :=
  s.gelvipa c 4 true (accumulate c x 0x12 notInt32 fun pa pb p => pa p * pb p)
def execVmscw (c : CoreId) (x : VArith) (s : State) : Res :=
  s.gelvipa c 4 true (accumulate c x 0x13 notInt32 fun pa pb p => -(pa p * pb p))
def execVcmacw (c : CoreId) (x : VArith) (s : State) : Res :=
  s.gelvipa c 4 true (accumulate c x 0x16 onlyCplx (cmulPart false))
def execVcmaccw (c : CoreId) (x : VArith) (s : State) : Res :=
  s.gelvipa c 4 true (accumulate c x 0x17 onlyCplx (cmulPart true))

/-- VNRW (R125): double-width elements of vs1, divided by 2^s, rounded and narrowed. -/
def execVnrw (c : CoreId) (x : VArith) (s : State) : Res :=
  s.gelvipa c 4 true (vectorOp c (vaWord x 0x18) (x.k != 0 || badMask x.men x.m)
    (fun t => [(Vx.group, t.g == 8 || misaligned [(x.vd.val, t.g), (x.vs1.val, 2 * t.g)]), (Vx.type, t.int32),
      (Vx.overlap, vOverlaps x.vd t.g [(x.vs1.val, 2 * t.g)]), (Vx.param, decide (2 * t.pw ≤ x.vs2.val))])
    (fun t s =>
      let k := coreKey c
      let co := s.core k
      (.next, s.vwrite k x.vd t.w t.indices x.mz x.sat (co.active x.men x.m) fun i =>
        let r := liftParts t.cplx x.sat (2 * t.pw) 1 t.pw (fun pa _ p => roundShift co.rm.toNat (pa p) x.vs2)
          (co.velem x.vs1 (2 * t.w) i) 0
        (r.1, co.vpois x.vs1 (2 * t.w) i, r.2))))

/-- VWCVT (R125): elements sign-extended to double width. -/
def execVwcvt (c : CoreId) (x : VArith) (s : State) : Res :=
  s.gelvipa c 4 true (vectorOp c (vaWord x 0x19) (badMask x.men x.m)
    (fun t => [(Vx.group, t.g == 8 || misaligned [(x.vd.val, 2 * t.g), (x.vs1.val, t.g)]), (Vx.type, t.int32),
      (Vx.overlap, vOverlaps x.vd (2 * t.g) [(x.vs1.val, t.g)])])
    (fun t s =>
      let k := coreKey c
      let co := s.core k
      (.next, s.vwrite k x.vd (2 * t.w) t.indices x.mz false (co.active x.men x.m) fun i =>
        let r := liftParts t.cplx false t.pw 1 (2 * t.pw) (fun pa _ p => pa p) (co.velem x.vs1 t.w i) 0
        (r.1, co.vpois x.vs1 t.w i, false))))

/-! ### Compares and mask operations (R115, R133) -/

/-- A signed compare of vs1 and op2 into the mask register Mvd. -/
def compare (c : CoreId) (x : VArith) (op : Nat) (f : Int → Int → Bool) (s : State) : Next × State :=
  vectorOp c (vaWord x op) (decide (8 ≤ x.vd.val) || badMask x.men x.m)
    (fun t => [(Vx.group, misaligned ((x.vs1.val, t.g) :: op2Regs x t.g)), (Vx.type, t.cplx), calign s c x t])
    (fun t s => withOp2 c x t s fun b s =>
      let k := coreKey c
      let co := s.core k
      let act := co.active x.men x.m
      if t.indices.any fun i => act i && (co.vpois x.vs1 t.w i || (b i).2) then poisonExc s
      else
        let new := t.indices.foldl (fun (v : Nat) i =>
          let bit := if act i then f (toSigned t.w (co.velem x.vs1 t.w i)) (toSigned t.w (b i).1)
            else !x.mz && (co.mreg x.vd).getLsbD i
          v - (if v.testBit i then 2 ^ i else 0) + (if bit then 2 ^ i else 0)) (co.mreg x.vd).toNat
        (.next, s.modCore k fun co => co.setM x.vd (BitVec.ofNat 1024 new))) s

def execVcmpeq (c : CoreId) (x : VArith) (s : State) : Res :=
  s.gelvipa c 4 true (compare c x 0x1A fun a b => a == b)
def execVcmplt (c : CoreId) (x : VArith) (s : State) : Res :=
  s.gelvipa c 4 true (compare c x 0x1B fun a b => decide (a < b))
def execVcmple (c : CoreId) (x : VArith) (s : State) : Res :=
  s.gelvipa c 4 true (compare c x 0x1C fun a b => decide (a ≤ b))

/-- A vector instruction without element checks; VSTART clears. -/
def plainVector (c : CoreId) (f : Nat → Core → Core) (s : State) : Next × State :=
  let k := coreKey c
  (.next, s.modCore k fun co => { (f k co).supersede [0x101] with vstart := 0 })

/-- The bits that a restarted mask operation processes: elements VSTART to vl − 1 (R116). -/
def Core.restBits (co : Core) : VReg :=
  BitVec.ofNat 1024 (2 ^ co.vl.toNat - 1) &&& ~~~ BitVec.ofNat 1024 (2 ^ co.vstart.toNat - 1)

/-- Mask register md takes v: all 1,024 bits (R115), or, with VSTART > 0, those that are processed. -/
def Core.maskTake (co : Core) (md : Nat) (v : VReg) : Core :=
  if co.vstart = 0 then co.setM md v else co.setM md ((co.mreg md &&& ~~~ co.restBits) ||| (v &&& co.restBits))

def execMand (c : CoreId) (md ms1 ms2 : Fin 8) (s : State) : Res :=
  s.gelvipa c 4 true (plainVector c fun _ co => co.maskTake md (co.mreg ms1 &&& co.mreg ms2))
def execMor (c : CoreId) (md ms1 ms2 : Fin 8) (s : State) : Res :=
  s.gelvipa c 4 true (plainVector c fun _ co => co.maskTake md (co.mreg ms1 ||| co.mreg ms2))
def execMxor (c : CoreId) (md ms1 ms2 : Fin 8) (s : State) : Res :=
  s.gelvipa c 4 true (plainVector c fun _ co => co.maskTake md (co.mreg ms1 ^^^ co.mreg ms2))
def execMandn (c : CoreId) (md ms1 ms2 : Fin 8) (s : State) : Res :=
  s.gelvipa c 4 true (plainVector c fun _ co => co.maskTake md (co.mreg ms1 &&& ~~~ co.mreg ms2))
def execMnot (c : CoreId) (md ms1 : Fin 8) (s : State) : Res :=
  s.gelvipa c 4 true (plainVector c fun _ co => co.maskTake md (~~~ co.mreg ms1))
def execMsetvl (c : CoreId) (md : Fin 8) (s : State) : Res :=
  s.gelvipa c 4 true (plainVector c fun _ co => co.maskTake md (BitVec.ofNat 1024 (2 ^ co.vl.toNat - 1)))

/-- The set bits of a mask register from VSTART on and below vl. -/
def Core.setBits (co : Core) (m : Nat) : List Nat :=
  ((List.range co.vl.toNat).drop co.vstart.toNat).filter fun i => (co.mreg m).getLsbD i

/-- A restart at or beyond vl writes nothing (R116). -/
def Core.restarts (co : Core) : Bool := co.vstart == 0 || decide (co.vstart.toNat < co.vl.toNat)

/-- Grd takes a count or an index of mask bits, unless the restart has nothing left to process. -/
def Core.bitsTo (co : Core) (rd v : Nat) : Core := if co.restarts then co.setG rd (BitVec.ofNat 32 v) false else co

def execMpopc (c : CoreId) (rd : Fin 32) (ms1 : Fin 8) (s : State) : Res :=
  s.gelvipa c 4 true (plainVector c fun _ co => co.bitsTo rd (co.setBits ms1).length)
def execMfirst (c : CoreId) (rd : Fin 32) (ms1 : Fin 8) (s : State) : Res :=
  s.gelvipa c 4 true (plainVector c fun _ co => co.bitsTo rd ((co.setBits ms1).headD 0xFFFFFFFF))

/-! ### Configuration (R110) -/

/-- VL and VTYPE are set for a requested length, and rd takes VL. -/
def setVl (rd : Fin 32) (avl : Nat) (grp ew : Fin 4) (co : Core) : Core :=
  let vl := min avl (1024 * 2 ^ grp.val / ewBits ew)
  let co := { co with vl := BitVec.ofNat 11 vl, vtype := BitVec.ofNat 4 (grp.val * 4 + ew.val) }
  co.setG rd (BitVec.ofNat 32 vl) false

def execVsetl (c : CoreId) (rd ra : Fin 32) (grp ew : Fin 4) (s : State) : Res :=
  s.gelvipa c 4 true fun s =>
    let k := coreKey c
    if s.gp k ra then poisonExc s else plainVector c (fun _ co => setVl rd (co.gv ra).toNat grp ew co) s

def execVsetli (c : CoreId) (rd : Fin 32) (avl : BitVec 24) (grp ew : Fin 4) (s : State) : Res :=
  s.gelvipa c 8 true (plainVector c fun _ co => setVl rd avl.toNat grp ew co)

/-- VBCST (Table 05-8): every active element takes the low w bits of an immediate. -/
def execVbcst (c : CoreId) (vd : Fin 32) (imm : Word) (s : State) : Res :=
  s.gelvipa c 8 true (vectorOp c (7 * 2 ^ 29 + 0x11 * 2 ^ 24 + vd.val * 2 ^ 19) false
    (fun t => [(Vx.group, misaligned [(vd.val, t.g)])])
    (fun t s => (.next, s.vwrite (coreKey c) vd t.w t.indices false false (fun _ => true)
      fun _ => (imm.toNat % 2 ^ t.w, false, false))))

/-! ### Block floating point (R126 to R130) -/

/-- The parts of an element, as patterns of pw bits. -/
def VT.parts (t : VT) (v : Nat) : List Nat :=
  if t.cplx then [v % 65536, v / 65536 % 65536] else [v % 2 ^ t.w]

/-- The block exponent of a list of elements for m (R127). -/
def VT.blockExp (t : VT) (m : Nat) (l : List Nat) : Nat :=
  let h := (l.flatMap t.parts).foldl (fun h v => min h (expW t.pw v)) (t.pw - 1)
  if m = 0 then h else t.pw - m - h

/-- The first word of VBEXP or VBEXPS (Table 05-8). -/
def veWord (x : VExpo) (op : Nat) : Nat :=
  let m := x.m6.toNat
  5 * 2 ^ 29 + op * 2 ^ 23 + x.vd * 2 ^ 18 + x.vs1 * 2 ^ 13 + m % 32 * 2 ^ 8 + m / 32 * 2 ^ 6
    + (if x.sat then 32 else 0) + (if x.mz then 16 else 0) + (if x.men then 8 else 0) + x.m

def execVbexp (c : CoreId) (x : VExpo) (s : State) : Res :=
  s.gelvipa c 4 true (vectorOp c (veWord x 0x1F) (badMask x.men x.m)
    (fun t => [(Vx.group, misaligned [(x.vs1.val, t.g)]), (Vx.start, t.start != 0), (Vx.param, decide (t.pw < x.m6.toNat))])
    (fun t s =>
      let k := coreKey c
      let co := s.core k
      let idx := (List.range t.vl).filter (co.active x.men x.m)
      let e := t.blockExp x.m6.toNat (idx.map fun i => co.velem x.vs1 t.w i)
      (.next, s.setG k x.vd (BitVec.ofNat 32 e) (idx.any fun i => co.vpois x.vs1 t.w i))))

/-- VSEG is no whole number of segments of vl (R130). -/
def segBad (co : Core) (t : VT) : Bool :=
  let g := co.vseg.toNat
  g == 0 || decide (t.vlmax < g) || t.vl % g != 0

/-- The elements of segment j. -/
def segOf (g j : Nat) : List Nat := (List.range g).map fun i => j * g + i

def execVbexps (c : CoreId) (x : VExpo) (s : State) : Res :=
  let co := s.core (coreKey c)
  s.gelvipa c 4 true (vectorOp c (veWord x 0x20) (x.men || x.m != 0)
    (fun t => [(Vx.group, misaligned [(x.vd.val, t.g), (x.vs1.val, t.g)]),
      (Vx.overlap, vOverlaps x.vd t.g [(x.vs1.val, t.g)]), (Vx.seg, segBad co t), (Vx.start, t.start != 0),
      (Vx.param, decide (t.pw < x.m6.toNat))])
    (fun t s =>
      let k := coreKey c
      let co := s.core k
      let g := co.vseg.toNat
      (.next, s.vwrite k x.vd t.w (List.range (t.vl / g)) false false (fun _ => true) fun j =>
        (t.blockExp x.m6.toNat ((segOf g j).map fun i => co.velem x.vs1 t.w i),
          (segOf g j).any fun i => co.vpois x.vs1 t.w i, false))))

/-- VSHRS (R128): the exponent of a segment is an element of op2, of any kind of Table 05-3 (R118). -/
def execVshrs (c : CoreId) (x : VArith) (s : State) : Res :=
  let co := s.core (coreKey c)
  s.gelvipa c 4 true (vectorOp c (vaWord x 0x21) (x.men || x.m != 0)
    (fun t => [(Vx.group, misaligned (sameGroups x t)), (Vx.seg, segBad co t), (Vx.start, t.start != 0), calign s c x t])
    (fun t s => withOp2 c x t s fun b s =>
      let k := coreKey c
      let co := s.core k
      (.next, s.vwrite k x.vd t.w (List.range t.vl) false x.sat (fun _ => true) fun i =>
        let j := i / co.vseg.toNat
        let e := (max 0 (min (((t.pw - 1 : Nat)) : Int) (toSigned t.w (b j).1))).toNat
        let r := liftParts t.cplx x.sat t.pw 1 t.pw (fun pa _ p => roundShift co.rm.toNat (pa p) e) (co.velem x.vs1 t.w i) 0
        (r.1, co.vpois x.vs1 t.w i || (b j).2, r.2))))

/-- The first word of VPACK or VUNPACK (Table 05-8). -/
def vpWord (x : VPackOp) (op : Nat) : Nat :=
  5 * 2 ^ 29 + op * 2 ^ 23 + x.vd * 2 ^ 18 + x.vs1 * 2 ^ 13 + x.vs2 * 2 ^ 8 + x.m1 / 16 * 2 ^ 6
    + (if x.sat then 32 else 0) + (if x.h then 16 else 0) + x.m1 % 16

/-- The bytes of a segment of g elements: a header byte if H = 1, then the fields, padded to a whole byte (R129). -/
def segBytes (t : VT) (h : Bool) (m g : Nat) : Nat := (if h then 1 else 0) + ceilDiv (g * m * (if t.cplx then 2 else 1)) 8

/-- The stream's length in bytes. -/
def streamLen (t : VT) (co : Core) (h : Bool) (m : Nat) : Nat :=
  if co.vseg = 0 then 0 else t.vl / co.vseg.toNat * segBytes t h m co.vseg.toNat

/-- The checks that VPACK and VUNPACK share; `srcs` are the groups each reads. -/
def packChecks (co : Core) (x : VPackOp) (srcs : List Nat) (t : VT) : List (Nat × Bool) :=
  [(Vx.group, misaligned ((x.vd.val, t.g) :: srcs.map fun r => (r, t.g))),
   (Vx.overlap, vOverlaps x.vd t.g (srcs.map fun r => (r, t.g))), (Vx.seg, segBad co t),
   (Vx.start, t.start != 0), (Vx.length, decide (128 * t.g < streamLen t co x.h (x.m1.val + 1))),
   (Vx.param, decide (t.pw < x.m1.val + 1))]

/-- A field of m bits, most significant first, each with the poison of its element. -/
def fieldBits (m v : Nat) (p : Bool) : List (Bool × Bool) := (List.range m).map fun b => (v.testBit (m - 1 - b), p)

/-- The parts of element i narrowed to m bits, as bits, and whether one was clipped. -/
def packElem (co : Core) (t : VT) (x : VPackOp) (i : Nat) : List (Bool × Bool) × Bool :=
  let m := x.m1.val + 1
  let p := co.vpois x.vs1 t.w i
  let r := (t.parts (co.velem x.vs1 t.w i)).map fun v => narrow x.sat m (toSigned t.pw v)
  ((r.map fun e => fieldBits m e.1 p).flatten, r.any (·.2))

/-- Segment j of the stream. -/
def packSeg (co : Core) (t : VT) (x : VPackOp) (j : Nat) : List (Bool × Bool) × Bool :=
  let g := co.vseg.toNat
  let head := if x.h then fieldBits 8 (co.velem x.vs2 t.w j % 256) (co.vpois x.vs2 t.w j) else []
  let body := (segOf g j).map fun i => packElem co t x i
  let bits := head ++ (body.map (·.1)).flatten
  (bits ++ List.replicate (8 * segBytes t x.h (x.m1.val + 1) g - bits.length) (false, false), body.any (·.2))

/-- Byte n of a bit stream that starts at bit 7 of byte 0. -/
def streamByte (l : List (Bool × Bool)) (n : Nat) : VElem :=
  let b := (l.drop (8 * n)).take 8
  ⟨n, (List.range 8).foldl (fun v i => v + (if (b.getD i (false, false)).1 then 2 ^ (7 - i) else 0)) 0, b.any (·.2)⟩

def execVpack (c : CoreId) (x : VPackOp) (s : State) : Res :=
  let co := s.core (coreKey c)
  s.gelvipa c 4 true (vectorOp c (vpWord x 0x22) false (packChecks co x [x.vs1.val, x.vs2.val])
    (fun t s =>
      let k := coreKey c
      let co := s.core k
      let segs := if t.vl = 0 then [] else (List.range (t.vl / co.vseg.toNat)).map (packSeg co t x)
      let bits := (segs.map (·.1)).flatten
      let bytes := if t.vl = 0 then [] else (List.range (128 * t.g)).map (streamByte bits)
      (.next, s.modCore k fun co =>
        (co.putElems x.vd 8 bytes).setVsat (x.sat && segs.any (·.2)))))

/-- Bits [a, a + n) of a byte stream in group vs1, first bit highest. -/
def streamField (co : Core) (r a n : Nat) : Nat :=
  (List.range n).foldl (fun v i => 2 * v + ((co.velem r 8 ((a + i) / 8)).testBit (7 - (a + i) % 8)).toNat) 0

/-- Some byte of the stream that holds bits [a, a + n) is poisoned. -/
def streamPois (co : Core) (r a n : Nat) : Bool := (List.range n).any fun i => co.vpois r 8 ((a + i) / 8)

/-- Element i of an unpacked stream. -/
def unpackElem (co : Core) (t : VT) (x : VPackOp) (i : Nat) : Nat × Bool × Bool :=
  let g := co.vseg.toNat
  let m := x.m1.val + 1
  let np := if t.cplx then 2 else 1
  let seg := 8 * segBytes t x.h m g * (i / g)
  let sh := if x.h then co.velem x.vs1 8 (seg / 8) % 16 else 0
  let at' := seg + (if x.h then 8 else 0) + i % g * m * np
  let part := fun p => narrow true t.pw (toSigned m (streamField co x.vs1 (at' + p * m) m) * 2 ^ sh)
  let v := (part 0).1 + (if t.cplx then (part 1).1 * 65536 else 0)
  (v, streamPois co x.vs1 at' (m * np) || (x.h && co.vpois x.vs1 8 (seg / 8)), (part 0).2 || (t.cplx && (part 1).2))

def execVunpack (c : CoreId) (x : VPackOp) (s : State) : Res :=
  let co := s.core (coreKey c)
  s.gelvipa c 4 true (vectorOp c (vpWord x 0x23) false (packChecks co x [x.vs1.val])
    (fun t s =>
      let k := coreKey c
      let co := s.core k
      (.next, s.vwrite k x.vd t.w (List.range t.vl) false x.sat (fun _ => true) (unpackElem co t x))))

/-! ### Permutes (R121) -/

/-- A permute: element i takes what `f` gives, or stays; `poison` tells that an operand it consumes is poisoned. -/
def permute (c : CoreId) (x : VArith) (op : Nat) (illegal poison : Bool) (srcs : VT → List (Nat × Nat)) (param : VT → Bool)
    (f : Core → VT → Nat → Option (Nat × Bool)) (s : State) : Next × State :=
  vectorOp c (vaWord x op) (illegal || badMask x.men x.m)
    (fun t => [(Vx.group, misaligned ((x.vd.val, t.g) :: srcs t)), (Vx.overlap, vOverlaps x.vd t.g (srcs t)),
      (Vx.start, t.start != 0), (Vx.param, param t)])
    (fun t s =>
      let k := coreKey c
      let co := s.core k
      let idx := (List.range t.vl).filter fun i => !co.active x.men x.m i || (f co t i).isSome
      if poison && t.vl != 0 then poisonExc s
      else (.next, s.vwrite k x.vd t.w idx x.mz false (co.active x.men x.m) fun i =>
        let r := (f co t i).getD (0, false)
        (r.1, r.2, false))) s

/-- Element i of the group at r with its poison. -/
def Core.elemOf (co : Core) (t : VT) (r i : Nat) : Nat × Bool := (co.velem r t.w i, co.vpois r t.w i)

/-- A slide by the amount in Gvs2, which must not be poisoned. -/
def slide (c : CoreId) (x : VArith) (op : Nat) (f : Core → VT → Nat → Nat → Option (Nat × Bool)) (s : State) : Next × State :=
  let k := coreKey c
  permute c x op (x.k != 1) (s.gp k x.vs2) (fun t => [(x.vs1.val, t.g)]) (fun _ => false)
    (fun co t i => f co t (s.gv k x.vs2).toNat i) s

def execVslideup (c : CoreId) (x : VArith) (s : State) : Res :=
  s.gelvipa c 4 true (slide c x 0x24 fun co t n i =>
    if n ≤ i then some (co.elemOf t x.vs1 (i - n)) else none)
def execVslidedn (c : CoreId) (x : VArith) (s : State) : Res :=
  s.gelvipa c 4 true (slide c x 0x25 fun co t n i =>
    some (if i + n < t.vlmax then co.elemOf t x.vs1 (i + n) else (0, false)))
def execVzip (c : CoreId) (x : VArith) (s : State) : Res :=
  s.gelvipa c 4 true (permute c x 0x26 (x.k != 0) false (fun t => [(x.vs1.val, t.g), (x.vs2.val, t.g)])
    (fun t => t.vl % 2 != 0) fun co t i => some (co.elemOf t (if i % 2 = 0 then x.vs1 else x.vs2) (i / 2)))
def execVunzip (c : CoreId) (x : VArith) (s : State) : Res :=
  s.gelvipa c 4 true (permute c x 0x27 (x.k != 0) false (fun t => [(x.vs1.val, 2 * t.g)])
    (fun _ => decide (2 ≤ x.vs2.val)) fun co t i => some (co.elemOf t x.vs1 (2 * i + x.vs2)))
def execVrev (c : CoreId) (x : VArith) (s : State) : Res :=
  s.gelvipa c 4 true (permute c x 0x28 false false (fun t => [(x.vs1.val, t.g)])
    (fun _ => false) fun co t i => some (co.elemOf t x.vs1 (t.vl - 1 - i)))

/-! ### Reductions and moves (R131) -/

/-- A reduction of the active elements of vs1 into Gvd: value and whether it was clipped. -/
def reduce (c : CoreId) (x : VArith) (op : Nat) (f : List Int → Nat × Bool) (s : State) : Next × State :=
  vectorOp c (vaWord x op) (badMask x.men x.m)
    (fun t => [(Vx.group, misaligned [(x.vs1.val, t.g)]), (Vx.type, t.cplx), (Vx.start, t.start != 0)])
    (fun t s =>
      let k := coreKey c
      let co := s.core k
      let idx := (List.range t.vl).filter (co.active x.men x.m)
      let r := f (idx.map fun i => toSigned t.w (co.velem x.vs1 t.w i))
      let s := s.setG k x.vd (BitVec.ofNat 32 r.1) (idx.any fun i => co.vpois x.vs1 t.w i)
      (.next, s.modCore k fun co => co.setVsat (x.sat && r.2))) s

def execVredsum (c : CoreId) (x : VArith) (s : State) : Res :=
  s.gelvipa c 4 true (reduce c x 0x29 fun l => narrow x.sat 32 l.sum)
def execVredmax (c : CoreId) (x : VArith) (s : State) : Res :=
  s.gelvipa c 4 true (reduce c x 0x2A fun l => (ofSigned 32 (l.foldl max (-2147483648)), false))

/-- VMVXV (R131); a restart at or beyond vl writes nothing (R116). -/
def execVmvxv (c : CoreId) (x : VArith) (s : State) : Res :=
  s.gelvipa c 4 true (vectorOp c (vaWord x 0x2B) (badMask x.men x.m)
    (fun t => [(Vx.group, misaligned [(x.vs1.val, t.g)])])
    (fun t s =>
      let k := coreKey c
      let co := s.core k
      let i := (co.gv x.vs2).toNat
      let v := if i < t.vlmax then ofSigned 32 (toSigned t.w (co.velem x.vs1 t.w i)) else 0
      (.next, if co.restarts then
          s.setG k x.vd (BitVec.ofNat 32 v) (co.gp x.vs2 || (decide (i < t.vlmax) && co.vpois x.vs1 t.w i))
        else s)))

/-- VMVVX (R131): the element that Gvs2 names is written where R114 and R116 let an instruction write it, from VSTART to
vl − 1 and under the mask. R131 stops only at VLMAX; that an index from vl on writes nothing either is what R114 says of
the tail (DESIGN CHOICE, log 52). -/
def execVmvvx (c : CoreId) (x : VArith) (s : State) : Res :=
  s.gelvipa c 4 true (vectorOp c (vaWord x 0x2C) (badMask x.men x.m)
    (fun t => [(Vx.group, misaligned [(x.vd.val, t.g)])])
    (fun t s =>
      let k := coreKey c
      let co := s.core k
      let i := (co.gv x.vs2).toNat
      if t.vl = 0 then (.next, s)
      else if co.gp x.vs2 then poisonExc s
      else
        (.next, s.vwrite k x.vd t.w (t.indices.filter fun n => n == i) x.mz false (co.active x.men x.m)
          fun _ => ((co.gv x.vs1).toNat % 2 ^ t.w, co.gp x.vs1, false))))

end Sys2Proof.Machine
end

