-- ==== Sys2Proof/Machine/VecMem.lean ====
section
/-! DEFINITION. Vector loads and stores (R80, R82, R117, R119, R120, R133, Tables 05-2 and 05-10). -/

namespace Sys2Proof.Machine

/-! ### Address generators (R82, Table 04-4) -/

/-- The buffer length is 2^b bytes, b = 1 to 24. -/
def bitrevBits (len : Nat) : Option Nat := ((List.range 25).drop 1).find? fun b => len == 2 ^ b

/-- A generator's setting is one that Table 04-4 allows. -/
def AddrGen.valid (g : AddrGen) : Bool :=
  let len := g.len.toNat
  match g.mode.toNat % 4 with
  | 0 => true
  | 1 => decide (1 ≤ len) && decide (len ≤ 16777215) && decide (g.step.toInt.natAbs < len) && decide (g.index.toNat < len)
  | 2 => (bitrevBits len).isSome && decide (g.step.toNat < len)
  | _ => false

/-- The address of byte j of an access: in MODULO and BITREV modes bytes past the end continue from the base. Table 04-4 does
not bound AGIk in BITREV mode: with AGIk at or above AGLk every offset is taken modulo AGLk (DESIGN CHOICE, log 60). -/
def AddrGen.byteAt (g : AddrGen) (j : Nat) : Nat :=
  let o := g.index.toNat + j
  let o := if g.mode.toNat % 4 = 0 then o else if g.len.toNat ≤ o then o % g.len.toNat else o
  (g.base.toNat + o) % 2 ^ 32

/-- The index after an access. -/
def AddrGen.next (g : AddrGen) : AddrGen :=
  let len := g.len.toNat
  match g.mode.toNat % 4 with
  | 0 => { g with index := g.index + g.step }
  | 1 => { g with index := BitVec.ofInt 32 ((g.index.toNat + g.step.toInt) % len) }
  | _ =>
    let b := (bitrevBits len).getD 0
    let low := bitrevAdd b (g.index.toNat % 2 ^ b) (g.step.toNat % 2 ^ b)
    { g with index := BitVec.ofNat 32 (g.index.toNat - g.index.toNat % 2 ^ b + low) }

/-! ### Elements on the buses -/

/-- An element under way: its index, the addresses of its bytes, and for a store its bytes. -/
structure MElem where
  i : Nat
  addrs : List Nat
  bytes : List Byte
  deriving DecidableEq, Repr

/-- The byte lies in a bank that accepts the core, within the bus's reach; `pad` limits it to the own scratchpad (R80). -/
def State.byteOk (s : State) (c : CoreId) (pad : Bool) (a : Nat) : Bool :=
  (!pad || isLocal c a 1) && (bankOf a).any fun key => !s.bankFenced key && s.accepts key [coreIdent c]

/-- The answer to the first faulting byte is counted where it left the core. -/
def State.refuseByte (s : State) (c : CoreId) (pad write : Bool) (a : Nat) : State :=
  if pad && !isLocal c a 1 then s else (s.admitRange [coreIdent c] write a 1).2

/-- The elements below the lowest that faults, and that one with its first faulting byte (R119). -/
def splitFault (ok : Nat → Bool) : List MElem → List MElem × Option (Nat × Nat)
  | [] => ([], none)
  | e :: l =>
    match e.addrs.find? fun a => !ok a with
    | some a => ([], some (e.i, a))
    | none => let (g, b) := splitFault ok l; (e :: g, b)

/-- Every bank of the elements admits the core: a pending handover to it completes (R211). -/
def State.admitAll (s : State) (c : CoreId) (write : Bool) (banks : List (Option Nat)) : State :=
  banks.foldl (fun s b => match b with
    | some key => (s.letIn key [coreIdent c] write).2
    | none => s) s

def elemBanks (l : List MElem) : List (Option Nat) := ((l.flatMap (·.addrs)).map bankOf).eraseDups
def elemWords (l : List MElem) : List Nat := ((l.flatMap (·.addrs)).map (· / 8)).eraseDups

def noBytes : Nat → List (Byte × Bool) := fun _ => []

/-- Load elements from banks: each with its bytes and whether one is poisoned. -/
def State.loadElems (s : State) (c : CoreId) (l : List MElem) : List (MElem × Bool) × State :=
  let s := s.admitAll c false (elemBanks l)
  let (m, s) := (elemWords l).foldl (fun (acc : SMap (List (Byte × Bool)) × State) w =>
    let (d, s) := acc.2.readMem (coreIdent c) (8 * w) 8
    (SMap.set noBytes acc.1 w d, s)) ([], s)
  let byte := fun a => (SMap.get noBytes m (a / 8)).getD (a % 8) (0, false)
  (l.map fun e => ({ e with bytes := e.addrs.map fun a => (byte a).1 }, e.addrs.any fun a => (byte a).2), s)

/-- Store elements into banks, one write for each word; of two bytes for one address the later stands. -/
def State.storeElems (s : State) (c : CoreId) (l : List MElem) : State :=
  let s := s.admitAll c true (elemBanks l)
  let all := l.flatMap fun e => e.addrs.zip e.bytes
  (elemWords l).foldl (fun s w =>
    let mine := all.filter fun p => p.1 / 8 == w
    let v := mine.foldl (fun v p =>
      let o := 256 ^ (p.1 % 8)
      v - v / o % 256 * o + p.2.toNat * o) 0
    let m := mine.foldl (fun m p => m ||| 2 ^ (p.1 % 8)) 0
    match bankOf (8 * w) with
    | some key => s.writeWord key w (coreIdent c) (BitVec.ofNat 64 v) (BitVec.ofNat 8 m) false
    | none => s) s

/-! ### Packets to the register space: one for each 128-byte line touched (R80, R239, R422) -/

/-- The lines that the elements touch, in order, each with its bytes. -/
def elemLines (l : List MElem) : List (List (Nat × Byte)) :=
  let all := l.flatMap fun e => e.addrs.zip (e.bytes ++ List.replicate e.addrs.length 0)
  (((all.map fun p => p.1 / 128).eraseDups).map fun n => all.filter fun p => p.1 / 128 == n)

/-- The bytes follow one another from the first. -/
def contiguous (l : List (Nat × Byte)) : Bool :=
  (l.map (·.1)) == (List.range l.length).map fun j => (l.head?.map (·.1)).getD 0 + j

/-- A write packet to the register space: 4 or 8 bytes, or the 32 of a launch-queue push (R284). -/
def State.packetWrite (s : State) (c : CoreId) (l : List (Nat × Byte)) : Bool × State :=
  let a := (l.head?.map (·.1)).getD 0
  let v := leVal (l.map (·.2))
  if !contiguous l then (false, s.errDecode)
  else if l.length = 32 ∧ (regAt a).any (fun r => r.base == Addr.fhLqPush 0) then
    s.pushEntry ((a - Addr.fhLqPush 0) / 0x100) (coreWho c) v
  else match s.regWrite (coreWho c) a l.length v with
    | (.ok _, s) => (true, s)
    | (_, s) => (false, s)

/-- A read packet: the bytes read. -/
def State.packetRead (s : State) (c : CoreId) (l : List (Nat × Byte)) : Option (List (Nat × Byte)) × State :=
  let a := (l.head?.map (·.1)).getD 0
  if !contiguous l then (none, s.errDecode)
  else match s.regRead (coreWho c) a l.length with
    | (.ok v, s) => (some ((l.map (·.1)).zip (leBytes l.length v.toNat)), s)
    | (_, s) => (none, s)

/-- The lowest element with a byte at or after `a` in its line. -/
def elemAtByte (l : List MElem) (a : Nat) : Nat :=
  ((l.find? fun e => e.addrs.contains a).map (·.i)).getD 0

/-- Packets one after another until one is refused: what they read, and where the refused one begins. -/
def State.packets (f : State → List (Nat × Byte) → Option (List (Nat × Byte)) × State) :
    List (List (Nat × Byte)) → State → List (Nat × Byte) × Option Nat × State
  | [], s => ([], none, s)
  | l :: rest, s =>
    match f s l with
    | (none, s) => ([], some ((l.head?.map (·.1)).getD 0), s)
    | (some d, s) =>
      let (m, b, s) := State.packets f rest s
      (d ++ m, b, s)

/-! ### Loads and stores -/

/-- The elements lie in the register space. -/
def inRegs (l : List MElem) : Bool := ((l.head?.map fun e => e.addrs.headD 0).map inRegSpace).getD false

/-- Load: the elements loaded with their poison, and the fault, if any: element and byte address. -/
def State.vload (s : State) (c : CoreId) (pad : Bool) (l : List MElem) (other : Option PortAccess) :
    List (MElem × Bool) × Option (Nat × Nat) × State :=
  if inRegs l && !pad then
    let (m, b, s) := State.packets (fun s p => s.packetRead c p) (elemLines l) s
    let bad := b.map fun a => (elemAtByte l a, a)
    let ok := l.filter fun e => bad.all fun x => decide (e.i < x.1)
    (ok.map fun e => ({ e with bytes := e.addrs.map fun a => ((m.find? fun p => p.1 == a).map (·.2)).getD 0 }, false), bad, s)
  else
    let (ok, bad) := splitFault (s.byteOk c pad) l
    let (r, _, s) := s.withPortOn pad false (elemBanks ok) (elemWords ok) other fun s => s.loadElems c ok
    (r, bad, match bad with
      | some x => s.refuseByte c pad false x.2
      | none => s)

/-- Store, with the fault, if any. -/
def State.vstore (s : State) (c : CoreId) (l : List MElem) (other : Option PortAccess) : Option (Nat × Nat) × State :=
  if inRegs l then
    let put := fun (s : State) p =>
      let (ok, s) := s.packetWrite c p
      (if ok then some ([] : List (Nat × Byte)) else none, s)
    let (_, b, s) := State.packets put (elemLines l) s
    (b.map fun a => (elemAtByte l a, a), s)
  else
    let (ok, bad) := splitFault (s.byteOk c false) l
    let own := ok.all fun e => e.addrs.all fun a => isLocal c a 1
    let (_, _, s) := s.withPortOn own true (elemBanks ok) (elemWords ok) other fun s => ((), s.storeElems c ok)
    (bad, match bad with
      | some x => s.refuseByte c false true x.2
      | none => s)

/-! ### The instructions -/

/-- The first word of a VM instruction (Table 05-8). -/
def vmWord (x : VMem) (op : Nat) : Nat :=
  6 * 2 ^ 29 + op * 2 ^ 25 + x.v * 2 ^ 20 + x.am * 2 ^ 18 + (if x.p then 2 ^ 17 else 0) + x.g * 2 ^ 12
    + x.off.toNat * 2 ^ 4 + (if x.men then 8 else 0) + x.m

/-- An addressing mode that Table 05-2 or a field marked 0 makes ILLEGAL. -/
def badMode (x : VMem) (store : Bool) : Bool :=
  (if store then decide (x.am.val < 2) else x.am == 2) || (x.p && x.am == 3) || (x.am != 3 && x.off != 0)

/-- The addresses of the bytes of an access. -/
def State.vmAddr (s : State) (k : Nat) (x : VMem) (j : Nat) : Nat :=
  if x.am = 3 then (s.gv k x.g + (x.off.signExtend 32 <<< 4) + BitVec.ofNat 32 j).toNat
  else ((s.core k).ag x.am).byteAt j

/-- A setting or an address register that the access cannot use: the exception it takes. -/
def State.vmBad (s : State) (k : Nat) (x : VMem) : Option Next :=
  if x.am = 3 then if s.gp k x.g then some (.exc Exc.poison none) else none
  else if ((s.core k).ag x.am).valid then none else some (.exc Exc.agcfg none)

/-- The post-update, once for the instruction. -/
def State.vmUpdate (s : State) (k : Nat) (x : VMem) : State :=
  if x.p && x.am != 3 && ((s.core k).ag x.am).valid then
    s.modCore k fun c => (c.supersede [0x021 + 8 * x.am.val]).setAg x.am (c.ag x.am).next
  else s

/-- The end of an access: complete, or faulting at an element with its byte address. -/
def State.vmEnd (s : State) (k : Nat) (x : VMem) (bad : Option (Nat × Nat)) : Next × State :=
  match bad with
  | none => (.next, s.vmUpdate k x)
  | some (i, a) =>
    (.exc Exc.access (some (BitVec.ofNat 32 a)), s.modCore k fun c => { c.supersede [0x101] with vstart := BitVec.ofNat 11 i })

/-- The active elements idx of wb bytes each. -/
def State.vmElems (s : State) (k : Nat) (x : VMem) (wb : Nat) (idx : List Nat) : List MElem :=
  idx.map fun i => ⟨i, (List.range wb).map fun b => s.vmAddr k x (i * wb + b), []⟩

/-- VLD (R117, R119). -/
def execVld (c : CoreId) (x : VMem) (other : Option PortAccess) (s : State) : Res :=
  s.gelvipa c 4 true (vectorOp c (vmWord x 0) (badMode x false || badMask x.men x.m)
    (fun t => [(Vx.group, misaligned [(x.v.val, t.g)])])
    (fun t s =>
      let k := coreKey c
      let idx := t.indices.filter ((s.core k).active x.men x.m)
      match (if t.vl = 0 then none else s.vmBad k x) with
      | some e => (e, s)
      | none =>
        let (l, bad, s) := s.vload c (x.am != 3) (s.vmElems k x (t.w / 8) idx) other
        let s := s.modCore k fun co => co.putElems x.v t.w (l.map fun e => ⟨e.1.i, leVal e.1.bytes, e.2⟩)
        s.vmEnd k x bad))

/-- A store of the elements idx of w bits of register group v: the lowest poisoned one raises POISON, with EVAL at its first
byte (R119, R133). -/
def State.vmStore (s : State) (c : CoreId) (x : VMem) (w : Nat) (idx : List Nat) (other : Option PortAccess) : Next × State :=
  let k := coreKey c
  let co := s.core k
  let good := idx.takeWhile fun i => !co.vpois x.v w i
  let l := (s.vmElems k x (w / 8) good).map fun e => { e with bytes := leBytes (w / 8) (co.velem x.v w e.i) }
  let (bad, s) := s.vstore c l other
  match bad, idx.find? fun i => co.vpois x.v w i with
  | none, some i =>
    (.exc Exc.poison (some (BitVec.ofNat 32 (s.vmAddr k x (i * (w / 8))))),
      s.modCore k fun c => { c.supersede [0x101] with vstart := BitVec.ofNat 11 i })
  | bad, _ => s.vmEnd k x bad

/-- VST (R117, R119). -/
def execVst (c : CoreId) (x : VMem) (other : Option PortAccess) (s : State) : Res :=
  s.gelvipa c 4 true (vectorOp c (vmWord x 1) (badMode x true || badMask x.men x.m)
    (fun t => [(Vx.group, misaligned [(x.v.val, t.g)])])
    (fun t s =>
      let k := coreKey c
      match (if t.vl = 0 then none else s.vmBad k x) with
      | some e => (e, s)
      | none => s.vmStore c x t.w (t.indices.filter ((s.core k).active x.men x.m)) other))

/-- VSTN (R120): the first Gn bytes of the group; none with vl = 0 (R110). R120 says "with no mask" and not what MEN = 1 or
M ≠ 0 does: both take ILLEGAL (DESIGN CHOICE, log 52). -/
def execVstn (c : CoreId) (x : VMem) (other : Option PortAccess) (s : State) : Res :=
  let n := (s.gv (coreKey c) x.g).toNat
  s.gelvipa c 4 true (vectorOp c (vmWord x 2) (x.am != 2 || x.off != 0 || x.men || x.m != 0)
    (fun t => [(Vx.group, misaligned [(x.v.val, t.g)]), (Vx.start, t.start != 0),
      (Vx.length, !s.gp (coreKey c) x.g && decide (128 * t.g < n))])
    (fun t s =>
      let k := coreKey c
      let n := if t.vl = 0 then 0 else (s.gv k x.g).toNat
      if t.vl ≠ 0 ∧ s.gp k x.g then poisonExc s
      else match (if n = 0 then none else s.vmBad k x) with
        | some e => (e, s)
        | none => s.vmStore c x 8 (List.range n) other))

/-- A mask register's 128 bytes, from byte VSTART on; none with vl = 0, so that nothing can fault (R110; DESIGN CHOICE,
log 52). -/
def maskBytes (t : VT) : List Nat := if t.vl = 0 then [] else (List.range 128).drop t.start

def badMaskReg (x : VMem) (store : Bool) : Bool := badMode x store || x.men || x.m != 0 || decide (8 ≤ x.v.val)

/-- VLDM (Table 05-10). -/
def execVldm (c : CoreId) (x : VMem) (other : Option PortAccess) (s : State) : Res :=
  s.gelvipa c 4 true (vectorOp c (vmWord x 3) (badMaskReg x false) (fun _ => [])
    (fun t s =>
      let k := coreKey c
      match (if t.vl = 0 then none else s.vmBad k x) with
      | some e => (e, s)
      | none =>
        let (l, bad, s) := s.vload c (x.am != 3) (s.vmElems k x 1 (maskBytes t)) other
        let s := s.modCore k fun co => co.setM x.v (l.foldl (fun (m : VReg) e =>
          (m &&& ~~~ BitVec.ofNat 1024 (0xFF <<< (8 * e.1.i))) ||| BitVec.ofNat 1024 (leVal e.1.bytes <<< (8 * e.1.i)))
          (co.mreg x.v))
        s.vmEnd k x bad))

/-- VSTM (Table 05-10). -/
def execVstm (c : CoreId) (x : VMem) (other : Option PortAccess) (s : State) : Res :=
  s.gelvipa c 4 true (vectorOp c (vmWord x 4) (badMaskReg x true) (fun _ => [])
    (fun t s =>
      let k := coreKey c
      match (if t.vl = 0 then none else s.vmBad k x) with
      | some e => (e, s)
      | none =>
        let m := (s.core k).mreg x.v
        let l := (s.vmElems k x 1 (maskBytes t)).map fun e =>
          { e with bytes := [(m.extractLsb' (8 * e.i) 8)] }
        let (bad, s) := s.vstore c l other
        s.vmEnd k x bad))

/-! ### FH_LQ_PUSH (R284) -/

/-- The writer of a refused push is answered with an error response, which a core that runs takes as ACCESS. -/
def State.pushAnswer (s : State) (p : Nat) (who : Requester) (ok : Bool) : State :=
  match who, ok with
  | .tile t, false =>
    if (s.core t.val).state = 1 then
      s.raise t.val Exc.access (s.core t.val).pc (some (BitVec.ofNat 32 (Addr.fhLqPush p)))
    else s
  | _, _ => s

/-- FH_LQ_PUSH (R284); `closed` tells that the push left a stage of a job whose closing has come meanwhile: it is
acknowledged, discarded and counted, whatever the core runs now. -/
def execFhLqPush (p : Fin 64) (who : Requester) (entry : BitVec 256) (closed : Bool) (s : State) : Res :=
  if closed then State.done (s.count (Addr.fhWithdrawnCnt p))
  else
    let (ok, t) := s.pushEntry p who entry.toNat
    State.done (t.pushAnswer p who ok)

end Sys2Proof.Machine
end

