-- ==== Sys2Proof/Machine/Stages.lean ====
section
/-! DEFINITION. Stages on their instances: selection and the dispatch word (R58 to R61, R74, R105, R136, R451), completion
(R62, R106, R146, R286) and the budget stop (R34, R35, R39, R40, R108). -/

namespace Sys2Proof.Machine

/-! ### Selection (R58, R60) -/

/-- The key of a READY stage: end of its effective deadline's bin, admission order, stage index. -/
def State.readyKey (s : State) (p : Nat × Nat) : Nat × Nat × Nat :=
  match s.job p.1 with
  | none => (0, 0, p.2)
  | some j => ((j.stage p.2).lateBin, j.order, p.2)

def keyLt (a b : Nat × Nat × Nat) : Bool :=
  a.1 < b.1 || (a.1 == b.1 && (a.2.1 < b.2.1 || (a.2.1 == b.2.1 && a.2.2 < b.2.2)))

/-- The stage that instance q's dispatcher selects. -/
def State.selected (s : State) (q : Nat) : Option (Nat × Nat) :=
  (s.readyOn q).foldl (fun b p => match b with
    | none => some p
    | some x => if keyLt (s.readyKey p) (s.readyKey x) then some p else some x) none

/-- The histogram's bucket for a wait in CLK_NOC cycles (R74). -/
def waitBucket (w : Nat) : Nat := if w < 16 then 0 else min 15 (w.log2 - 3)

def State.noteWait (s : State) (q edges : Nat) : State :=
  let i := 16 * q + waitBucket (edges * 8 / 3)
  { s with cmp := { s.cmp with hist := SMap.set noFill s.cmp.hist i (SMap.get noFill s.cmp.hist i + 1) } }

/-! ### The dispatch word (R61, R105, Table 04-19) -/

def dispatchWord (h k : Nat) (j : Job) (budget : Nat) (absent : Word) : List Word :=
  let w := fun (n : Nat) => (BitVec.ofNat 32 n : Word)
  [w (h * 64 + k)] ++ (List.range 3).map (fun i => w (j.params.getD i 0))
    ++ (List.range 8).map (fun i => j.args.getD i 0)
    ++ [w j.inAddr, w (j.inAddr / 2 ^ 32), w j.inLen, w j.outAddr, w (j.outAddr / 2 ^ 32), w j.outLen, w budget, absent]

def noEntry : EntryT := { template := 0, stage := 0, tvec := 0, entry := 0 }

/-- A DSP stage starts on tile t: nothing is left of the stage before; the dispatch word is loaded, TVEC and the pc come
from the memory and code map, and the vector state is reset (R105, R136). A core in debug halt stays there (R429). -/
def State.startTile (s : State) (t h k : Nat) (j : Job) (budget : Nat) (absent : Word) : State :=
  let e := (s.img.entries.find? fun e => e.template == j.templateNo && e.stage == k).getD noEntry
  let dw := (dispatchWord h k j budget absent).foldl (fun (m : SMap Word × Nat) v => (SMap.set noWord m.1 m.2 v, m.2 + 1)) ([], 0)
  let halted := (s.core t).state == 3
  let s := s.setCore t { Core.init with
    haltedFrom := if halted then 1 else 0
    tvec := BitVec.ofNat 32 e.tvec, pc := BitVec.ofNat 32 e.entry, dw := dw.1, job := h, stage := k
    selEdge := s.time.ticks, budget := budget }
  let s := (s.fset (Addr.tileStat t) Fld.tileStatStage k).fset (Addr.tileStat t) Fld.tileStatJobHandle h
  s.setCoreState t (if halted then 3 else 1)

/-- The coprocessor of tile t starts a TCOP stage. -/
def State.startTcop (s : State) (t h k : Nat) : State :=
  let a := Addr.tileCpStat t
  ((s.fset a Fld.tileCpStatStage k).fset a Fld.tileCpStatJobHandle h).fset a Fld.tileCpStatState 1

/-- An engine starts its stage. -/
def State.startEngine (s : State) (q h k : Nat) : State :=
  let s := (s.setEngineDone q false).setEngineHalted q false
  if classOf q = 9 then s
  else
    let a := instStat q
    ((s.fset a Fld.cceInstStatStage k).fset a Fld.cceInstStatJobHandle h).fset a Fld.cceInstStatState 1

/-- The instance takes the stage it was given. -/
def State.startInstance (s : State) (q h k : Nat) (j : Job) : State :=
  let x := j.stage k
  if x.cls = 0 then s.startTile x.inst h k j x.cost x.absent
  else if x.cls = 1 then s.startTcop x.inst h k
  else if x.cls ≤ 9 then s.startEngine q h k
  else if x.cls = 10 then State.armEntries x.inst h (armBudget x.cost) s
  else s.setEngineDone q false

/-- The tile's cluster is asleep or wakes. -/
def State.tileAsleep (s : State) (cls inst : Nat) : Bool := decide (cls ≤ 1) && s.clusterAsleep (inst / 8)

/-- STAGE_DISPATCH (R58 to R60, R451): a free instance selects a stage; one of declared cost 0 ends in the same cycle. -/
def execStageDispatch (q : Fin 746) (s : State) : Res :=
  match s.running q, s.selected q with
  | none, some (h, k) =>
    match s.job h with
    | none => s.done
    | some j =>
      let x := j.stage k
      if s.tileAsleep x.cls x.inst then s.done
      else
        let s := s.noteWait q (s.time.ticks - x.readyEdge)
        let s := s.modStage h k fun x => { x with st := .running, selEdge := s.time.ticks }
        if x.cost = 0 then State.done (s.completeStage h k 0 false)
        else State.done ((s.setRunning q (some (h, k))).startInstance q h k j)
  | _, _ => s.done

/-! ### Completion (R62, R106, R146, R286) -/

/-- An engine's stage completes after its descriptor. -/
def State.engineEnd (s : State) (q h k : Nat) : State :=
  let s := (s.count (descCnt (classOf q))).unlock q
  (s.setEngineState q 0).completeStage h k 0 false

/-- STAGE_COMPLETE (R62): what runs on instance q has come to its end; `mask` is the self-cancel mask of a DSP stage's
STEND. -/
def execStageComplete (q : Fin 746) (mask : BitVec 64) (s : State) : Res :=
  match s.running q with
  | none => s.done
  | some (h, k) =>
    match s.job h with
    | none => s.done
    | some j =>
      let x := j.stage k
      State.done (
        if x.cls = 0 then if (s.core x.inst).state = 1 then s.stageEnd x.inst mask.toNat else s
        else if x.cls = 1 then (s.stopTcop x.inst).completeStage h k 0 false
        else if x.cls ≤ 9 then if s.engineDone q then s.engineEnd q h k else s
        else if x.cls = 10 then (State.armEntries x.inst h (s.lq x.inst).length s).completeStage h k 0 false
        else s)

/-! ### The budget stop (R34, R35, R39, R40) -/

/-- The edge at which the stage's count reaches its cost. -/
def State.budgetTick (s : State) (x : Stage) : Nat := x.selEdge + ceilDiv (x.cost * 3840) (max 1 (s.capacity x.cls))

/-- The stage that an overrun names: of two of one cycle, the lower index. -/
def overrunStage (k : Nat) (same : SameCycle) : Nat := (same.overrun.map fun m => min k m.val).getD k

/-- STAGE_BUDGET_STOP (R34): the count reaches the declared cost; a post-delivery stage stops (R40), any other closes its
job OVERRUN, unless a consumption fault of the same cycle comes first (R39). -/
def execStageBudgetStop (q : Fin 746) (same : SameCycle) (s : State) : Res :=
  match s.running q with
  | none => s.done
  | some (h, k) =>
    match s.job h with
    | none => s.done
    | some j =>
      let x := j.stage k
      let s := s.passEdges (s.budgetTick x - s.time.ticks)
      let s := s.countIf (x.cls ≤ 1) (Addr.tileStopCnt x.inst)
      if x.cls = 10 then State.done (((s.stopStage h k).count Addr.cmpPostOvrCnt).freeIfOver h)
      else
        let s := s.noteSeen h same.fault.isSome true same.cancel
        match same.fault with
        | some f => State.done (s.closeJob h Status.faulted f)
        | none => State.done (s.closeJob h Status.overrun (overrunStage k same))

end Sys2Proof.Machine
end

