-- ==== Sys2Proof/Machine/Delivery.lean ====
section
/-! DEFINITION. A packet at its destination port (R238, R245, R246, R249, R256): the CRC check, the requests that the unit
serves, and the responses that reservations take. -/

namespace Sys2Proof.Machine

/-! ### Packets -/

def PktOp.read : Nat := 1
def PktOp.write : Nat := 2
def PktOp.writeP : Nat := 3
def PktOp.readRsp : Nat := 0x81
def PktOp.writeAck : Nat := 0x82

/-- The identities that a request carries (R208). -/
def Pkt.ids (p : BitVec 256) : List Ident := [identOf (Pkt.src p), identOf (Pkt.obo p)]

/-- Bytes of a packet's request; a packet carries at most 128, within one line (R238). -/
def Pkt.bytes (p : BitVec 256) : Nat := min (Pkt.len p) (128 - Pkt.addr p % 128)

/-- The packet carries payload: a write request or read data. -/
def Pkt.hasPayload (p : BitVec 256) : Bool :=
  Pkt.op p == PktOp.write || Pkt.op p == PktOp.writeP || Pkt.op p == PktOp.readRsp

/-- The payload bytes, each with the poison of its eight-byte lane. -/
def Pkt.data (p : BitVec 256) (payload : BitVec 1024) (marks : BitVec 16) : List (Byte × Bool) :=
  let o := Pkt.addr p % 8
  (List.range (Pkt.bytes p)).map fun k => (BitVec.ofNat 8 (payload.toNat / 256 ^ k), marks.getLsbD ((o + k) / 8))

/-- The register requester that an identity is (Table 09-2); a unit that issues no register access is none. -/
def identWho (i : Ident) : Option Requester :=
  match i.kind with
  | 0 => some (.zelfa 0)
  | 1 => if h : i.index < 192 then some (.tile ⟨i.index, h⟩) else none
  | 5 => some .host
  | 7 => some .dap
  | _ => none

/-! ### Serving a request -/

/-- STATUS of a response (Table 10-4). -/
def Status.ok : Nat := 0
def Status.owner : Nat := 1
def Status.asleep : Nat := 2
def Status.decode : Nat := 3

/-- A domain's ingress is closed to the packet. -/
def State.closedTo (s : State) (a : Nat) : Bool := (targetDomain a).any fun d => s.fenced d

/-- Pending handovers of the banks a packet reaches complete first: a new owner's request stalls until then (R211). -/
def State.settleHandovers (s : State) (a n : Nat) : State :=
  s.each (banksOf a n) fun s b => match b with
    | some key => if s.pendingHandover key then s.completeHandover key else s
    | none => s

/-- A read of memory by a packet that passes the port: STATUS, BUSY and data. What a read that carries BUSY returns is open
(R215). -/
def State.serveMemRead (s : State) (ids : List Ident) (a n : Nat) (other : Option PortAccess) :
    (Nat × Bool) × List (Byte × Bool) × State :=
  if s.owns ids a n then
    let (d, busy, s) := (s.settleHandovers a n).withPort false false a n other fun s => s.readMem (ids.headD Ident.system) a n
    if busy then
      let (v, s) := s.freeLanes
      ((Status.ok, true), clean (leBytes n (v.toNat + v.toNat * 2 ^ 512)), s)
    else ((Status.ok, false), d, s)
  else ((Status.owner, false), [], s.noteOwnErr ((bankOf a).getD 0) ids false)

/-- A write of memory, plain or through an alias: STATUS and BUSY. -/
def State.serveMemWrite (s : State) (ids : List Ident) (alias_ : Option Bool) (a : Nat) (d : List (Byte × Bool))
    (other : Option PortAccess) : (Nat × Bool) × State :=
  if s.owns ids a d.length then
    let who := ids.headD Ident.system
    let (_, busy, s) := (s.settleHandovers a d.length).withPort false true a d.length other fun s =>
      ((), match alias_ with
        | none => s.writeMem who a d
        | some set => s.aliasMem who set a d)
    ((Status.ok, busy), s)
  else ((Status.owner, false), s.noteOwnErr ((bankOf a).getD 0) ids true)

/-- A register read at the port; one behind an open port whose fence has closed since is still served. -/
def State.serveRegRead (s : State) (who : Option Requester) (a n : Nat) : Nat × List (Byte × Bool) × State :=
  match who with
  | none => (Status.decode, [], s.errDecode)
  | some w =>
    match regHit a n with
    | .none => (Status.ok, clean (leBytes n 0), s)
    | .bad => (Status.decode, [], s.errDecode)
    | .reg r b lo => let (v, s) := s.readReg w r b lo n; (Status.ok, clean (leBytes n v.toNat), s)

/-- A register write at the port; FH_LQ_PUSH takes 32 bytes (R284, R422). -/
def State.serveRegWrite (s : State) (who : Option Requester) (a : Nat) (d : List Byte) : Nat × State :=
  match who with
  | none => (Status.decode, s.errDecode)
  | some w =>
    if d.length = 32 ∧ (regAt a).any (fun r => r.base == Addr.fhLqPush 0) then
      let (ok, s) := s.pushEntry ((a - Addr.fhLqPush 0) / 0x100) w (leVal d)
      (if ok then Status.ok else Status.owner, s)
    else match regHit a d.length with
      | .none => (Status.ok, s)
      | .bad => (Status.decode, s.errDecode)
      | .reg r b lo => (Status.ok, s.writeReg w r b lo d.length (leVal d))

/-- The unit serves a READ: STATUS, BUSY and data. A read of the host window carries what the host answers. -/
def State.serveRead (s : State) (p : BitVec 256) (host : List (Byte × Bool)) (other : Option PortAccess) :
    (Nat × Bool) × List (Byte × Bool) × State :=
  let n := Pkt.bytes p
  match target (Pkt.addr p) with
  | .mem a => s.serveMemRead (Pkt.ids p) a n other
  | .bitSet a => s.serveMemRead (Pkt.ids p) a n other
  | .bitClr a => s.serveMemRead (Pkt.ids p) a n other
  | .reg a => let (st, d, s) := s.serveRegRead (identWho (identOf (Pkt.src p))) a n; ((st, false), d, s)
  | .host h =>
    let (ok, s) := s.hostReq false h n true
    if ok then ((Status.ok, false), hostSlice host 0 n, s) else ((Status.decode, false), [], s)
  | .none => ((Status.decode, false), [], s.errDecode)

/-- The unit serves a WRITE or WRITE_P: STATUS and BUSY. -/
def State.serveWrite (s : State) (p : BitVec 256) (d : List (Byte × Bool)) (other : Option PortAccess) : (Nat × Bool) × State :=
  match target (Pkt.addr p) with
  | .mem a => s.serveMemWrite (Pkt.ids p) none a d other
  | .bitSet a => s.serveMemWrite (Pkt.ids p) (some true) a d other
  | .bitClr a => s.serveMemWrite (Pkt.ids p) (some false) a d other
  | .reg a => let (st, s) := s.serveRegWrite (identWho (identOf (Pkt.src p))) a (bytesOf d); ((st, false), s)
  | .host h =>
    let (ok, s) := s.hostReq true h d.length true
    if ok then ((Status.ok, false), s.emit (.hostWrite h d)) else ((Status.decode, false), s)
  | .none => ((Status.decode, false), s.errDecode)

/-- The flit header of a response (R238, R240): a SINGLE flit where its payload fits lanes 4 to 7, whose poison it then shows. -/
def State.rspHdr (s : State) (rsp : BitVec 256) (d : List (Byte × Bool)) : BitVec 56 :=
  let small := decide (d.length ≤ 32)
  let marks := (List.range 4).foldl (fun m i => if anyPoison ((d.drop (8 * i)).take 8) then m + 2 ^ (4 + i) else m) 0
  s.injectHdr (Flit.make (if small then 3 else 0) 0 0 0 0 0 (if small then marks else 0) 0) rsp

/-- A response leaves for the packet's requester (R238). -/
def State.respond (s : State) (p : BitVec 256) (st : Nat × Bool) (d : List (Byte × Bool)) : State :=
  let rsp := Pkt.response p (if Pkt.op p = PktOp.read then PktOp.readRsp else PktOp.writeAck) st.1 st.2 (bytesOf d)
  s.emit (.nocRsp (s.rspHdr rsp d) rsp d)

/-- Read data with every lane poisoned. -/
def poisonLanes (n : Nat) : List (Byte × Bool) := List.replicate n (0, true)

/-! ### Responses (R245 to R247) -/

/-- The outstanding reservation that a response answers. -/
def State.resvFor (s : State) (who : Ident) (port tag : Nat) : Option Resv :=
  s.noc.resv.find? fun r => r.who == who && r.port == port && r.tag == tag

/-- A response's data enter the requester's buffer, in place of those of the tag's last response. -/
def State.keepResponse (s : State) (r : Resv) (status : Option Nat) (d : List (Byte × Bool)) : State :=
  let l := s.noc.taken.filter fun x => !(x.who == r.who && x.port == r.port && x.tag == r.tag)
  s.setNoc { s.noc with taken := l ++ [⟨r.who, r.port, r.tag, status, d⟩] }

/-- A running core takes ACCESS at the instruction it is at, which ends a REP sequence (R87, R246). -/
def State.coreAccess (s : State) (k addr : Nat) : State :=
  let c := s.core k
  if c.state ≠ 1 then s
  else
    let s := match c.rep with
      | none => s
      | some (n, _) => s.modCore k fun c => { c with rcnt := BitVec.ofNat 32 n }
    (s.raise k Exc.access c.pc (some (BitVec.ofNat 32 addr))).takeHalt k

/-- The coprocessor's operation under way ends with ERR = ACCESS: its errors are no traps (R94; DEDUCED, log 66). -/
def State.copAccess (s : State) (t : Nat) : State :=
  s.modCore t fun c => { c with cpBusy := c.cpBusy.map fun op => { op with err := 2 } }

/-- How a requester handles a response with STATUS ≠ 0, or an error completion (R246): a core takes ACCESS, a Zelfa core its
bus error as the same exception; a DMA engine a bus error (R268); an engine, a chain, a HARQ port or a framer carries
poisoned data; the CXL port answers the host (R334). -/
def State.answerError (s : State) (r : Resv) : State :=
  match r.who.kind with
  | 0 => s.coreAccess (192 + r.sub) r.addr
  | 1 => if r.sub = 1 then s.copAccess r.who.index else s.coreAccess r.who.index r.addr
  | 2 => if s.dmaState r.who.index r.sub = Dma.busy then s.dmaBusError r.who.index r.sub r.addr (s.dmaCh r.who.index r.sub).moved
    else s
  | 5 => if r.who.index = 0 then s.bar2Refuse r.write r.len else s
  | _ => s

/-- The CXL port hands the host the data it read (R334). -/
def State.answerHost (s : State) (r : Resv) (d : List (Byte × Bool)) : State :=
  if r.who = Ident.host ∧ r.write = false then
    s.emit (.hostRsp (bytesOf d) (if !anyPoison d then 0 else if s.flag Addr.hxLinkStat Fld.hxLinkStatCxl then 1 else 2))
  else s

/-- A unit that issues a read again where its response carries BUSY, and never uses the data (R216). -/
def Ident.reissues (i : Ident) : Bool := decide (1 ≤ i.kind) && decide (i.kind ≤ 4)

/-- A response completes its reservation: its data enter the buffer with their poison, all poisoned where STATUS is an error;
one whose tag has timed out is discarded, counted and logged. -/
def State.takeResponse (s : State) (p : BitVec 256) (d : List (Byte × Bool)) : State :=
  let who := identOf (Pkt.src p)
  match s.resvFor who (Pkt.srcPort p) (Pkt.tag p) with
  | some r =>
    let s := s.setNoc { s.noc with resv := s.noc.resv.erase r }
    if Pkt.status p ≠ 0 then
      (s.keepResponse r (some (Pkt.status p)) (if r.write then [] else poisonLanes r.len)).answerError r
    else if Pkt.busy p && !r.write && Ident.reissues who then s
    else (s.keepResponse r (some 0) (if r.write then [] else d)).answerHost r d
  | none =>
    match s.noc.expired.find? fun r => r.who == who && r.port == Pkt.srcPort p && r.tag == Pkt.tag p with
    | some r =>
      ((s.setNoc { s.noc with expired := s.noc.expired.erase r }).count Addr.nocLateRspCnt).nocLog false NocErr.late r.rtr r.port
        (Pkt.src p)
    | none => s

/-- A reservation ends by timeout: counted, logged, and an error completion for its requester; its tag's response will be
discarded. -/
def State.timeoutResv (s : State) (x : Resv) : State :=
  let s := s.advanceToTick (x.injected + timeoutEdges)
  let s := s.setNoc { s.noc with resv := s.noc.resv.erase x, expired := s.noc.expired ++ [x] }
  let s := (s.count Addr.nocTimeoutCnt).nocLog false NocErr.timeout x.rtr x.port (Ident.code x.who)
  (s.keepResponse x none (if x.write then [] else poisonLanes x.len)).answerError x

/-- RESERVATION_TIMEOUT (R245). -/
def execReservationTimeout (who : Ident) (tag : BitVec 8) (port : Fin 4) (s : State) : Res :=
  State.done (match s.resvFor who port tag.toNat with
    | none => s
    | some x => s.timeoutResv x)

/-! ### Delivery -/

/-- A packet that was on its way before the fence leaves ADMITTED (R255). -/
def State.noteAdmitted (s : State) (a : Nat) (admitted : Bool) : State :=
  match targetDomain a with
  | none => s
  | some d =>
    if admitted && s.fenced d then
      s.fset (Addr.nocFenceStat d) Fld.nocFenceStatAdmitted (s.fget (Addr.nocFenceStat d) Fld.nocFenceStatAdmitted - 1)
    else s

/-- A request behind the fence: answered TARGET_ASLEEP, or dropped where it is posted (R256). -/
def State.fencedRequest (s : State) (p : BitVec 256) : State :=
  if Pkt.op p = PktOp.writeP then s.count Addr.nocFenceDropCnt
  else if Pkt.op p = PktOp.read then (s.count Addr.nocFenceRejCnt).respond p (Status.asleep, false) (poisonLanes (Pkt.bytes p))
  else (s.count Addr.nocFenceRejCnt).respond p (Status.asleep, false) []

/-- A packet that passes its port's CRC check is served, answered or taken; `d` is its payload, or what the host answers a
read of its window with. -/
def State.servePacket (s : State) (p : BitVec 256) (d : List (Byte × Bool)) (admitted : Bool)
    (other : Option PortAccess) : State :=
  if Pkt.op p = PktOp.readRsp ∨ Pkt.op p = PktOp.writeAck then s.takeResponse p d
  else if s.closedTo (Pkt.addr p) && !admitted then s.fencedRequest p
  else
    let s := s.noteAdmitted (Pkt.addr p) admitted
    if Pkt.op p = PktOp.read then let (st, r, s) := s.serveRead p d other; s.respond p st r
    else if Pkt.op p = PktOp.write then let (st, s) := s.serveWrite p d other; s.respond p st []
    else if Pkt.op p = PktOp.writeP then (s.serveWrite p d other).2
    else s

/-- What the CRC check leaves of a packet: its lane marks, or nothing where it is discarded (R249). -/
def crcMarks (p : BitVec 256) (marks : BitVec 16) (hdrMarked crcOk : Bool) : Option (BitVec 16) :=
  if crcOk || hdrMarked || marks != 0 then some marks
  else if Pkt.hasPayload p then some 0xFFFF
  else none

/-- The bytes that a packet of flit header `h` carries: a SINGLE flit at most 32, one without payload none (R238). -/
def Pkt.carried (h : BitVec 56) (p : BitVec 256) : Nat :=
  if !Pkt.hasPayload p then 0 else if Flit.type h = 3 then min 32 (Pkt.bytes p) else Pkt.bytes p

/-- The packet's CRC field agrees with its header and payload. -/
def Pkt.crcOk (h : BitVec 56) (p : BitVec 256) (payload : BitVec 1024) : Bool :=
  Pkt.crc p == Pkt.crcOf p (leBytes (Pkt.carried h p) payload.toNat)

/-- ORTHOGON_PACKET_DELIVERY (R238, R245 to R247, R249, R254, R256): a packet reaches its destination port, which checks its CRC.
`hdrMarked` tells that a lane of its header is marked poisoned, `admitted` that its HEAD reached the port before a fence
closed it. -/
def execOrthogonPacketDelivery (hdr : BitVec 56) (pkt : BitVec 256) (payload : BitVec 1024) (marks : BitVec 16)
    (hdrMarked admitted : Bool) (other : Option PortAccess) (s : State) : Res :=
  let ok := Pkt.crcOk hdr pkt payload
  let s := s.noteEpoch hdr
  let s := if ok then s else (s.count Addr.nocCrcErrCnt).nocLog false NocErr.crc (Flit.dest hdr) (Flit.destPort hdr) (Pkt.src pkt)
  State.done (match crcMarks pkt marks hdrMarked ok with
    | none => s
    | some m =>
      let d := Pkt.data pkt payload m
      s.servePacket pkt (if Pkt.hasPayload pkt then d.take (Pkt.carried hdr pkt) else d) admitted other)

end Sys2Proof.Machine
end

