-- ==== Sys2Proof/Machine/Dap.lean ====
section
/-! DEFINITION. The test access port (R427, R430), the debug access port (R428, R429) and the flash bridge (R431). -/

namespace Sys2Proof.Machine

def State.setJtag (s : State) (j : Jtag) : State := { s with jtag := j }

/-! ### JTAG instructions (Table 18-5) -/

def Ir.extest : Byte := 0x00
def Ir.idcode : Byte := 0x01
def Ir.sample : Byte := 0x02
def Ir.dapAcc : Byte := 0x10
def Ir.dapHalt : Byte := 0x11
def Ir.flashBridge : Byte := 0x20
def Ir.bypass : Byte := 0xFF

/-- The IDCODE register: version 1, part number 0x9064, manufacturer 0x535, and 1 (R427). -/
def idcode : Nat := 0x19064A6B

/-- The test access port acts in every mode (R430) but OFF, where its pads have no power (R365). -/
def State.tapOn (s : State) : Bool := s.mode != Mode.off

/-- In DEEP the I/O die's logic, the network and the cores have no power, and the port reaches nothing (Table 15-2). -/
def State.dapReaches (s : State) : Bool := s.mode != Mode.deep

/-- A command of the port; in OFF it does nothing. -/
def State.tap (s : State) (f : State → State) : Res := State.done (if s.tapOn then f s else s)

/-- An instruction is scanned in where another was selected; the instruction register captures 0b0000_0001 (R427). -/
def State.selectIr (s : State) (ir : Byte) : State :=
  if s.jtag.ir = ir then s else (s.setJtag { s.jtag with ir := ir }).emit (.tdo 8 1)

/-- EXTEST drives the pins only in SERVICE or SAFE (R430). -/
def State.mayDrive (s : State) : Bool := s.mode == Mode.service || s.mode == Mode.safe

/-- The boundary-scan register captures the pins and takes what is shifted in. -/
def State.scanBoundary (s : State) (captured shifted : BitVec 60) : State :=
  (s.setJtag { s.jtag with bsr := shifted }).emit (.tdo 60 captured.toNat)

/-- TAP_RESET (R427). -/
def execTapReset (s : State) : Res := s.tap fun s => s.setJtag { s.jtag with ir := Ir.idcode }

/-- EXTEST (R430): outside SERVICE and SAFE it acts as SAMPLE/PRELOAD. -/
def execExtest (captured shifted : BitVec 60) (s : State) : Res := s.tap fun s =>
  let s := (s.selectIr Ir.extest).scanBoundary captured shifted
  (if s.mayDrive then s.emitPad (.pinsDriven shifted) else s)

/-- IDCODE (R427). -/
def execIdcode (s : State) : Res := s.tap fun s => (s.selectIr Ir.idcode).emit (.tdo 32 idcode)

/-- SAMPLE_PRELOAD (R427, R430). -/
def execSamplePreload (captured shifted : BitVec 60) (s : State) : Res :=
  s.tap fun s => (s.selectIr Ir.sample).scanBoundary captured shifted

/-- BYPASS (R427): any other code selects it too; IEEE 1149.1 captures 0. -/
def execBypass (s : State) : Res := s.tap fun s => (s.selectIr Ir.bypass).emit (.tdo 1 0)

/-! ### DAP_ACC (R428, R430, Table 18-6) -/

def DapStatus.ok : Nat := 0
def DapStatus.busy : Nat := 1
def DapStatus.error : Nat := 2
def DapStatus.poison : Nat := 3
def DapStatus.locked : Nat := 4
def DapStatus.pending : Nat := 5

def Acc.data (d : BitVec 128) : Nat := bitsOf d.toNat 127 64
def Acc.addr (d : BitVec 128) : Nat := bitsOf d.toNat 55 8
def Acc.size (d : BitVec 128) : Nat := bitsOf d.toNat 7 6
def Acc.write (d : BitVec 128) : Bool := bitOf d.toNat 5
def Acc.go (d : BitVec 128) : Bool := bitOf d.toNat 4

/-- The register with this DATA and STATUS. -/
def Acc.withResult (d : BitVec 128) (status data : Nat) : BitVec 128 :=
  BitVec.ofNat 128 (data % 2 ^ 64 * 2 ^ 64 + bitsOf d.toNat 63 4 * 16 + status)

/-- In these modes the debug port performs nothing: DEV_SECURE is 1 and the mode is not SERVICE (R430). -/
def State.dapLocked (s : State) : Bool := s.flag Addr.devSecure Fld.devSecureSecure && s.mode != Mode.service

/-- A read: STATUS and DATA. -/
def State.dapRead (s : State) (a n : Nat) (other : Option PortAccess) : Nat × Nat × State :=
  let mem := fun (a : Nat) =>
    if a % n ≠ 0 then (DapStatus.error, 0, s.errDecode)
    else
      let (r, busy, s) := s.withPort false false a n other fun s => s.readBank [Ident.dap] a n
      match r with
      | none => (DapStatus.error, 0, s)
      | some d =>
        if busy then let (v, s) := s.free (8 * n); (DapStatus.busy, v.toNat, s)
        else (if anyPoison d then DapStatus.poison else DapStatus.ok, leVal (bytesOf d), s)
  match target a with
  | .mem a => mem a
  | .bitSet a => mem a
  | .bitClr a => mem a
  | .reg a =>
    match s.regRead .dap a n with
    | (.ok v, s) => (DapStatus.ok, v.toNat, s)
    | (_, s) => (DapStatus.error, 0, s)
  | _ => (DapStatus.error, 0, s.errDecode)

/-- A write: STATUS. -/
def State.dapWrite (s : State) (a n v : Nat) (other : Option PortAccess) : Nat × State :=
  let d := clean (leBytes n v)
  let mem := fun (a : Nat) (f : State → State) =>
    if a % n ≠ 0 then (DapStatus.error, s.errDecode)
    else
      let (ok, busy, s) := s.withPort false true a n other fun s =>
        let (ok, s) := s.admitRange [Ident.dap] true a n
        (ok, if ok then f s else s)
      (if !ok then DapStatus.error else if busy then DapStatus.busy else DapStatus.ok, s)
  match target a with
  | .mem a => mem a fun s => s.writeMem Ident.dap a d
  | .bitSet a => mem a fun s => s.aliasMem Ident.dap true a d
  | .bitClr a => mem a fun s => s.aliasMem Ident.dap false a d
  | .reg a =>
    match s.regWrite .dap a n v with
    | (.ok _, s) => (DapStatus.ok, s)
    | (_, s) => (DapStatus.error, s)
  | _ => (DapStatus.error, s.errDecode)

/-- No response arrives within R245's time: the reservation ends, is counted and is logged. -/
def State.dapLost (s : State) : State :=
  let (r, s) := s.freeBelow 112
  let (p, s) := s.freeBelow 4
  (s.count Addr.nocTimeoutCnt).nocLog false NocErr.timeout r p (Ident.code Ident.dap)

/-- The access that an Update-DR with GO = 1 performs: STATUS and DATA. -/
def State.dapAccess (s : State) (dr : BitVec 128) (lost : Bool) (other : Option PortAccess) : Nat × Nat × State :=
  let n := if Acc.size dr = 0 then 4 else 8
  if s.dapLocked then (DapStatus.locked, Acc.data dr, s)
  else if 1 < Acc.size dr || !s.dapReaches then (DapStatus.error, Acc.data dr, s)
  else if lost then (DapStatus.error, Acc.data dr, s.dapLost)
  else if Acc.write dr then
    let (st, s) := s.dapWrite (Acc.addr dr) n (Acc.data dr % 2 ^ (8 * n)) other
    (st, Acc.data dr, s)
  else s.dapRead (Acc.addr dr) n other

/-- One scan of DAP_ACC: `arrived` tells that the response of the access before it has come by this Capture-DR. -/
def State.scanAcc (s : State) (dr : BitVec 128) (arrived lost : Bool) (other : Option PortAccess) : State :=
  if s.jtag.fresh && !arrived then
    s.emit (.tdo 128 (Acc.withResult s.jtag.acc DapStatus.pending (Acc.data s.jtag.acc)).toNat)
  else
    let s := s.emit (.tdo 128 s.jtag.acc.toNat)
    if Acc.go dr then
      let (st, d, s) := s.dapAccess dr lost other
      s.setJtag { s.jtag with acc := Acc.withResult dr st d, fresh := true }
    else
      s.setJtag { s.jtag with acc := Acc.withResult dr (bitsOf s.jtag.acc.toNat 3 0) (Acc.data s.jtag.acc), fresh := false }

/-- DAP_ACC (R428, R430). -/
def execDapAcc (dr : BitVec 128) (arrived lost : Bool) (other : Option PortAccess) (s : State) : Res :=
  s.tap fun s => (s.selectIr Ir.dapAcc).scanAcc dr arrived lost other

/-! ### DAP_HALT (R429, Table 18-7) -/

/-- The core that DAP_HALT names; none where it names nothing that can be halted. -/
def haltTarget (target index : Nat) : Option Nat :=
  if target = 0 ∧ index < 192 then some index
  else if target = 1 ∧ index < 8 then some (192 + index)
  else none

/-- The core stops between instructions, at the end of a REP sequence that it is in (R87). -/
def State.haltCore (s : State) (k : Nat) : State :=
  let c := s.core k
  if c.state = 3 then s
  else if c.state = 1 ∧ c.rep.isSome then s.setCore k { c with haltPend := true }
  else s.stopCore k

def State.resumeCore (s : State) (k : Nat) : State :=
  let c := s.core k
  if c.state = 3 then s.putCoreState k c.haltedFrom
  else if c.haltPend then s.setCore k { c with haltPend := false }
  else s

/-- DAP_HALT (R429, R430). -/
def execDapHalt (target : Fin 4) (index : Byte) (s : State) : Res := s.tap fun s =>
  let s := s.selectIr Ir.dapHalt
  (if s.dapLocked || !s.dapReaches then s else match haltTarget target index.toNat with
    | none => s
    | some k => s.haltCore k)

/-- DAP_RESUME (R429, R430). -/
def execDapResume (target : Fin 4) (index : Byte) (s : State) : Res := s.tap fun s =>
  let s := s.selectIr Ir.dapHalt
  (if s.dapLocked || !s.dapReaches then s else match haltTarget target index.toNat with
    | none => s
    | some k => s.resumeCore k)

/-! ### FLASH_BRIDGE (R431, Table 18-7) -/

def Bridge.go (d : BitVec 24) : Bool := d.getLsbD 23
def Bridge.cs (d : BitVec 24) : Nat := bitsOf d.toNat 22 22
def Bridge.last (d : BitVec 24) : Bool := d.getLsbD 21
def Bridge.tx (d : BitVec 24) : Byte := BitVec.ofNat 8 (bitsOf d.toNat 15 8)

/-- The bridge acts in SAFE with reason IMG_FAIL when no slot is loaded, and in SERVICE. -/
def State.bridgeActs (s : State) : Bool :=
  s.mode == Mode.service
    || s.mode == Mode.safe && bitOf (s.reg Addr.plbCause).toNat Doubt.imgFail && !s.img.present

def State.sentOf (s : State) (cs : Nat) : List Byte := SMap.get (fun _ => []) s.jtag.sent cs
def State.withheldOf (s : State) (cs : Nat) : Bool := SMap.get noFlag s.jtag.withheld cs

def State.setBridge (s : State) (cs : Nat) (l : List Byte) (w : Bool) : State :=
  s.setJtag { s.jtag with
    sent := SMap.set (fun _ => []) s.jtag.sent cs l
    withheld := SMap.set noFlag s.jtag.withheld cs w }

/-- In SERVICE a program or erase command addressed to the booted slot is ended (R375). -/
def State.bridgeDenies (s : State) (cs : Nat) (l : List Byte) : Bool :=
  s.mode == Mode.service && (match Config.flashCmd cs l with
    | some (a, er, off) => s.inBootedSlot cs a (er.getD (max 1 (l.length - off)))
    | none => false)

/-- A complete command that is a program or an erase acts on the flash. -/
def State.bridgeRun (s : State) (cs : Nat) (l : List Byte) : State :=
  match Config.flashCmd cs l with
  | some (a, er, off) => s.sendFlash cs a er (l.drop off)
  | none => s

/-- One byte of a command; the last one ends it. -/
def State.bridgeByte (s : State) (dr : BitVec 24) : State :=
  let cs := Bridge.cs dr
  let l := if s.withheldOf cs then s.sentOf cs else s.sentOf cs ++ [Bridge.tx dr]
  let deny := !s.withheldOf cs && s.bridgeDenies cs l
  let held := s.withheldOf cs || deny
  let s := s.countIf deny Addr.nvmWpDenyCnt
  if Bridge.last dr then (if held then s else s.bridgeRun cs l).setBridge cs [] false else s.setBridge cs l held

/-- FLASH_BRIDGE (R431): `rx` is what the flash drives during the eight clocks. -/
def execFlashBridge (dr : BitVec 24) (rx : Byte) (s : State) : Res := s.tap fun s =>
  let s := (s.selectIr Ir.flashBridge).emit (.tdo 24 s.jtag.bridge.toNat)
  let acts := Bridge.go dr && s.bridgeActs
  let low := if acts then rx.toNat else bitsOf s.jtag.bridge.toNat 7 0
  let s := s.setJtag { s.jtag with bridge := BitVec.ofNat 24 (dr.toNat - dr.toNat % 256 + low) }
  if acts then s.bridgeByte dr else s

end Sys2Proof.Machine
end

