-- ==== Sys2Proof/Machine/Dispatch.lean ====
section
/-! DEFINITION. One arm per command: the direct call of its meaning. -/

namespace Sys2Proof.Machine

def exec (i : Instr) (s : State) : Host.Outcome State Fault Refusal :=
  match i with
  | .registerWrite ws hwSet => Sys2Proof.Machine.execRegisterWrite ws hwSet s
  | .rcFieldRead who addr eight hwEvent => Sys2Proof.Machine.execRcFieldRead who addr eight hwEvent s
  | .rootPllLock => Sys2Proof.Machine.execRootPllLock s
  | .refclkLockRetry count locks => Sys2Proof.Machine.execRefclkLockRetry count locks s
  | .rootPllLockLoss => Sys2Proof.Machine.execRootPllLockLoss s
  | .refclkLoss => Sys2Proof.Machine.execRefclkLoss s
  | .jqRecordFetch q rec => Sys2Proof.Machine.execJqRecordFetch q rec s
  | .jobAdmission => Sys2Proof.Machine.execJobAdmission s
  | .cancelRecord => Sys2Proof.Machine.execCancelRecord s
  | .cancelClosingArrives h d same => Sys2Proof.Machine.execCancelClosingArrives h d same s
  | .cancelAckIssue => Sys2Proof.Machine.execCancelAckIssue s
  | .calendarBinEnd => Sys2Proof.Machine.execCalendarBinEnd s
  | .stageReady h st => Sys2Proof.Machine.execStageReady h st s
  | .missingInputRelease h st => Sys2Proof.Machine.execMissingInputRelease h st s
  | .stageDispatch q => Sys2Proof.Machine.execStageDispatch q s
  | .stageComplete q mask => Sys2Proof.Machine.execStageComplete q mask s
  | .stageBudgetStop q same => Sys2Proof.Machine.execStageBudgetStop q same s
  | .timerFlagFires h st flag => Sys2Proof.Machine.execTimerFlagFires h st flag s
  | .cmpEvtSet value => Sys2Proof.Machine.execCmpEvtSet value s
  | .flowRelease f => Sys2Proof.Machine.execFlowRelease f s
  | .clusterIdleExitCalendar c => Sys2Proof.Machine.execClusterIdleExitCalendar c s
  | .histSnap inst => Sys2Proof.Machine.execHistSnap inst s
  | .calSnapshot value => Sys2Proof.Machine.execCalSnapshot value s
  | .cmpBusyWindowEnd => Sys2Proof.Machine.execCmpBusyWindowEnd s
  | .add c rd ra rb => Sys2Proof.Machine.execAdd c rd ra rb s
  | .sub c rd ra rb => Sys2Proof.Machine.execSub c rd ra rb s
  | .and c rd ra rb => Sys2Proof.Machine.execAnd c rd ra rb s
  | .or c rd ra rb => Sys2Proof.Machine.execOr c rd ra rb s
  | .xor c rd ra rb => Sys2Proof.Machine.execXor c rd ra rb s
  | .andn c rd ra rb => Sys2Proof.Machine.execAndn c rd ra rb s
  | .shl c rd ra rb => Sys2Proof.Machine.execShl c rd ra rb s
  | .shr c rd ra rb => Sys2Proof.Machine.execShr c rd ra rb s
  | .sar c rd ra rb => Sys2Proof.Machine.execSar c rd ra rb s
  | .rol c rd ra rb => Sys2Proof.Machine.execRol c rd ra rb s
  | .slt c rd ra rb => Sys2Proof.Machine.execSlt c rd ra rb s
  | .sltu c rd ra rb => Sys2Proof.Machine.execSltu c rd ra rb s
  | .min c rd ra rb => Sys2Proof.Machine.execMin c rd ra rb s
  | .max c rd ra rb => Sys2Proof.Machine.execMax c rd ra rb s
  | .minu c rd ra rb => Sys2Proof.Machine.execMinu c rd ra rb s
  | .maxu c rd ra rb => Sys2Proof.Machine.execMaxu c rd ra rb s
  | .mul c rd ra rb => Sys2Proof.Machine.execMul c rd ra rb s
  | .mulh c rd ra rb => Sys2Proof.Machine.execMulh c rd ra rb s
  | .mulhu c rd ra rb => Sys2Proof.Machine.execMulhu c rd ra rb s
  | .abs c rd ra => Sys2Proof.Machine.execAbs c rd ra s
  | .norm c rd ra => Sys2Proof.Machine.execNorm c rd ra s
  | .exp c rd ra => Sys2Proof.Machine.execExp c rd ra s
  | .clz c rd ra => Sys2Proof.Machine.execClz c rd ra s
  | .popc c rd ra => Sys2Proof.Machine.execPopc c rd ra s
  | .adds c rd ra rb => Sys2Proof.Machine.execAdds c rd ra rb s
  | .subs c rd ra rb => Sys2Proof.Machine.execSubs c rd ra rb s
  | .addi c rd ra imm => Sys2Proof.Machine.execAddi c rd ra imm s
  | .andi c rd ra imm => Sys2Proof.Machine.execAndi c rd ra imm s
  | .ori c rd ra imm => Sys2Proof.Machine.execOri c rd ra imm s
  | .xori c rd ra imm => Sys2Proof.Machine.execXori c rd ra imm s
  | .slti c rd ra imm => Sys2Proof.Machine.execSlti c rd ra imm s
  | .sltiu c rd ra imm => Sys2Proof.Machine.execSltiu c rd ra imm s
  | .shli c rd ra sh => Sys2Proof.Machine.execShli c rd ra sh s
  | .shri c rd ra sh => Sys2Proof.Machine.execShri c rd ra sh s
  | .sari c rd ra sh => Sys2Proof.Machine.execSari c rd ra sh s
  | .lui c rd imm => Sys2Proof.Machine.execLui c rd imm s
  | .ldw c rd ra off other => Sys2Proof.Machine.execLdw c rd ra off other s
  | .ldh c rd ra off other => Sys2Proof.Machine.execLdh c rd ra off other s
  | .ldhu c rd ra off other => Sys2Proof.Machine.execLdhu c rd ra off other s
  | .ldb c rd ra off other => Sys2Proof.Machine.execLdb c rd ra off other s
  | .ldbu c rd ra off other => Sys2Proof.Machine.execLdbu c rd ra off other s
  | .stw c rs ra off other => Sys2Proof.Machine.execStw c rs ra off other s
  | .sth c rs ra off other => Sys2Proof.Machine.execSth c rs ra off other s
  | .stb c rs ra off other => Sys2Proof.Machine.execStb c rs ra off other s
  | .stws c rs ra off other => Sys2Proof.Machine.execStws c rs ra off other s
  | .stwc c rs ra off other => Sys2Proof.Machine.execStwc c rs ra off other s
  | .beq c ra rb disp => Sys2Proof.Machine.execBeq c ra rb disp s
  | .bne c ra rb disp => Sys2Proof.Machine.execBne c ra rb disp s
  | .blt c ra rb disp => Sys2Proof.Machine.execBlt c ra rb disp s
  | .bge c ra rb disp => Sys2Proof.Machine.execBge c ra rb disp s
  | .bltu c ra rb disp => Sys2Proof.Machine.execBltu c ra rb disp s
  | .bgeu c ra rb disp => Sys2Proof.Machine.execBgeu c ra rb disp s
  | .bcpb c disp => Sys2Proof.Machine.execBcpb c disp s
  | .jal c rd disp => Sys2Proof.Machine.execJal c rd disp s
  | .jr c rd ra => Sys2Proof.Machine.execJr c rd ra s
  | .repImm c n part => Sys2Proof.Machine.execRepImm c n part s
  | .repReg c ra part => Sys2Proof.Machine.execRepReg c ra part s
  | .loop c ra len bad => Sys2Proof.Machine.execLoop c ra len bad s
  | .loopl c count len bad => Sys2Proof.Machine.execLoopl c count len bad s
  | .cpwait c => Sys2Proof.Machine.execCpwait c s
  | .mfc c rd csr early => Sys2Proof.Machine.execMfc c rd csr early s
  | .mtc c ra csr soon => Sys2Proof.Machine.execMtc c ra csr soon s
  | .stend c ra rb => Sys2Proof.Machine.execStend c ra rb s
  | .setres c ra k same => Sys2Proof.Machine.execSetres c ra k same s
  | .eret c => Sys2Proof.Machine.execEret c s
  | .brk c code => Sys2Proof.Machine.execBrk c code s
  | .fence c => Sys2Proof.Machine.execFence c s
  | .li c rd imm => Sys2Proof.Machine.execLi c rd imm s
  | .addil c rd ra imm => Sys2Proof.Machine.execAddil c rd ra imm s
  | .andil c rd ra imm => Sys2Proof.Machine.execAndil c rd ra imm s
  | .oril c rd ra imm => Sys2Proof.Machine.execOril c rd ra imm s
  | .xoril c rd ra imm => Sys2Proof.Machine.execXoril c rd ra imm s
  | .ldwl c rd ra imm other => Sys2Proof.Machine.execLdwl c rd ra imm other s
  | .stwl c rs ra imm other => Sys2Proof.Machine.execStwl c rs ra imm other s
  | .jl c target => Sys2Proof.Machine.execJl c target s
  | .cpCrecip c ra rb squashed => Sys2Proof.Machine.execCpCrecip c ra rb squashed s
  | .cpSqrt c ra rb squashed => Sys2Proof.Machine.execCpSqrt c ra rb squashed s
  | .cpAtan2 c ra rb squashed => Sys2Proof.Machine.execCpAtan2 c ra rb squashed s
  | .cpTopk c ra rb squashed => Sys2Proof.Machine.execCpTopk c ra rb squashed s
  | .cpCrc c ra rb squashed => Sys2Proof.Machine.execCpCrc c ra rb squashed s
  | .cpScramb c ra rb squashed => Sys2Proof.Machine.execCpScramb c ra rb squashed s
  | .cpIntlv c ra rb squashed => Sys2Proof.Machine.execCpIntlv c ra rb squashed s
  | .coprocessorDone t => Sys2Proof.Machine.execCoprocessorDone t s
  | .cpdoneInterrupt t => Sys2Proof.Machine.execCpdoneInterrupt t s
  | .vsetl c rd ra grp ew => Sys2Proof.Machine.execVsetl c rd ra grp ew s
  | .vsetli c rd avl grp ew => Sys2Proof.Machine.execVsetli c rd avl grp ew s
  | .vbcst c vd imm => Sys2Proof.Machine.execVbcst c vd imm s
  | .vadd c x => Sys2Proof.Machine.execVadd c x s
  | .vsub c x => Sys2Proof.Machine.execVsub c x s
  | .vrsub c x => Sys2Proof.Machine.execVrsub c x s
  | .vmin c x => Sys2Proof.Machine.execVmin c x s
  | .vmax c x => Sys2Proof.Machine.execVmax c x s
  | .vabs c x => Sys2Proof.Machine.execVabs c x s
  | .vand c x => Sys2Proof.Machine.execVand c x s
  | .vor c x => Sys2Proof.Machine.execVor c x s
  | .vxor c x => Sys2Proof.Machine.execVxor c x s
  | .vshl c x => Sys2Proof.Machine.execVshl c x s
  | .vshr c x => Sys2Proof.Machine.execVshr c x s
  | .vsra c x => Sys2Proof.Machine.execVsra c x s
  | .vsrar c x => Sys2Proof.Machine.execVsrar c x s
  | .vmerge c x => Sys2Proof.Machine.execVmerge c x s
  | .vclr c x => Sys2Proof.Machine.execVclr c x s
  | .vconj c x => Sys2Proof.Machine.execVconj c x s
  | .vmul c x => Sys2Proof.Machine.execVmul c x s
  | .vmulq c x => Sys2Proof.Machine.execVmulq c x s
  | .vmacw c x => Sys2Proof.Machine.execVmacw c x s
  | .vmscw c x => Sys2Proof.Machine.execVmscw c x s
  | .vcmulq c x => Sys2Proof.Machine.execVcmulq c x s
  | .vcmulcq c x => Sys2Proof.Machine.execVcmulcq c x s
  | .vcmacw c x => Sys2Proof.Machine.execVcmacw c x s
  | .vcmaccw c x => Sys2Proof.Machine.execVcmaccw c x s
  | .vnrw c x => Sys2Proof.Machine.execVnrw c x s
  | .vwcvt c x => Sys2Proof.Machine.execVwcvt c x s
  | .vcmpeq c x => Sys2Proof.Machine.execVcmpeq c x s
  | .vcmplt c x => Sys2Proof.Machine.execVcmplt c x s
  | .vcmple c x => Sys2Proof.Machine.execVcmple c x s
  | .vnorm c x => Sys2Proof.Machine.execVnorm c x s
  | .vexp c x => Sys2Proof.Machine.execVexp c x s
  | .vbexp c x => Sys2Proof.Machine.execVbexp c x s
  | .vbexps c x => Sys2Proof.Machine.execVbexps c x s
  | .vshrs c x => Sys2Proof.Machine.execVshrs c x s
  | .vpack c x => Sys2Proof.Machine.execVpack c x s
  | .vunpack c x => Sys2Proof.Machine.execVunpack c x s
  | .vslideup c x => Sys2Proof.Machine.execVslideup c x s
  | .vslidedn c x => Sys2Proof.Machine.execVslidedn c x s
  | .vzip c x => Sys2Proof.Machine.execVzip c x s
  | .vunzip c x => Sys2Proof.Machine.execVunzip c x s
  | .vrev c x => Sys2Proof.Machine.execVrev c x s
  | .vredsum c x => Sys2Proof.Machine.execVredsum c x s
  | .vredmax c x => Sys2Proof.Machine.execVredmax c x s
  | .vmvxv c x => Sys2Proof.Machine.execVmvxv c x s
  | .vmvvx c x => Sys2Proof.Machine.execVmvvx c x s
  | .mand c md ms1 ms2 => Sys2Proof.Machine.execMand c md ms1 ms2 s
  | .mor c md ms1 ms2 => Sys2Proof.Machine.execMor c md ms1 ms2 s
  | .mxor c md ms1 ms2 => Sys2Proof.Machine.execMxor c md ms1 ms2 s
  | .mandn c md ms1 ms2 => Sys2Proof.Machine.execMandn c md ms1 ms2 s
  | .mnot c md ms1 => Sys2Proof.Machine.execMnot c md ms1 s
  | .msetvl c md => Sys2Proof.Machine.execMsetvl c md s
  | .mpopc c rd ms1 => Sys2Proof.Machine.execMpopc c rd ms1 s
  | .mfirst c rd ms1 => Sys2Proof.Machine.execMfirst c rd ms1 s
  | .vld c x other => Sys2Proof.Machine.execVld c x other s
  | .vst c x other => Sys2Proof.Machine.execVst c x other s
  | .vstn c x other => Sys2Proof.Machine.execVstn c x other s
  | .vldm c x other => Sys2Proof.Machine.execVldm c x other s
  | .vstm c x other => Sys2Proof.Machine.execVstm c x other s
  | .ldpcDecode e other => Sys2Proof.Machine.execLdpcDecode e other s
  | .ldpcEncode e other => Sys2Proof.Machine.execLdpcEncode e other s
  | .polarDecode e other => Sys2Proof.Machine.execPolarDecode e other s
  | .polarEncode e other => Sys2Proof.Machine.execPolarEncode e other s
  | .turboDecode e other => Sys2Proof.Machine.execTurboDecode e other s
  | .fftUl e other => Sys2Proof.Machine.execFftUl e other s
  | .fftDl e other => Sys2Proof.Machine.execFftDl e other s
  | .scale e other => Sys2Proof.Machine.execScale e other s
  | .cef e other => Sys2Proof.Machine.execCef e other s
  | .weights e other => Sys2Proof.Machine.execWeights e other s
  | .chol e other => Sys2Proof.Machine.execChol e other s
  | .qr e other => Sys2Proof.Machine.execQr e other s
  | .apply e other => Sys2Proof.Machine.execApply e other s
  | .sicw e other => Sys2Proof.Machine.execSicw e other s
  | .sic e other => Sys2Proof.Machine.execSic e other s
  | .praDetect e other => Sys2Proof.Machine.execPraDetect e other s
  | .sdcRun n other => Sys2Proof.Machine.execSdcRun n other s
  | .coefLoad n other => Sys2Proof.Machine.execCoefLoad n other s
  | .sdcFadeEnd n => Sys2Proof.Machine.execSdcFadeEnd n s
  | .sdcShadowWrite n r who value => Sys2Proof.Machine.execSdcShadowWrite n r who value s
  | .sdcCommitSet n who value => Sys2Proof.Machine.execSdcCommitSet n who value s
  | .memOwnerWrite b bank ws => Sys2Proof.Machine.execMemOwnerWrite b bank ws s
  | .handoverComplete b bank => Sys2Proof.Machine.execHandoverComplete b bank s
  | .memCodeChange b bank who value => Sys2Proof.Machine.execMemCodeChange b bank who value s
  | .scrubLineCheck b bank => Sys2Proof.Machine.execScrubLineCheck b bank s
  | .scrubWriteBack b => Sys2Proof.Machine.execScrubWriteBack b s
  | .scrubLapEnd b => Sys2Proof.Machine.execScrubLapEnd b s
  | .memRemapInstall b e who value => Sys2Proof.Machine.execMemRemapInstall b e who value s
  | .orthogonFlitHop r ins gap sub => Sys2Proof.Machine.execOrthogonFlitHop r ins gap sub s
  | .orthogonPacketDelivery hdr pkt payload marks hdrMarked admitted other => Sys2Proof.Machine.execOrthogonPacketDelivery hdr pkt payload marks hdrMarked admitted other s
  | .reservationTimeout who tag port => Sys2Proof.Machine.execReservationTimeout who tag port s
  | .chordPacket src dest flits errs => Sys2Proof.Machine.execChordPacket src dest flits errs s
  | .nocEpochCopy old => Sys2Proof.Machine.execNocEpochCopy old s
  | .nocDrainEnd => Sys2Proof.Machine.execNocDrainEnd s
  | .nocWheelWrite who value => Sys2Proof.Machine.execNocWheelWrite who value s
  | .nocBrgShWrite who b value => Sys2Proof.Machine.execNocBrgShWrite who b value s
  | .nocEpochCommit who value => Sys2Proof.Machine.execNocEpochCommit who value s
  | .domainFence d admitted => Sys2Proof.Machine.execDomainFence d admitted s
  | .fenceDrained d => Sys2Proof.Machine.execFenceDrained d s
  | .fenceDrainTimeout d => Sys2Proof.Machine.execFenceDrainTimeout d s
  | .dmaStart c ch who value => Sys2Proof.Machine.execDmaStart c ch who value s
  | .dmaListFetch c ch => Sys2Proof.Machine.execDmaListFetch c ch s
  | .dmaBlockComplete c ch host transOk other => Sys2Proof.Machine.execDmaBlockComplete c ch host transOk other s
  | .dmaDoorbell c ch who value => Sys2Proof.Machine.execDmaDoorbell c ch who value s
  | .dmaBusError c ch addr progress => Sys2Proof.Machine.execDmaBusError c ch addr progress s
  | .dmaStopComplete c progress host => Sys2Proof.Machine.execDmaStopComplete c progress host s
  | .fhRxMessage p x => Sys2Proof.Machine.execFhRxMessage p x s
  | .ecpriDelayRequest p id phase => Sys2Proof.Machine.execEcpriDelayRequest p id phase s
  | .ecpriDelaySend p id phase => Sys2Proof.Machine.execEcpriDelaySend p id phase s
  | .fhSymbolComplete stream sym => Sys2Proof.Machine.execFhSymbolComplete stream sym s
  | .fhLqPush p who entry closed => Sys2Proof.Machine.execFhLqPush p who entry closed s
  | .fhFrameLaunch p other => Sys2Proof.Machine.execFhFrameLaunch p other s
  | .fhTxLate p => Sys2Proof.Machine.execFhTxLate p s
  | .laneLockGained l align inOrder => Sys2Proof.Machine.execLaneLockGained l align inOrder s
  | .laneLockLost l stage cv ce ue => Sys2Proof.Machine.execLaneLockLost l stage cv ce ue s
  | .lanePolarityFlip l => Sys2Proof.Machine.execLanePolarityFlip l s
  | .laneLosDetect l => Sys2Proof.Machine.execLaneLosDetect l s
  | .laneSignalRestored l => Sys2Proof.Machine.execLaneSignalRestored l s
  | .cpriStartup p st agreed phase => Sys2Proof.Machine.execCpriStartup p st agreed phase s
  | .laneCharStart l who value => Sys2Proof.Machine.execLaneCharStart l who value s
  | .laneCharDone l eyeH eyeW sug => Sys2Proof.Machine.execLaneCharDone l eyeH eyeW sug s
  | .lanePrbsEnable l who value => Sys2Proof.Machine.execLanePrbsEnable l who value s
  | .injOne l who value => Sys2Proof.Machine.execInjOne l who value s
  | .injBurst l who value => Sys2Proof.Machine.execInjBurst l who value s
  | .prbsCheckerLock l rx errs => Sys2Proof.Machine.execPrbsCheckerLock l rx errs s
  | .prbsCheckerResync l errs last => Sys2Proof.Machine.execPrbsCheckerResync l errs last s
  | .deepLaneExit g => Sys2Proof.Machine.execDeepLaneExit g s
  | .ptpTcForward p m ago rxPhase txPhase => Sys2Proof.Machine.execPtpTcForward p m ago rxPhase txPhase s
  | .ptpTcDrop p => Sys2Proof.Machine.execPtpTcDrop p s
  | .ptpEventReceive p m phase => Sys2Proof.Machine.execPtpEventReceive p m phase s
  | .tbNsRead who => Sys2Proof.Machine.execTbNsRead who s
  | .tbSet value => Sys2Proof.Machine.execTbSet value s
  | .tbSetApply => Sys2Proof.Machine.execTbSetApply s
  | .tbPtpOffs who value => Sys2Proof.Machine.execTbPtpOffs who value s
  | .calUserWrite item idx value => Sys2Proof.Machine.execCalUserWrite item idx value s
  | .servoTick se => Sys2Proof.Machine.execServoTick se s
  | .holdoverExpired => Sys2Proof.Machine.execHoldoverExpired s
  | .ppsOutPulse => Sys2Proof.Machine.execPpsOutPulse s
  | .todTxMessage leap utc cls => Sys2Proof.Machine.execTodTxMessage leap utc cls s
  | .todRxMessage msg => Sys2Proof.Machine.execTodRxMessage msg s
  | .ppsInCapture phase => Sys2Proof.Machine.execPpsInCapture phase s
  | .gpioCapture g falling => Sys2Proof.Machine.execGpioCapture g falling s
  | .ppsInMiss => Sys2Proof.Machine.execPpsInMiss s
  | .tuneDacWrite who value => Sys2Proof.Machine.execTuneDacWrite who value s
  | .ctxSlotCommit group n => Sys2Proof.Machine.execCtxSlotCommit group n s
  | .tbCtxShWrite n who value => Sys2Proof.Machine.execTbCtxShWrite n who value s
  | .tbCtxCommit n who value => Sys2Proof.Machine.execTbCtxCommit n who value s
  | .tbLgCommit g who value => Sys2Proof.Machine.execTbLgCommit g who value s
  | .bar2Access write off len data poison other => Sys2Proof.Machine.execBar2Access write off len data poison other s
  | .bar0Access write off eight full data => Sys2Proof.Machine.execBar0Access write off eight full data s
  | .hxBwTransfer inst xs transOk wrOk => Sys2Proof.Machine.execHxBwTransfer inst xs transOk wrOk s
  | .hxReadComplete h st host => Sys2Proof.Machine.execHxReadComplete h st host s
  | .atsInvalidation base size => Sys2Proof.Machine.execAtsInvalidation base size s
  | .hxJqTail q who value => Sys2Proof.Machine.execHxJqTail q who value s
  | .hxCqHead q who value => Sys2Proof.Machine.execHxCqHead q who value s
  | .hxQueueCfg cq q who value => Sys2Proof.Machine.execHxQueueCfg cq q who value s
  | .hxQueueBase cq q who value => Sys2Proof.Machine.execHxQueueBase cq q who value s
  | .hxFwEvt who value => Sys2Proof.Machine.execHxFwEvt who value s
  | .hostLinkLoss cause x => Sys2Proof.Machine.execHostLinkLoss cause x s
  | .hostLinkReturn x => Sys2Proof.Machine.execHostLinkReturn x s
  | .graceTimerExpiry => Sys2Proof.Machine.execGraceTimerExpiry s
  | .hxPerstAssert => Sys2Proof.Machine.execHxPerstAssert s
  | .hxPerstRelease => Sys2Proof.Machine.execHxPerstRelease s
  | .hxPortReady x => Sys2Proof.Machine.execHxPortReady x s
  | .aonStart => Sys2Proof.Machine.execAonStart s
  | .vinPfail => Sys2Proof.Machine.execVinPfail s
  | .vinStop => Sys2Proof.Machine.execVinStop s
  | .vinStart => Sys2Proof.Machine.execVinStart s
  | .vinOvWarning => Sys2Proof.Machine.execVinOvWarning s
  | .vinOvDisconnect => Sys2Proof.Machine.execVinOvDisconnect s
  | .vinOvRelease => Sys2Proof.Machine.execVinOvRelease s
  | .pwrReqOff who => Sys2Proof.Machine.execPwrReqOff who s
  | .pwrReqDeep who wakeMs => Sys2Proof.Machine.execPwrReqDeep who wakeMs s
  | .pwrReqSleep who wakeMs => Sys2Proof.Machine.execPwrReqSleep who wakeMs s
  | .pwrReqRun who => Sys2Proof.Machine.execPwrReqRun who s
  | .pwrReqLoad who => Sys2Proof.Machine.execPwrReqLoad who s
  | .pwrReqService who => Sys2Proof.Machine.execPwrReqService who s
  | .voteStageAgreed => Sys2Proof.Machine.execVoteStageAgreed s
  | .backoffExpiry => Sys2Proof.Machine.execBackoffExpiry s
  | .clusterIdleEntry c => Sys2Proof.Machine.execClusterIdleEntry c s
  | .clusterSleepEntry c => Sys2Proof.Machine.execClusterSleepEntry c s
  | .clusterWakeComplete c => Sys2Proof.Machine.execClusterWakeComplete c s
  | .wakeNAssert => Sys2Proof.Machine.execWakeNAssert s
  | .wakeTimerExpiry => Sys2Proof.Machine.execWakeTimerExpiry s
  | .powerGood count => Sys2Proof.Machine.execPowerGood count s
  | .powerGoodTimeout sdaLow word => Sys2Proof.Machine.execPowerGoodTimeout sdaLow word s
  | .pllLockTimeout => Sys2Proof.Machine.execPllLockTimeout s
  | .domainRailTimeout d => Sys2Proof.Machine.execDomainRailTimeout d s
  | .padHoldRelease who => Sys2Proof.Machine.execPadHoldRelease who s
  | .pmbAlert sdaLow word => Sys2Proof.Machine.execPmbAlert sdaLow word s
  | .pmbMarginRequest margin sdaLow vout => Sys2Proof.Machine.execPmbMarginRequest margin sdaLow vout s
  | .pmbTransactionTimeout => Sys2Proof.Machine.execPmbTransactionTimeout s
  | .startupSequence env => Sys2Proof.Machine.execStartupSequence env s
  | .journalCompaction => Sys2Proof.Machine.execJournalCompaction s
  | .journalCompactionDone => Sys2Proof.Machine.execJournalCompactionDone s
  | .jnlCalSave item idx => Sys2Proof.Machine.execJnlCalSave item idx s
  | .devRollbackAdv who => Sys2Proof.Machine.execDevRollbackAdv who s
  | .devKeyProg who index value => Sys2Proof.Machine.execDevKeyProg who index value s
  | .devKeyLock who => Sys2Proof.Machine.execDevKeyLock who s
  | .flashWriteCommand cs addr erase data => Sys2Proof.Machine.execFlashWriteCommand cs addr erase data s
  | .zelfaInterrupt z n => Sys2Proof.Machine.execZelfaInterrupt z n s
  | .wdtEnable k who => Sys2Proof.Machine.execWdtEnable k who s
  | .wdtKick k who value => Sys2Proof.Machine.execWdtKick k who value s
  | .watchdogExpiry k => Sys2Proof.Machine.execWatchdogExpiry k s
  | .lockstepMismatch => Sys2Proof.Machine.execLockstepMismatch s
  | .thermalSensorRead raw => Sys2Proof.Machine.execThermalSensorRead raw s
  | .thermAlert low => Sys2Proof.Machine.execThermAlert low s
  | .safeNAssert low => Sys2Proof.Machine.execSafeNAssert low s
  | .plbClear who same => Sys2Proof.Machine.execPlbClear who same s
  | .safeNMaskWrite who mask => Sys2Proof.Machine.execSafeNMaskWrite who mask s
  | .bankBist who b bank => Sys2Proof.Machine.execBankBist who b bank s
  | .tsLoopbackCal who l => Sys2Proof.Machine.execTsLoopbackCal who l s
  | .calendarAudit who => Sys2Proof.Machine.execCalendarAudit who s
  | .thermalSensorCheck who => Sys2Proof.Machine.execThermalSensorCheck who s
  | .scrubEnable c maxLap => Sys2Proof.Machine.execScrubEnable c maxLap s
  | .maintActivityEnd id target ok values => Sys2Proof.Machine.execMaintActivityEnd id target ok values s
  | .gpioFaultDetect g => Sys2Proof.Machine.execGpioFaultDetect g s
  | .tapReset => Sys2Proof.Machine.execTapReset s
  | .extest captured shifted => Sys2Proof.Machine.execExtest captured shifted s
  | .idcode => Sys2Proof.Machine.execIdcode s
  | .samplePreload captured shifted => Sys2Proof.Machine.execSamplePreload captured shifted s
  | .bypass => Sys2Proof.Machine.execBypass s
  | .dapAcc dr arrived lost other => Sys2Proof.Machine.execDapAcc dr arrived lost other s
  | .dapHalt target index => Sys2Proof.Machine.execDapHalt target index s
  | .dapResume target index => Sys2Proof.Machine.execDapResume target index s
  | .flashBridge dr rx => Sys2Proof.Machine.execFlashBridge dr rx s
  | .vinRecovery => Sys2Proof.Machine.execVinRecovery s
  | .ptpMessageSend p m phase => Sys2Proof.Machine.execPtpMessageSend p m phase s
  | .configurationRequest write off value be => Sys2Proof.Machine.execConfigurationRequest write off value be s
  | .flashOperationComplete => Sys2Proof.Machine.execFlashOperationComplete s

end Sys2Proof.Machine
end

