-- ==== Sys2Proof/Machine/Step.lean ====
section
/-! DEFINITION. The step: the command at the front of the queue, or one CLK_TB edge while no command waits. -/

namespace Sys2Proof.Machine

/-- Take the front command of the queue and give its outcome; with no command waiting, Meridian counts one edge if it
counts (DESIGN CHOICE, log 1). -/
def step (s : State) : Host.Outcome State Fault Refusal :=
  match s.pending with
  | [] => s.tick.done
  | c :: l => exec c { s with pending := l }

/-- The command that a word spells, put at the front of the queue; the table gives no row bits, so no word spells one. -/
def State.withFetchWord (s : State) (nbits w : Nat) : State :=
  match decodeTableWord nbits w with
  | none => s
  | some c => { s with pending := c :: s.pending }

end Sys2Proof.Machine
end

