-- ==== Sys2Proof/Safety.lean ====
section
/-! DEFINITION. The terms the statements use: a settled state, what a command does when it is carried out, and what a state
shares with the one before it. -/

namespace Sys2Proof.Machine

/-- No doubt waits at the end of a command: Plumb has acted on every doubt the command raised (R407). -/
def State.settled (s : State) : Prop := s.plb.raised = []

/-- The command is carried out, it neither faults nor is refused, and the state after it has the property. -/
def runs (i : Instr) (s : State) (P : State → Prop) : Prop := ∃ t, exec i s = .next t ∧ P t

/-- The command answers exactly this state. -/
def gives (i : Instr) (s t : State) : Prop := exec i s = .next t

/-- Of the whole state only registers differ, and of those only the listed ones. -/
def onlyRegs (s t : State) (l : List Nat) : Prop := t = { s with regs := t.regs } ∧ ∀ a, a ∉ l → t.reg a = s.reg a

/-- Of the whole state only core k differs. -/
def onlyCore (s t : State) (k : Nat) : Prop := t = { s with cores := t.cores } ∧ ∀ j, j ≠ k → t.core j = s.core j

/-- The core of key k runs, with no REP, no LOOP and no MTC under way, and no debug halt that waits. -/
def State.plain (s : State) (k : Nat) : Prop :=
  (s.core k).state = 1 ∧ (s.core k).rep = none ∧ (s.core k).mtc = none ∧ (s.core k).mtcHeld = none ∧ (s.core k).lc = 0
    ∧ (s.core k).haltPend = false

/-- The core runs plainly, and the words it fetched are an encoding of the command's instruction (R83). -/
def State.ready (s : State) (c : CoreId) : Prop := coreEncoded c = true ∧ s.plain (coreKey c)

/-- What an instruction of `size` bytes that writes Grd leaves: rd and its poison bit (G0 keeps its zero), the pc past the
instruction, and nothing else changed. -/
def writesG (s t : State) (k size rd : Nat) (v : Word) (p : Bool) : Prop :=
  onlyCore s t k ∧ (∀ r, (t.core k).gv r = if r = rd ∧ rd ≠ 0 then v else (s.core k).gv r)
    ∧ (∀ r, r < 32 → (t.core k).gp r = if r = rd ∧ rd ≠ 0 then p else (s.core k).gp r)
    ∧ t.core k = { s.core k with
        g := (t.core k).g
        gPoison := (t.core k).gPoison
        pc := (s.core k).pc + BitVec.ofNat 32 size }

/-- Every byte of memory reads as before, but the n bytes from a on. -/
def sameBytesBut (s t : State) (a n : Nat) : Prop := ∀ x, ¬ (a ≤ x ∧ x < a + n) → t.byte x = s.byte x

/-- Every byte of memory reads as before. -/
def sameBytes (s t : State) : Prop := ∀ x, t.byte x = s.byte x

/-- The core of key k runs, no REP, LOOP or debug halt is under way, and the CSR write m of the instruction before has still to
take effect (R84). -/
def State.mtcDue (s : State) (k : Nat) (m : Nat × Word) : Prop :=
  (s.core k).state = 1 ∧ (s.core k).rep = none ∧ (s.core k).mtc = some m ∧ (s.core k).lc = 0 ∧ (s.core k).haltPend = false

/-- The word at address a lies in a bank that accepts the requester, is not fenced and is not in handover, and its cells hold
what was stored. -/
def State.memReady (s : State) (ids : List Ident) (a : Nat) : Prop :=
  ∃ key, bankOf a = some key ∧ s.accepts key ids = true ∧ s.pendingHandover key = false ∧ s.bankFenced key = false
    ∧ s.errMask (a / 8) = 0

/-- The n bytes from a, least significant first. -/
def State.memVal (s : State) (a n : Nat) : Nat := leVal ((List.range n).map fun i => s.byte (a + i))

/-- The core of key k takes exception `cause` at the instruction it was about to execute, with a handler (R101): EPC and
ECAUSE are written, EVAL where the exception gives one, and the pc goes to TVEC. -/
def takesExc (s t : State) (k cause : Nat) (eval : Option Word) : Prop :=
  (∀ j, j ≠ k → t.core j = s.core j) ∧ t.core k = { s.core k with
    ecause := BitVec.ofNat 32 cause, epc := (s.core k).pc, eval := eval.getD (s.core k).eval, pc := (s.core k).tvec
    inHandler := true }

/-- A tile's core has a handler and is not inside it. -/
def State.handles (s : State) (k : Nat) : Prop := (s.core k).tvec ≠ 0 ∧ (s.core k).inHandler = false

end Sys2Proof.Machine
end

