-- ==== Sys2Proof/Certificates/Slice0/Obligations.lean ====
section
/-! DEFINITION. The statements for the provers, each about the model of the SX9064 as the spec's rules give it. -/

open Sys2Proof Sys2Proof.Machine

/-! ### The block -/

/-- A step takes the front command of the queue and answers what exec answers with the rest of the queue. -/
def Obligations.StepRunsFront : Prop :=
  ∀ (c : Instr) (l : List Instr) (s : State), s.pending = c :: l → step s = exec c { s with pending := l }

/-! ### Scalar instructions -/

/-- The instructions with two source registers and what each puts in rd (Table 04-6). -/
def Sys2Proof.Machine.aluRows : List ((CoreId → Fin 32 → Fin 32 → Fin 32 → Instr) × (Word → Word → Word)) :=
  [(.add, fun a b => a + b), (.sub, fun a b => a - b), (.and, fun a b => a &&& b), (.or, fun a b => a ||| b),
   (.xor, fun a b => a ^^^ b), (.andn, fun a b => a &&& ~~~b), (.shl, fun a b => a <<< (b.toNat % 32)),
   (.shr, fun a b => a >>> (b.toNat % 32)), (.sar, fun a b => a.sshiftRight (b.toNat % 32)),
   (.rol, fun a b => a.rotateLeft (b.toNat % 32)), (.slt, fun a b => if a.toInt < b.toInt then 1 else 0),
   (.sltu, fun a b => if a.toNat < b.toNat then 1 else 0), (.min, fun a b => if a.toInt ≤ b.toInt then a else b),
   (.max, fun a b => if a.toInt ≤ b.toInt then b else a), (.minu, fun a b => if a.toNat ≤ b.toNat then a else b),
   (.maxu, fun a b => if a.toNat ≤ b.toNat then b else a), (.mul, fun a b => a * b),
   (.mulh, fun a b => BitVec.ofInt 32 (a.toInt * b.toInt / 2 ^ 32)),
   (.mulhu, fun a b => BitVec.ofNat 32 (a.toNat * b.toNat / 2 ^ 32)),
   (.adds, fun a b => BitVec.ofInt 32 (max (-2147483648) (min 2147483647 (a.toInt + b.toInt)))),
   (.subs, fun a b => BitVec.ofInt 32 (max (-2147483648) (min 2147483647 (a.toInt - b.toInt))))]

/-- The one-source operations of Table 04-6 and what each puts in rd. -/
def Sys2Proof.Machine.unaryRows : List ((CoreId → Fin 32 → Fin 32 → Instr) × (Word → Word)) :=
  [(.abs, fun a => if a = 0x80000000 then 0x7FFFFFFF else if a.toInt < 0 then -a else a), (.norm, aluNorm), (.exp, aluExp),
   (.clz, aluClz), (.popc, aluPopc)]

/-- The operations with a 14-bit immediate (Table 04-7). -/
def Sys2Proof.Machine.immRows : List ((CoreId → Fin 32 → Fin 32 → BitVec 14 → Instr) × (Word → BitVec 14 → Word)) :=
  [(.addi, fun a i => a + i.signExtend 32), (.andi, fun a i => a &&& i.setWidth 32), (.ori, fun a i => a ||| i.setWidth 32),
   (.xori, fun a i => a ^^^ i.setWidth 32), (.slti, fun a i => if a.toInt < (i.signExtend 32).toInt then 1 else 0),
   (.sltiu, fun a i => if a.toNat < (i.signExtend 32).toNat then 1 else 0)]

/-- The shifts by an immediate. -/
def Sys2Proof.Machine.shiftRows : List ((CoreId → Fin 32 → Fin 32 → Fin 32 → Instr) × (Word → Nat → Word)) :=
  [(.shli, fun a n => a <<< n), (.shri, fun a n => a >>> n), (.sari, fun a n => a.sshiftRight n)]

/-- The operations with a 32-bit immediate (Table 04-11). -/
def Sys2Proof.Machine.longRows : List ((CoreId → Fin 32 → Fin 32 → Word → Instr) × (Word → Word → Word)) :=
  [(.addil, fun a i => a + i), (.andil, fun a i => a &&& i), (.oril, fun a i => a ||| i), (.xoril, fun a i => a ^^^ i)]

/-- A core takes its exceptions in a handler (R101, R103, R400). -/
def Sys2Proof.Machine.State.hasHandler (s : State) (k : Nat) : Prop :=
  (s.core k).tvec ≠ 0 ∧ (k < 192 → (s.core k).inHandler = false)

/-- R83, R104: each of the 21 two-source operations, the one-source operations, the immediate forms and the long forms writes its
result and the poison of its sources to rd, passes on, and changes nothing else; LUI and LI write a clean constant. Words that
encode no instruction take ILLEGAL in the place of any of them. -/
def Obligations.AluOperations : Prop :=
  (∀ row ∈ aluRows, ∀ (c : CoreId) (rd ra rb : Fin 32) (s : State), s.settled → coreEncoded c = false → s.plain (coreKey c) →
     s.hasHandler (coreKey c) → runs (row.1 c rd ra rb) s fun t => takesExc s t (coreKey c) 0x01 none)
  ∧ (∀ row ∈ aluRows, ∀ (c : CoreId) (rd ra rb : Fin 32) (s : State), s.settled → s.ready c →
     runs (row.1 c rd ra rb) s fun t =>
       writesG s t (coreKey c) 4 rd (row.2 (s.gv (coreKey c) ra) (s.gv (coreKey c) rb))
         (s.gp (coreKey c) ra || s.gp (coreKey c) rb))
  ∧ ∀ (c : CoreId) (rd ra : Fin 32) (s : State), s.settled → s.ready c →
      (∀ row ∈ unaryRows, runs (row.1 c rd ra) s fun t =>
        writesG s t (coreKey c) 4 rd (row.2 (s.gv (coreKey c) ra)) (s.gp (coreKey c) ra))
      ∧ (∀ row ∈ immRows, ∀ i, runs (row.1 c rd ra i) s fun t =>
        writesG s t (coreKey c) 4 rd (row.2 (s.gv (coreKey c) ra) i) (s.gp (coreKey c) ra))
      ∧ (∀ row ∈ shiftRows, ∀ n, runs (row.1 c rd ra n) s fun t =>
        writesG s t (coreKey c) 4 rd (row.2 (s.gv (coreKey c) ra) n) (s.gp (coreKey c) ra))
      ∧ (∀ row ∈ longRows, ∀ i, runs (row.1 c rd ra i) s fun t =>
        writesG s t (coreKey c) 8 rd (row.2 (s.gv (coreKey c) ra) i) (s.gp (coreKey c) ra))
      ∧ (∀ i, runs (.lui c rd i) s fun t => writesG s t (coreKey c) 4 rd (i.setWidth 32 <<< 18) false)
      ∧ (∀ i, runs (.li c rd i) s fun t => writesG s t (coreKey c) 8 rd i false)

/-- R83, R123, R124: EXP counts the leading bits equal to the sign bit, less 1, and NORM shifts the value left by that count;
a division by 2^n rounds by the mode as Table 05-5 says; a result is clipped with SAT = 1 and wraps with SAT = 0. -/
def Obligations.FixedPointRules : Prop :=
  (∀ a : Word, (aluExp a).toNat ≤ 31 ∧ (∀ i, 31 - (aluExp a).toNat ≤ i → i ≤ 31 → a.getLsbD i = a.msb)
    ∧ ((aluExp a).toNat < 31 → a.getLsbD (30 - (aluExp a).toNat) ≠ a.msb) ∧ aluNorm a = a <<< (aluExp a).toNat)
  ∧ (∀ (rm : Nat) (x : Int), roundShift rm x 0 = x)
  ∧ (∀ (rm n : Nat) (x : Int), n ≠ 0 →
    let r := roundShift rm x n
    (rm % 4 = 0 → 2 * (2 ^ n * r - x).natAbs ≤ 2 ^ n ∧ (2 * (2 ^ n * r - x).natAbs = 2 ^ n → r % 2 = 0))
    ∧ (rm % 4 = 1 → r = if 0 ≤ x then (x + 2 ^ (n - 1)) / 2 ^ n else -((-x + 2 ^ (n - 1)) / 2 ^ n))
    ∧ (rm % 4 = 2 → 2 ^ n * r ≤ x ∧ x < 2 ^ n * (r + 1))
    ∧ (rm % 4 = 3 → r = if 0 ≤ x then x / 2 ^ n else -(-x / 2 ^ n)))
  ∧ ∀ (w : Nat) (x : Int), 1 ≤ w →
    (narrow false w x).2 = false ∧ (narrow false w x).1 < 2 ^ w ∧ ((narrow false w x).1 : Int) % 2 ^ w = x % 2 ^ w
    ∧ ((narrow true w x).2 = true ↔ x < -2 ^ (w - 1) ∨ 2 ^ (w - 1) - 1 < x)
    ∧ toSigned w (narrow true w x).1 =
      if x < -2 ^ (w - 1) then -2 ^ (w - 1) else if 2 ^ (w - 1) - 1 < x then 2 ^ (w - 1) - 1 else x

/-- The loads: bytes read, and how the value is extended (Tables 04-8, 04-11). -/
def Sys2Proof.Machine.loadRows :
    List ((CoreId → Fin 32 → Fin 32 → BitVec 15 → Option PortAccess → Instr) × Nat × (Nat → Word)) :=
  [(.ldw, 4, fun v => BitVec.ofNat 32 v), (.ldh, 2, fun v => (BitVec.ofNat 16 v).signExtend 32),
   (.ldhu, 2, fun v => BitVec.ofNat 32 v), (.ldb, 1, fun v => (BitVec.ofNat 8 v).signExtend 32),
   (.ldbu, 1, fun v => BitVec.ofNat 32 v)]

/-- R83, R104, R208: an aligned load from a bank that accepts the core writes the bytes at ra + offset, extended, to rd, and
rd's poison bit is the word's; nothing else changes, memory included. -/
def Obligations.LoadsReadMemory : Prop :=
  ∀ (c : CoreId) (rd ra : Fin 32) (s : State), s.settled → s.ready c → s.gp (coreKey c) ra = false →
    (∀ row ∈ loadRows, ∀ off : BitVec 15,
      let a := (s.gv (coreKey c) ra + off.signExtend 32).toNat
      a % row.2.1 = 0 → s.memReady [coreIdent c] a →
        runs (row.1 c rd ra off none) s fun t =>
          writesG s t (coreKey c) 4 rd (row.2.2 (s.memVal a row.2.1)) (s.poisoned (a / 8)))
    ∧ ∀ imm : Word,
      let a := (s.gv (coreKey c) ra + imm).toNat
      a % 4 = 0 → s.memReady [coreIdent c] a →
        runs (.ldwl c rd ra imm none) s fun t =>
          writesG s t (coreKey c) 8 rd (BitVec.ofNat 32 (s.memVal a 4)) (s.poisoned (a / 8))

/-- The stores and the bytes each writes (Table 04-8). -/
def Sys2Proof.Machine.storeRows : List ((CoreId → Fin 32 → Fin 32 → BitVec 15 → Option PortAccess → Instr) × Nat) :=
  [(.stw, 4), (.sth, 2), (.stb, 1)]

/-- What a store leaves beside the bytes: the pc past the instruction and the word's poison as it was; of the rest only what
the bank keeps of corrections. -/
def Sys2Proof.Machine.stored (s t : State) (k size a n : Nat) (f : Nat → Byte) : Prop :=
  (∀ x, t.byte x = if a ≤ x ∧ x < a + n then f (x - a) else s.byte x)
    ∧ (∀ w, t.poisoned w = s.poisoned w)
    ∧ (∀ j, j ≠ k → t.core j = s.core j)
    ∧ t.core k = { s.core k with pc := (s.core k).pc + BitVec.ofNat 32 size }
    ∧ t = { s with cores := t.cores, banks := t.banks }

/-- R83, R208, R217, R222: an aligned store to a bank that accepts the core writes the low bytes of rs at ra + offset and no
other byte; a part of a word keeps the word's poison. STWS sets, and STWC clears, in the word there every bit that is 1 in rs. -/
def Obligations.StoresWriteMemory : Prop :=
  (∀ (c : CoreId) (rs ra : Fin 32) (s : State), s.settled → s.ready c → s.gp (coreKey c) ra = false →
     s.gp (coreKey c) rs = false →
     (∀ row ∈ storeRows, ∀ off : BitVec 15,
       let a := (s.gv (coreKey c) ra + off.signExtend 32).toNat
       a % row.2 = 0 → s.memReady [coreIdent c] a →
         runs (row.1 c rs ra off none) s fun t =>
           stored s t (coreKey c) 4 a row.2 fun i => BitVec.ofNat 8 ((s.gv (coreKey c) rs).toNat / 256 ^ i))
     ∧ ∀ imm : Word,
       let a := (s.gv (coreKey c) ra + imm).toNat
       a % 4 = 0 → s.memReady [coreIdent c] a →
         runs (.stwl c rs ra imm none) s fun t =>
           stored s t (coreKey c) 8 a 4 fun i => BitVec.ofNat 8 ((s.gv (coreKey c) rs).toNat / 256 ^ i))
  ∧ ∀ (c : CoreId) (rs ra : Fin 32) (off : BitVec 15) (s : State), s.settled → s.ready c →
      s.gp (coreKey c) ra = false → s.gp (coreKey c) rs = false →
      let a := (s.gv (coreKey c) ra + off.signExtend 32).toNat
      a % 4 = 0 → s.memReady [coreIdent c] a →
        let v := fun i => BitVec.ofNat 8 ((s.gv (coreKey c) rs).toNat / 256 ^ i)
        runs (.stws c rs ra off none) s (fun t => stored s t (coreKey c) 4 a 4 fun i => s.byte (a + i) ||| v i)
        ∧ runs (.stwc c rs ra off none) s (fun t => stored s t (coreKey c) 4 a 4 fun i => s.byte (a + i) &&& ~~~ v i)

/-- R101, R209: a store to a bank that does not accept the tile changes no byte and no poison, is counted in
MEM_OWN_ERR_CNT, and takes ACCESS with the address in EVAL. -/
def Obligations.RefusedStoreTakesAccess : Prop :=
  ∀ (i : Fin 192) (rs ra : Fin 32) (off : BitVec 15) (key : Nat) (s : State), s.settled → s.plain i → s.handles i →
    s.gp i ra = false → s.gp i rs = false →
    let a := s.gv i ra + off.signExtend 32
    a.toNat % 4 = 0 → bankOf a.toNat = some key → s.bankFenced key = false → s.accepts key [Ident.tile i] = false →
      runs (.stw (.tile i) rs ra off none) s fun t =>
        sameBytes s t ∧ (∀ w, t.poisoned w = s.poisoned w) ∧ takesExc s t i 0x03 (some a)
          ∧ (t.reg (Addr.memOwnErrCnt (key / 256))).toNat
            = min ((s.reg (Addr.memOwnErrCnt (key / 256))).toNat + 1) 0xFFFFFFFF

/-- The conditional branches on two registers (Table 04-9). -/
def Sys2Proof.Machine.branchRows : List ((CoreId → Fin 32 → Fin 32 → BitVec 15 → Instr) × (Word → Word → Bool)) :=
  [(.beq, fun a b => a == b), (.bne, fun a b => a != b), (.blt, fun a b => decide (a.toInt < b.toInt)),
   (.bge, fun a b => decide (b.toInt ≤ a.toInt)), (.bltu, fun a b => decide (a.toNat < b.toNat)),
   (.bgeu, fun a b => decide (b.toNat ≤ a.toNat))]

/-- Of the whole state only the pc of core k differs. -/
def Sys2Proof.Machine.goesTo (s t : State) (k : Nat) (a : Word) : Prop :=
  onlyCore s t k ∧ t.core k = { s.core k with pc := a }

/-- Tables 04-9 and 04-11: a conditional branch goes to its target where its condition holds, and to the next instruction where it
does not, and changes nothing else; JAL and JR link to the next instruction and go to their target, JL goes to its target. The
displacement counts from the branch: the model's choice (log 48). -/
def Obligations.BranchesAndJumps : Prop :=
  (∀ (c : CoreId) (disp : BitVec 15) (s : State), s.settled → s.ready c →
     let pc := (s.core (coreKey c)).pc
     (∀ row ∈ branchRows, ∀ ra rb : Fin 32, s.gp (coreKey c) ra = false → s.gp (coreKey c) rb = false →
       runs (row.1 c ra rb disp) s fun t =>
         goesTo s t (coreKey c)
           (if row.2 (s.gv (coreKey c) ra) (s.gv (coreKey c) rb) then pc + (disp.signExtend 32 <<< 2) else pc + 4))
     ∧ (isZelfaCore c = false → runs (.bcpb c disp) s fun t =>
       goesTo s t (coreKey c) (if (s.core (coreKey c)).cpBusy.isSome then pc + (disp.signExtend 32 <<< 2) else pc + 4)))
  ∧ ∀ (c : CoreId) (rd : Fin 32) (s : State), s.settled → s.ready c →
      let k := coreKey c
      let pc := (s.core k).pc
      let linked := fun (t : State) (a : Word) => onlyCore s t k ∧ (t.core k).pc = a
        ∧ ∀ r, (t.core k).gv r = if r = rd ∧ rd.val ≠ 0 then pc + 4 else (s.core k).gv r
      (∀ disp, runs (.jal c rd disp) s fun t => linked t (pc + (disp.signExtend 32 <<< 2)))
      ∧ (∀ ra : Fin 32, s.gp k ra = false → (s.gv k ra).toNat % 4 = 0 → runs (.jr c rd ra) s fun t => linked t (s.gv k ra))
      ∧ ∀ target, runs (.jl c target) s fun t => goesTo s t k target

/-- R85, R87, R89: REP waits to repeat the next instruction as often as its count says: an ADD under it adds its second source
that often, or as many times as the REP's `part` operand lets the sequence come, with the rest still to do. LOOP opens its body with its count, or skips it where the count is 0; the instruction at the end of the body goes back
to its start while more than one iteration is left, and ends the loop after the last. -/
def Obligations.RepAndLoop : Prop :=
  (∀ (c : CoreId) (ra len : Fin 32) (s : State), s.settled → s.ready c →
     let k := coreKey c
     let pc := (s.core k).pc
     let rep := fun (t : State) (n : Nat) (part : BitVec 16) => onlyCore s t k
       ∧ t.core k = { s.core k with rep := some (n, pc), repPart := part.toNat, pc := pc + 4 }
     let loop := fun (t : State) (size : Word) (n : Nat) => onlyCore s t k ∧ t.core k =
       (if n = 0 then { s.core k with pc := pc + size + BitVec.ofNat 32 (4 * (len.val + 1)) }
       else { s.core k with lc := BitVec.ofNat 32 n, ls := pc + size, pc := pc + size
                            le := pc + size + BitVec.ofNat 32 (4 * (len.val + 1)) })
     (∀ n part, runs (.repImm c n part) s fun t => rep t n.toNat part)
     ∧ (∀ part, s.gp k ra = false → (s.gv k ra).toNat ≤ 65535 → runs (.repReg c ra part) s fun t => rep t (s.gv k ra).toNat part)
     ∧ (s.gp k ra = false → (s.gv k ra).toNat ≤ 16777215 → runs (.loop c ra len .ok) s fun t => loop t 4 (s.gv k ra).toNat)
     ∧ ∀ n, runs (.loopl c n len .ok) s fun t => loop t 8 n.toNat)
  ∧ (∀ (c : CoreId) (rd rb : Fin 32) (n : Nat) (at' : Word) (s : State), s.settled → coreEncoded c = true → rd.val ≠ 0 →
       rd ≠ rb → (s.core (coreKey c)).state = 1 → (s.core (coreKey c)).rep = some (n, at') → (s.core (coreKey c)).mtc = none →
       (s.core (coreKey c)).lc = 0 → (s.core (coreKey c)).haltPend = false →
         let part := (s.core (coreKey c)).repPart
         let m := if part = 0 then n else min part n
         runs (.add c rd rd rb) s fun t =>
           onlyCore s t (coreKey c)
           ∧ (t.core (coreKey c)).gv rd = s.gv (coreKey c) rd + BitVec.ofNat 32 m * s.gv (coreKey c) rb
           ∧ (∀ r, r ≠ rd.val → (t.core (coreKey c)).gv r = (s.core (coreKey c)).gv r)
           ∧ (t.core (coreKey c)).rep = (if m < n then some (n - m, at') else none)
           ∧ (t.core (coreKey c)).pc = if m < n then (s.core (coreKey c)).pc else (s.core (coreKey c)).pc + 4)
  ∧ ∀ (c : CoreId) (s : State), s.settled → coreEncoded c = true →
      let k := coreKey c
      let x := s.core k
      x.state = 1 → x.rep = none → x.mtc = none → x.lc ≠ 0 → x.ls.toNat ≤ x.pc.toNat → x.pc.toNat < x.le.toNat →
      x.pc + 4 = x.le →
        runs (.fence c) s fun t => onlyCore s t k ∧ t.core k =
          if 1 < x.lc.toNat then { x with lc := x.lc - 1, pc := x.ls } else { x with lc := 0, pc := x.le }

/-- The numbers of the CSRs that firmware of either kind of core may write (Table 04-12). -/
def Sys2Proof.Machine.sharedCsrs : List Nat := [0x001, 0x002, 0x010, 0x011, 0x012]

/-- R84: MTC puts a clean G register into a writable CSR, and MFC reads a CSR into a G register; both go on and leave the rest
alone, but that reading ZCYCLE_LO latches ZCYCLE_HI. An unlisted number takes ILLEGAL, and MTC to a read-only one too. -/
def Obligations.CsrsReadAndWrite : Prop :=
  ∀ (c : CoreId) (r : Fin 32) (n : BitVec 12) (s : State), s.settled → s.ready c →
    let k := coreKey c
    (∀ x, s.gp k r = false → (s.core k).putCsr k n.toNat (s.gv k r) = some x →
      runs (.mtc c r n false) s fun t => onlyCore s t k ∧ t.core k = { x with pc := (x.advance 4).pc, lc := (x.advance 4).lc })
    ∧ (n.toNat ∈ sharedCsrs → ∃ x, (s.core k).putCsr k n.toNat (s.gv k r) = some x ∧ x.csrBoth n.toNat = some (s.gv k r))
    ∧ (∀ early v, s.csr k n.toNat early = some v → (isZelfaCore c = false ∨ n ≠ 0x00A) →
      runs (.mfc c r n early) s fun t => writesG s t k 4 r v false)
    ∧ (∀ early v, s.csr k 0x00A early = some v → isZelfaCore c = true →
      runs (.mfc c r 0x00A early) s fun t => onlyCore s t k ∧ (t.core k).pc = (s.core k).pc + 4
        ∧ (∀ j, (t.core k).gv j = if j = r.val ∧ r.val ≠ 0 then v else (s.core k).gv j)
        ∧ (t.core k).zcycleHi = BitVec.ofNat 32 (s.zCycles (s.core k) / 2 ^ 32))
    ∧ (s.hasHandler k → ∀ early soon,
      (s.csr k n.toNat early = none → runs (.mfc c r n early) s fun t => takesExc s t k 0x01 none)
      ∧ ((s.core k).putCsr k n.toNat (s.gv k r) = none → runs (.mtc c r n soon) s fun t => takesExc s t k 0x01 none))

/-- R99, R101, R107, Table 04-10: FENCE and CPWAIT on an idle coprocessor go on, ERET returns to EPC and leaves the handler,
and SETRES sets the result its operand names of the running job; of two values in one cycle that of the higher stage index
stays. -/
def Obligations.ControlInstructions : Prop :=
  ∀ (c : CoreId) (s : State), s.settled → s.ready c →
    let k := coreKey c
    let pc := (s.core k).pc
    runs (.fence c) s (fun t => goesTo s t k (pc + 4))
    ∧ runs (.eret c) s (fun t => onlyCore s t k ∧ t.core k = { s.core k with pc := (s.core k).epc, inHandler := false })
    ∧ (isZelfaCore c = false → (s.core k).cpBusy = none → runs (.cpwait c) s fun t => goesTo s t k (pc + 4))
    ∧ ∀ (ra : Fin 32) (n : Fin 4) (same : Bool) (j : Job), isZelfaCore c = false → s.gp k ra = false →
      s.job (s.core k).job = some j →
      let by' := SMap.get (fun _ => 0) j.resultBy n
      runs (.setres c ra n same) s fun t =>
        t.job (s.core k).job = some (if same = true ∧ (s.core k).stage < by' then j
          else { j with results := SMap.set noWord j.results n (s.gv k ra)
                        resultBy := SMap.set (fun _ => 0) j.resultBy n (s.core k).stage })
          ∧ t.core k = { s.core k with pc := pc + 4 } ∧ t.regs = s.regs ∧ sameBytes s t

/-- R101, R103, R402: BRK on a tile with a handler saves the pc in EPC, 0x08 in ECAUSE and its code in EVAL, counts the exception
and goes to TVEC; without a handler, or inside it, it halts the core, which TILE_STAT and TILE_UNHANDLED_CNT show. The pending
and enabled CPDONE interrupt of a tile, and a pending and enabled source n of a Zelfa core, are taken between instructions
with codes 0x10 and 0x20 + n. -/
def Obligations.CoreExceptions : Prop :=
  (∀ (i : Fin 192) (code : BitVec 16) (s : State), s.settled → s.plain i →
     (s.handles i → runs (.brk (.tile i) code) s fun t =>
       takesExc s t i 0x08 (some (code.setWidth 32))
         ∧ (t.reg (Addr.tileExcCnt i)).toNat = min ((s.reg (Addr.tileExcCnt i)).toNat + 1) 0xFFFFFFFF
         ∧ t.fget (Addr.tileStat i) Fld.tileStatLastCause = 0x08 ∧ onlyRegs s { t with cores := s.cores }
           [Addr.tileExcCnt i, Addr.tileStat i])
     ∧ ((s.core i).tvec = 0 ∨ (s.core i).inHandler = true → runs (.brk (.tile i) code) s fun t =>
       (t.core i).state = 2 ∧ t.fget (Addr.tileStat i) Fld.tileStatState = 2
         ∧ (t.reg (Addr.tileUnhandledCnt i)).toNat = min ((s.reg (Addr.tileUnhandledCnt i)).toNat + 1) 0xFFFFFFFF))
  ∧ ∀ (s : State), s.settled →
      (∀ i : Fin 192, s.plain i → s.handles i → (s.core i).cpDonePend = true → (s.core i).ien.getLsbD 0 = true →
        runs (.cpdoneInterrupt i) s fun t =>
          takesExc { s with cores := SMap.set (fun _ => Core.init) s.cores i { s.core i with cpDonePend := false } } t i 0x10
            none)
      ∧ ∀ (z : Fin 8) (n : Fin 12), s.plain (192 + z.val) → s.handles (192 + z.val) →
        (s.core (192 + z.val)).zien.getLsbD n = true → bitOf s.zPending n = true →
          runs (.zelfaInterrupt z n) s fun t => takesExc s t (192 + z.val) (0x20 + n.val) none

/-- No memory cell differs from what was stored, and none is stuck. -/
def Sys2Proof.Machine.cellsGood (s : State) : Prop :=
  ∀ w, SMap.get noFlips s.banks.flips w = 0 ∧ SMap.get noMask s.banks.stuckMask w = 0

/-- The coprocessor's operations and their codes (Table 04-14). -/
def Sys2Proof.Machine.cpRows : List ((CoreId → Fin 32 → Fin 32 → Bool → Instr) × Nat) :=
  [(.cpCrecip, 0x01), (.cpSqrt, 0x02), (.cpAtan2, 0x03), (.cpTopk, 0x04), (.cpCrc, 0x05), (.cpScramb, 0x06),
   (.cpIntlv, 0x07)]

/-- R94 to R100: CPX on an idle coprocessor sets BUSY, goes on and writes no byte yet where no bank of its scratchpad is in
handover and every cell is good; until its commit signal CPST shows BUSY beside what it showed, and after it BUSY, the operation
and VALID = 0. A squashed CPX leaves no trace. When the operation completes, BUSY clears, VALID is
set with its code, and with IEN[0] the CPDONE interrupt becomes pending; one that failed its checks writes no byte. -/
def Obligations.CoprocessorOperations : Prop :=
  (∀ row ∈ cpRows, ∀ (i : Fin 192) (ra rb : Fin 32) (s : State), s.settled → s.plain i →
     gives (row.1 (.tile i) ra rb true) s s
     ∧ (s.gp i ra = false → s.gp i rb = false → (s.core i).cpBusy = none → cellsGood s →
         (∀ n, n < 8 → s.pendingHandover (i.val / 8 * 256 + 8 * (i.val % 8) + n) = false) → runs (row.1 (.tile i) ra rb false) s fun t =>
         sameBytes s t ∧ (∀ j, j ≠ i.val → t.core j = s.core j)
         ∧ ∃ op, t.core i = { s.core i with
             cpBusy := some op, pc := (s.core i).pc + 4 }
         ∧ op.code = row.2 ∧ (t.core i).cpst false = BitVec.ofNat 32 (2 ^ 31 + row.2 * 2 ^ 16)
         ∧ (t.core i).cpst true = BitVec.ofNat 32 (2 ^ 31 + ((s.core i).cpst false).toNat)))
  ∧ ∀ (i : Fin 192) (op : CpOp) (s : State), s.settled → cellsGood s → (s.core i).cpBusy = some op →
      runs (.coprocessorDone i) s fun t =>
        (t.core i).cpBusy = none ∧ (t.core i).cpValid = true ∧ (t.core i).cpOp = BitVec.ofNat 8 op.code
        ∧ ((s.core i).ien.getLsbD 0 = true → (t.core i).cpDonePend = true)
        ∧ (1 ≤ op.err ∧ op.err ≤ 3 → sameBytes s t ∧ (t.core i).cpErr = BitVec.ofNat 4 op.err)

/-! ### Vector instructions -/

/-- A tile's core runs plainly and no doubt waits: what a vector instruction asks of the state. -/
def Sys2Proof.Machine.vecReady (s : State) (c : CoreId) : Prop :=
  s.settled ∧ s.ready c ∧ isZelfaCore c = false

/-- Elements of w bits of the group at Vd after an instruction: `new j` is the value and poison written to element j, if it is
written. A granule is poisoned by any poisoned element written in it, and by nothing else (R111, R133). -/
def Sys2Proof.Machine.vecElems (x y : Core) (d w : Nat) (new : Nat → Option (Nat × Bool)) : Prop :=
  (∀ r, r < d → y.vreg r = x.vreg r ∧ SMap.get noGran y.vPoison r = SMap.get noGran x.vPoison r)
    ∧ (∀ j, y.velem d w j = match new j with | some e => e.1 | none => x.velem d w j)
    ∧ (∀ j e, new j = some e → e.2 = true → y.vpois d w j = true)
    ∧ ∀ j, y.vpois d w j = true →
        x.vpois d w j = true ∨ ∃ i e, new i = some e ∧ e.2 = true ∧ granKey d w i = granKey d w j

/-- Of the whole state only the vector registers, their poison, VSAT, VSTART, G registers and the pc of core k differ: VSTART
is 0 and the pc past the instruction. -/
def Sys2Proof.Machine.vecCore (s t : State) (k size : Nat) : Prop :=
  onlyCore s t k ∧ t.core k = { s.core k with
    v := (t.core k).v, vPoison := (t.core k).vPoison, vsat := (t.core k).vsat, g := (t.core k).g
    gPoison := (t.core k).gPoison, vstart := 0, pc := (s.core k).pc + BitVec.ofNat 32 size }

/-- G registers keep value and poison, but that a C(Gvs2)+ operand advances Gvs2 by the element's bytes (R118). -/
def Sys2Proof.Machine.stepsG (s t : State) (k : Nat) (x : VArith) (w : Nat) : Prop :=
  (∀ r, t.gv k r = if x.k = 3 ∧ r = x.vs2.val ∧ r ≠ 0 then s.gv k r + BitVec.ofNat 32 (w / 8) else s.gv k r)
    ∧ ∀ r, t.gp k r = s.gp k r

/-- G registers keep value and poison. -/
def Sys2Proof.Machine.keepsG (s t : State) (k : Nat) : Prop := ∀ r, t.gv k r = s.gv k r ∧ t.gp k r = s.gp k r

/-- The elements written by R114: the active ones of `idx` take value and poison, the inactive ones become zero with MZ. -/
def Sys2Proof.Machine.vecNew (idx : List Nat) (act : Nat → Bool) (mz : Bool) (f : Nat → Nat × Bool × Bool) (j : Nat) :
    Option (Nat × Bool) :=
  if idx.contains j then if act j then some ((f j).1, (f j).2.1) else if mz then some (0, false) else none else none

/-- What an element-wise instruction leaves in elements of dw bits at Vd and in VSAT (R114, R116, R124); `f j` is the value,
poison and clipping of element j. -/
def Sys2Proof.Machine.vecResult (s t : State) (k d dw : Nat) (idx : List Nat) (act : Nat → Bool) (mz sat : Bool)
    (f : Nat → Nat × Bool × Bool) : Prop :=
  vecCore s t k 4 ∧ vecElems (s.core k) (t.core k) d dw (vecNew idx act mz f)
    ∧ ((t.core k).vsat = true ↔ (s.core k).vsat = true ∨ sat = true ∧ ∃ j ∈ idx, act j = true ∧ (f j).2.2 = true)

/-- The second operand of element i by its kind: register group, G register or one element of memory (R118). -/
def Sys2Proof.Machine.op2Val (s : State) (k : Nat) (x : VArith) (w i : Nat) : Nat × Bool :=
  if x.k = 0 then ((s.core k).velem x.vs2 w i, (s.core k).vpois x.vs2 w i)
  else if x.k = 1 then ((s.gv k x.vs2).toNat % 2 ^ w, s.gp k x.vs2)
  else (s.memVal (s.gv k x.vs2).toNat (w / 8), s.poisoned ((s.gv k x.vs2).toNat / 8))

/-- The operands of an arithmetic instruction can be read: group numbers are multiples of g, a C operand is aligned, in a
bank that accepts the core and met by no other access, and an unmasked instruction names M0 (R112, R114, R118). -/
def Sys2Proof.Machine.op2Ready (s : State) (c : CoreId) (x : VArith) (t : VT) : Prop :=
  x.vs1.val % t.g = 0 ∧ (x.k = 0 → x.vs2.val % t.g = 0) ∧ (x.men = false → x.m = 0)
    ∧ (2 ≤ x.k.val → x.other = none ∧ s.gp (coreKey c) x.vs2 = false ∧ (s.gv (coreKey c) x.vs2).toNat % (t.w / 8) = 0
        ∧ s.memReady [coreIdent c] (s.gv (coreKey c) x.vs2).toNat)

/-- An operation on each part of the elements, exact in the integers, narrowed under SAT (R113, R124). -/
def Sys2Proof.Machine.partRow (g : Nat → Nat → Int → Int → Int) (sat : Bool) (rm : Nat) (t : VT) (a b : Nat) : Nat × Bool :=
  liftParts t.cplx sat t.pw t.pw t.pw (fun pa pb p => g rm t.pw (pa p) (pb p)) a b

/-- A fractional product of complex numbers (R122). -/
def Sys2Proof.Machine.cplxRow (conj : Bool) (sat : Bool) (rm : Nat) (_ : VT) (a b : Nat) : Nat × Bool :=
  liftParts true sat 16 16 16 (fun pa pb p =>
    let ai := if conj then -pa 1 else pa 1
    roundShift rm (if p = 0 then pa 0 * pb 0 - ai * pb 1 else pa 0 * pb 1 + ai * pb 0) 15) a b

/-- The element-wise instructions of two operands: which types they are defined for, and the element they give, with
whether it was clipped, from SAT, RM, the type and the operands (R113, R122, R123, Table 05-9). -/
def Sys2Proof.Machine.vecRows :
    List ((CoreId → VArith → Instr) × (VT → Bool) × (Bool → Nat → VT → Nat → Nat → Nat × Bool)) :=
  [(.vadd, fun _ => true, partRow fun _ _ a b => a + b), (.vsub, fun _ => true, partRow fun _ _ a b => a - b),
   (.vrsub, fun _ => true, partRow fun _ _ a b => b - a), (.vmin, fun _ => true, partRow fun _ _ a b => min a b),
   (.vmax, fun _ => true, partRow fun _ _ a b => max a b),
   (.vand, fun _ => true, fun _ _ _ a b => (a &&& b, false)), (.vor, fun _ => true, fun _ _ _ a b => (a ||| b, false)),
   (.vxor, fun _ => true, fun _ _ _ a b => (a ^^^ b, false)),
   (.vshl, fun _ => true, partRow fun _ w a b => a * 2 ^ (b % w).toNat),
   (.vshr, fun _ => true, partRow fun _ w a b => toSigned w (ofSigned w a / 2 ^ (b % w).toNat)),
   (.vsra, fun _ => true, partRow fun _ w a b => a / 2 ^ (b % w).toNat),
   (.vsrar, fun _ => true, partRow fun rm w a b => roundShift rm a (b % w).toNat),
   (.vmul, fun _ => true, fun _ => partRow (fun _ _ a b => a * b) false),
   (.vmulq, fun _ => true, partRow fun rm w a b => roundShift rm (a * b) (w - 1)),
   (.vcmulq, fun t => t.cplx, cplxRow false), (.vcmulcq, fun t => t.cplx, cplxRow true)]

/-- R110 to R118, R122 to R124, R133: an element-wise instruction on two operands of any kind writes each active element from
VSTART to vl − 1, treats inactive and tail elements and poison as the rules say, and VMERGE chooses by its mask, every
granule of its result being poisoned by a poisoned broadcast. -/
def Obligations.VectorElements : Prop :=
  ∀ (c : CoreId) (x : VArith) (s : State), vecReady s c →
    let k := coreKey c
    let co := s.core k
    let t := co.vt
    x.vd.val % t.g = 0 → op2Ready s c x t →
      (∀ row ∈ vecRows, row.2.1 t = true → runs (row.1 c x) s fun u =>
        stepsG s u k x t.w ∧ vecResult s u k x.vd t.w t.indices (co.active x.men x.m) x.mz x.sat fun i =>
          let r := row.2.2 x.sat co.rm.toNat t (co.velem x.vs1 t.w i) (op2Val s k x t.w i).1
          (r.1, co.vpois x.vs1 t.w i || (op2Val s k x t.w i).2, r.2))
      ∧ (x.men = true → runs (.vmerge c x) s fun u =>
        stepsG s u k x t.w ∧ vecResult s u k x.vd t.w t.indices (fun _ => true) false false fun i =>
          if (co.mreg x.m).getLsbD i then ((op2Val s k x t.w i).1, (op2Val s k x t.w i).2, false)
          else (co.velem x.vs1 t.w i, co.vpois x.vs1 t.w i || (x.k != 0 && (op2Val s k x t.w i).2), false))

/-- The element-wise instructions of one operand, when each is defined (VABS with K and vs2 0), and the part it gives
from a part (R113, R126). -/
def Sys2Proof.Machine.vecUnaryRows : List ((CoreId → VArith → Instr) × (VArith → VT → Bool) × (Nat → (Nat → Int) → Nat → Int)) :=
  [(.vabs, fun x _ => x.k == 0 && x.vs2 == 0, fun _ a p => if a p < 0 then -(a p) else a p),
   (.vconj, fun _ t => t.cplx, fun _ a p => if p = 0 then a 0 else -(a 1)),
   (.vnorm, fun _ _ => true, fun w a p => toSigned w (ofSigned w (a p) * 2 ^ expW w (ofSigned w (a p)))),
   (.vexp, fun _ _ => true, fun w a p => expW w (ofSigned w (a p)))]

/-- R112, R113, R125, R126: the one-operand instructions work on each part, VWCVT widens each part, and VNRW divides each
double-width part by 2^s, rounds it by RM and narrows it. -/
def Obligations.VectorOneOperand : Prop :=
  ∀ (c : CoreId) (x : VArith) (s : State), vecReady s c → (x.men = false → x.m = 0) →
    let k := coreKey c
    let co := s.core k
    let t := co.vt
    let act := co.active x.men x.m
    (∀ row ∈ vecUnaryRows, row.2.1 x t = true → x.vd.val % t.g = 0 → x.vs1.val % t.g = 0 →
      runs (row.1 c x) s fun u => keepsG s u k ∧ vecResult s u k x.vd t.w t.indices act x.mz x.sat fun i =>
        let r := liftParts t.cplx x.sat t.pw t.pw t.pw (fun pa _ p => row.2.2 t.pw pa p) (co.velem x.vs1 t.w i) 0
        (r.1, co.vpois x.vs1 t.w i, r.2))
    ∧ (t.g ≠ 8 → t.int32 = false → x.vd.val % (2 * t.g) = 0 → x.vs1.val % t.g = 0 →
      (x.vd.val + 2 * t.g ≤ x.vs1.val ∨ x.vs1.val + t.g ≤ x.vd.val) →
      runs (.vwcvt c x) s fun u => keepsG s u k ∧ vecResult s u k x.vd (2 * t.w) t.indices act x.mz false fun i =>
        let r := liftParts t.cplx false t.pw 1 (2 * t.pw) (fun pa _ p => pa p) (co.velem x.vs1 t.w i) 0
        (r.1, co.vpois x.vs1 t.w i, false))
    ∧ (t.g ≠ 8 → t.int32 = false → x.k = 0 → x.vd.val % t.g = 0 → x.vs1.val % (2 * t.g) = 0 → x.vs2.val < 2 * t.pw →
      (x.vd.val + t.g ≤ x.vs1.val ∨ x.vs1.val + 2 * t.g ≤ x.vd.val) →
      runs (.vnrw c x) s fun u => keepsG s u k ∧ vecResult s u k x.vd t.w t.indices act x.mz x.sat fun i =>
        let r := liftParts t.cplx x.sat (2 * t.pw) 1 t.pw (fun pa _ p => roundShift co.rm.toNat (pa p) x.vs2)
          (co.velem x.vs1 (2 * t.w) i) 0
        (r.1, co.vpois x.vs1 (2 * t.w) i, r.2))

/-- The accumulating instructions, the types they are defined for, and the exact product of each part (R113, R125). -/
def Sys2Proof.Machine.macRows : List ((CoreId → VArith → Instr) × (VT → Bool) × ((Nat → Int) → (Nat → Int) → Nat → Int)) :=
  [(.vmacw, fun t => !t.int32, fun a b p => a p * b p), (.vmscw, fun t => !t.int32, fun a b p => -(a p * b p)),
   (.vcmacw, fun t => t.cplx, fun a b p => if p = 0 then a 0 * b 0 - a 1 * b 1 else a 0 * b 1 + a 1 * b 0),
   (.vcmaccw, fun t => t.cplx, fun a b p => if p = 0 then a 0 * b 0 + a 1 * b 1 else a 0 * b 1 - a 1 * b 0)]

/-- R125: the accumulating instructions add the exact product of each part to a destination part of twice the width, and
saturate or wrap once, after the addition. -/
def Obligations.VectorAccumulates : Prop :=
  ∀ row ∈ macRows, ∀ (c : CoreId) (x : VArith) (s : State), vecReady s c →
    let k := coreKey c
    let co := s.core k
    let t := co.vt
    row.2.1 t = true → t.g ≠ 8 → x.vd.val % (2 * t.g) = 0 → op2Ready s c x t →
    (x.vd.val + 2 * t.g ≤ x.vs1.val ∨ x.vs1.val + t.g ≤ x.vd.val) →
    (x.k = 0 → x.vd.val + 2 * t.g ≤ x.vs2.val ∨ x.vs2.val + t.g ≤ x.vd.val) →
      runs (row.1 c x) s fun u =>
        stepsG s u k x t.w ∧ vecResult s u k x.vd (2 * t.w) t.indices (co.active x.men x.m) x.mz x.sat fun i =>
          let d := co.velem x.vd (2 * t.w) i
          let r := liftParts t.cplx x.sat t.pw t.pw (2 * t.pw)
            (fun pa pb p => toSigned (2 * t.pw) (d / 2 ^ (2 * t.pw * p)) + row.2.2 pa pb p) (co.velem x.vs1 t.w i)
            (op2Val s k x t.w i).1
          (r.1, co.vpois x.vs1 t.w i || (op2Val s k x t.w i).2 || co.vpois x.vd (2 * t.w) i, r.2)

/-- Of the whole state only mask register m of core k, its G registers, its pc and VSTART differ. -/
def Sys2Proof.Machine.maskOnly (s t : State) (k m : Nat) : Prop :=
  onlyCore s t k ∧ (∀ r, r ≠ m → (t.core k).mreg r = (s.core k).mreg r)
    ∧ t.core k = { s.core k with
        masks := (t.core k).masks, g := (t.core k).g, gPoison := (t.core k).gPoison, vstart := 0, pc := (s.core k).pc + 4 }

/-- The signed compares (R115). -/
def Sys2Proof.Machine.cmpRows : List ((CoreId → VArith → Instr) × (Int → Int → Bool)) :=
  [(.vcmpeq, fun a b => a == b), (.vcmplt, fun a b => decide (a < b)), (.vcmple, fun a b => decide (a ≤ b))]

/-- R113, R115, R133: a compare of clean elements writes the bit of every active element of the destination mask, inactive
bits follow MZ, and every other bit stays. R115: the mask operations act on all 1,024 bits, MSETVL sets the bits below
vl, and MPOPC and MFIRST count and find the set bits below vl. With VSTART > 0 they process bits VSTART to vl − 1 only and a
restart at or beyond vl writes nothing: the model's choice (R116, log 52). -/
def Obligations.MaskResults : Prop :=
  (∀ row ∈ cmpRows, ∀ (c : CoreId) (x : VArith) (s : State), vecReady s c →
     let k := coreKey c
     let co := s.core k
     let t := co.vt
     let act := co.active x.men x.m
     x.vd.val < 8 → t.cplx = false → op2Ready s c x t →
     (∀ i ∈ t.indices, act i = true → co.vpois x.vs1 t.w i = false ∧ (op2Val s k x t.w i).2 = false) →
       runs (row.1 c x) s fun u => maskOnly s u k x.vd ∧ stepsG s u k x t.w ∧ ∀ i, i < 1024 →
         ((u.core k).mreg x.vd).getLsbD i =
           if t.indices.contains i then
             if act i then row.2 (toSigned t.w (co.velem x.vs1 t.w i)) (toSigned t.w (op2Val s k x t.w i).1)
             else !x.mz && (co.mreg x.vd).getLsbD i
           else (co.mreg x.vd).getLsbD i)
  ∧ ∀ (c : CoreId) (md ms1 ms2 : Fin 8) (rd : Fin 32) (s : State), vecReady s c →
      let k := coreKey c
      let co := s.core k
      let puts := fun (i : Instr) (f : Nat → Bool) =>
        runs i s fun t => maskOnly s t k md ∧ keepsG s t k ∧ ∀ j, j < 1024 → ((t.core k).mreg md).getLsbD j =
          if co.vstart = 0 ∨ (co.vstart.toNat ≤ j ∧ j < co.vl.toNat) then f j else (co.mreg md).getLsbD j
      let below := fun j => decide (co.vstart.toNat ≤ j) && decide (j < co.vl.toNat) && (co.mreg ms1).getLsbD j
      let past := co.vstart ≠ 0 ∧ co.vl.toNat ≤ co.vstart.toNat
      puts (.mand c md ms1 ms2) (fun j => (co.mreg ms1).getLsbD j && (co.mreg ms2).getLsbD j)
      ∧ puts (.mor c md ms1 ms2) (fun j => (co.mreg ms1).getLsbD j || (co.mreg ms2).getLsbD j)
      ∧ puts (.mxor c md ms1 ms2) (fun j => (co.mreg ms1).getLsbD j ^^ (co.mreg ms2).getLsbD j)
      ∧ puts (.mandn c md ms1 ms2) (fun j => (co.mreg ms1).getLsbD j && !(co.mreg ms2).getLsbD j)
      ∧ puts (.mnot c md ms1) (fun j => !(co.mreg ms1).getLsbD j)
      ∧ puts (.msetvl c md) (fun j => decide (j < co.vl.toNat))
      ∧ (past → runs (.mpopc c rd ms1) s (fun t => writesG (s.modCore k fun y => { y with vstart := 0 }) t k 4 0 0 false)
        ∧ runs (.mfirst c rd ms1) s fun t => writesG (s.modCore k fun y => { y with vstart := 0 }) t k 4 0 0 false)
      ∧ (¬ past → runs (.mpopc c rd ms1) s fun t => writesG (s.modCore k fun y => { y with vstart := 0 }) t k 4 rd
        (BitVec.ofNat 32 ((List.range 1024).filter below).length) false)
      ∧ (∀ n : Nat, below n = true → (∀ j, j < n → below j = false) → runs (.mfirst c rd ms1) s fun t =>
        writesG (s.modCore k fun y => { y with vstart := 0 }) t k 4 rd (BitVec.ofNat 32 n) false)
      ∧ (¬ past → (∀ j, below j = false) → runs (.mfirst c rd ms1) s fun t =>
        writesG (s.modCore k fun y => { y with vstart := 0 }) t k 4 rd 0xFFFFFFFF false)

/-- The group ×1, ×2, ×4 or ×8 and the element type that VSETL and VSETLI name. -/
def Sys2Proof.Machine.setsVl (s t : State) (k size : Nat) (rd : Fin 32) (avl : Nat) (grp ew : Fin 4) : Prop :=
  let w := if ew = 0 then 8 else if ew = 1 then 16 else 32
  let vl := min avl (1024 * 2 ^ grp.val / w)
  writesG (s.modCore k fun y => { y with
    vl := BitVec.ofNat 11 vl, vtype := BitVec.ofNat 4 (grp.val * 4 + ew.val), vstart := 0 }) t k size rd (BitVec.ofNat 32 vl) false

/-- R110, R131, Table 05-8: VSETL and VSETLI set VL to the smaller of the request and VLMAX, write it to rd and set VTYPE;
VBCST sets every element from VSTART to vl − 1; VCLR clears r registers whatever vl and the mask, with VSTART > 0 from element
VSTART on (R116). -/
def Obligations.VectorLengthAndClear : Prop :=
  ∀ (c : CoreId) (s : State), vecReady s c →
    let k := coreKey c
    let co := s.core k
    let t := co.vt
    (∀ (rd ra : Fin 32) (grp ew : Fin 4), s.gp k ra = false →
      runs (.vsetl c rd ra grp ew) s fun u => setsVl s u k 4 rd (s.gv k ra).toNat grp ew)
    ∧ (∀ (rd : Fin 32) (avl : BitVec 24) (grp ew : Fin 4),
      runs (.vsetli c rd avl grp ew) s fun u => setsVl s u k 8 rd avl.toNat grp ew)
    ∧ (∀ (vd : Fin 32) (imm : Word), vd.val % t.g = 0 → runs (.vbcst c vd imm) s fun u =>
      vecCore s u k 8 ∧ keepsG s u k ∧ (u.core k).vsat = co.vsat
        ∧ vecElems co (u.core k) vd t.w
          (vecNew t.indices (fun _ => true) false fun _ => (imm.toNat % 2 ^ t.w, false, false)))
    ∧ ∀ x : VArith, x.vs2.val ∈ [1, 2, 4, 8] → x.vd.val % x.vs2.val = 0 → x.k = 0 → (x.men = false → x.m = 0) →
      runs (.vclr c x) s fun u => vecCore s u k 4 ∧ keepsG s u k ∧ (u.core k).vsat = co.vsat
        ∧ (co.vstart = 0 → ∀ r,
          (u.core k).vreg r = (if x.vd.val ≤ r ∧ r < x.vd.val + x.vs2.val then 0 else co.vreg r)
            ∧ SMap.get noGran (u.core k).vPoison r =
              if x.vd.val ≤ r ∧ r < x.vd.val + x.vs2.val then 0 else SMap.get noGran co.vPoison r)
        ∧ (co.vstart ≠ 0 → vecElems co (u.core k) x.vd t.w fun j =>
          if t.start ≤ j ∧ j < 1024 * x.vs2.val / t.w then some (0, false) else none)

/-- The operands of VBEXPS, VSHRS, VPACK and VUNPACK allow restart from the first element and hold whole segments (R116,
R130). -/
def Sys2Proof.Machine.wholeSegments (co : Core) : Prop :=
  co.vstart = 0 ∧ co.vseg ≠ 0 ∧ co.vseg.toNat ≤ co.vt.vlmax ∧ co.vl.toNat % co.vseg.toNat = 0

/-- The smallest EXP over the parts of some elements, w − 1 where there is none (R127). -/
def Sys2Proof.Machine.isBlockMin (t : VT) (vals : List Nat) (h : Nat) : Prop :=
  h ≤ t.pw - 1 ∧ (∀ v ∈ vals, ∀ p ∈ t.parts v, h ≤ expW t.pw p)
    ∧ (h = t.pw - 1 ∨ ∃ v ∈ vals, ∃ p ∈ t.parts v, h = expW t.pw p)

/-- The block exponent for m, from the smallest EXP (R127). -/
def Sys2Proof.Machine.expOf (t : VT) (m h : Nat) : Nat := if m = 0 then h else t.pw - m - h

/-- R127, R128, R130: VBEXP writes the block exponent of the active elements to a G register, VBEXPS one exponent a segment to
the elements of vd, and VSHRS divides each element by 2^e of its segment, an element of op2 of any kind, rounding by RM. -/
def Obligations.BlockFloatingPoint : Prop :=
  ∀ (c : CoreId) (s : State), vecReady s c →
    let k := coreKey c
    let co := s.core k
    let t := co.vt
    (∀ (x : VExpo) (h : Nat), (x.men = false → x.m = 0) → x.vs1.val % t.g = 0 → co.vstart = 0 → x.m6.toNat ≤ t.pw →
      let idx := (List.range t.vl).filter (co.active x.men x.m)
      isBlockMin t (idx.map fun i => co.velem x.vs1 t.w i) h →
        runs (.vbexp c x) s fun u =>
          writesG s u k 4 x.vd (BitVec.ofNat 32 (expOf t x.m6.toNat h)) (idx.any fun i => co.vpois x.vs1 t.w i))
    ∧ (∀ (x : VExpo) (h : Nat → Nat), x.men = false → x.m = 0 → x.vd.val % t.g = 0 → x.vs1.val % t.g = 0 →
      (x.vd.val + t.g ≤ x.vs1.val ∨ x.vs1.val + t.g ≤ x.vd.val) → wholeSegments co → x.m6.toNat ≤ t.pw →
      (∀ j, isBlockMin t ((segOf co.vseg.toNat j).map fun i => co.velem x.vs1 t.w i) (h j)) →
        runs (.vbexps c x) s fun u => keepsG s u k ∧
          vecResult s u k x.vd t.w (List.range (t.vl / co.vseg.toNat)) (fun _ => true) false false fun j =>
            (expOf t x.m6.toNat (h j), (segOf co.vseg.toNat j).any fun i => co.vpois x.vs1 t.w i, false))
    ∧ ∀ x : VArith, x.men = false → x.m = 0 → x.vd.val % t.g = 0 → op2Ready s c x t →
      wholeSegments co → runs (.vshrs c x) s fun u => stepsG s u k x t.w ∧
        vecResult s u k x.vd t.w (List.range t.vl) (fun _ => true) false x.sat fun i =>
          let j := i / co.vseg.toNat
          let e := max 0 (min ((t.pw : Int) - 1) (toSigned t.w (op2Val s k x t.w j).1))
          let r := liftParts t.cplx x.sat t.pw 1 t.pw (fun pa _ p => roundShift co.rm.toNat (pa p) e.toNat)
            (co.velem x.vs1 t.w i) 0
          (r.1, co.vpois x.vs1 t.w i || (op2Val s k x t.w j).2, r.2)

/-- Bit n of a byte stream in the group at r, counted from bit 7 of byte 0 (R129). -/
def Sys2Proof.Machine.streamBit (c : Core) (r n : Nat) : Bool := (c.velem r 8 (n / 8)).testBit (7 - n % 8)

/-- Where a packed stream holds part p of element i, for fields of m bits: the header of each segment, if any, comes first and
each segment fills whole bytes (R129). -/
def Sys2Proof.Machine.fieldAt (t : VT) (g : Nat) (h : Bool) (m i p : Nat) : Nat :=
  8 * (i / g * segBytes t h m g) + (if h then 8 else 0) + (i % g * (if t.cplx then 2 else 1) + p) * m

/-- R129, R130: VPACK writes to the byte stream in vd the header byte of each segment, then each part saturated or wrapped to
m bits, highest bit first; VUNPACK reads such a stream and writes each part shifted left by its header and saturated. -/
def Obligations.PackAndUnpack : Prop :=
  ∀ (c : CoreId) (x : VPackOp) (s : State), vecReady s c →
    let k := coreKey c
    let co := s.core k
    let t := co.vt
    let g := co.vseg.toNat
    let m := x.m1.val + 1
    let np := if t.cplx then 2 else 1
    let head := x.vs2.val % t.g = 0 ∧ (x.vd.val + t.g ≤ x.vs2.val ∨ x.vs2.val + t.g ≤ x.vd.val)
    x.vd.val % t.g = 0 → x.vs1.val % t.g = 0 → (x.vd.val + t.g ≤ x.vs1.val ∨ x.vs1.val + t.g ≤ x.vd.val) →
    let outside := fun (u : State) => ∀ r, ¬ (x.vd.val ≤ r ∧ r < x.vd.val + t.g) →
      (u.core k).vreg r = co.vreg r ∧ SMap.get noGran (u.core k).vPoison r = SMap.get noGran co.vPoison r
    wholeSegments co → m ≤ t.pw → t.vl / g * segBytes t x.h m g ≤ 128 * t.g →
      (head → t.vl ≠ 0 → runs (.vpack c x) s fun u => vecCore s u k 4 ∧ keepsG s u k ∧ outside u
        ∧ (∀ i p b, i < t.vl → p < np → b < m → streamBit (u.core k) x.vd (fieldAt t g x.h m i p + b)
            = (narrow x.sat m (toSigned t.pw (co.velem x.vs1 t.w i / 2 ^ (t.pw * p)))).1.testBit (m - 1 - b))
        ∧ (x.h = true → ∀ j, j < t.vl / g →
            (u.core k).velem x.vd 8 (j * segBytes t x.h m g) = co.velem x.vs2 t.w j % 256)
        ∧ (∀ n, t.vl / g * segBytes t x.h m g ≤ n → n < 128 * t.g → (u.core k).velem x.vd 8 n = 0)
        ∧ ((u.core k).vsat = true ↔ co.vsat = true ∨ x.sat = true ∧ ∃ i p, i < t.vl ∧ p < np ∧
            (narrow true m (toSigned t.pw (co.velem x.vs1 t.w i / 2 ^ (t.pw * p)))).2 = true))
      ∧ (head → t.vl = 0 → runs (.vpack c x) s fun u =>
          vecCore s u k 4 ∧ keepsG s u k ∧ (∀ r, (u.core k).vreg r = co.vreg r) ∧ (u.core k).vsat = co.vsat)
      ∧ ∀ f : Nat → Nat → Nat, (∀ i p, f i p < 2 ^ m) → (∀ i p b, i < t.vl → p < np → b < m →
          streamBit co x.vs1 (fieldAt t g x.h m i p + b) = (f i p).testBit (m - 1 - b)) →
        let y := fun i p => toSigned m (f i p)
          * 2 ^ (if x.h then co.velem x.vs1 8 (i / g * segBytes t x.h m g) % 16 else 0)
        runs (.vunpack c x) s fun u => vecCore s u k 4 ∧ keepsG s u k ∧ (t.vl ≤ t.vlmax → outside u)
          ∧ (∀ i p, i < t.vl → p < np → toSigned t.pw ((u.core k).velem x.vd t.w i / 2 ^ (t.pw * p)) = clipS t.pw (y i p))
          ∧ (∀ i, t.vl ≤ i → (u.core k).velem x.vd t.w i = co.velem x.vd t.w i)
          ∧ ((u.core k).vsat = true ↔ co.vsat = true ∨ x.sat = true ∧ ∃ i p, i < t.vl ∧ p < np ∧ clipS t.pw (y i p) ≠ y i p)

/-- R121, R132: the permutes move whole elements with their poison, where vd meets no source. R131, R133: VREDSUM and
VREDMAX write the sum and the maximum of the active elements to a G register, VMVXV one element, and VMVVX writes one
element from a G register, where it lies from VSTART to vl − 1 and as its mask bit says (R114, R116, log 52). -/
def Obligations.VectorPermutesAndReductions : Prop :=
  (∀ (c : CoreId) (x : VArith) (s : State), vecReady s c →
     let k := coreKey c
     let co := s.core k
     let t := co.vt
     let act := co.active x.men x.m
     let apart := fun r n => x.vd.val + t.g ≤ r ∨ r + n ≤ x.vd.val
     let moves := fun (i : Instr) (undisturbed : Nat → Bool) (f : Nat → Nat × Bool) => runs i s fun u => keepsG s u k ∧
       vecResult s u k x.vd t.w ((List.range t.vl).filter fun i => !act i || !undisturbed i) act x.mz false
         fun i => ((f i).1, (f i).2, false)
     let el := fun (r : Nat) i => (co.velem r t.w i, co.vpois r t.w i)
     (x.men = false → x.m = 0) → co.vstart = 0 → x.vd.val % t.g = 0 →
       (x.k = 1 → s.gp k x.vs2 = false → x.vs1.val % t.g = 0 → apart x.vs1 t.g →
         let n := (s.gv k x.vs2).toNat
         moves (.vslideup c x) (fun i => decide (i < n)) (fun i => el x.vs1 (i - n))
         ∧ moves (.vslidedn c x) (fun _ => false) (fun i => if i + n < t.vlmax then el x.vs1 (i + n) else (0, false)))
       ∧ (x.k = 0 → x.vs1.val % t.g = 0 → x.vs2.val % t.g = 0 → apart x.vs1 t.g → apart x.vs2 t.g → t.vl % 2 = 0 →
         moves (.vzip c x) (fun _ => false) (fun i => el (if i % 2 = 0 then x.vs1 else x.vs2) (i / 2)))
       ∧ (x.k = 0 → x.vs1.val % (2 * t.g) = 0 → apart x.vs1 (2 * t.g) → x.vs2.val < 2 →
         moves (.vunzip c x) (fun _ => false) (fun i => el x.vs1 (2 * i + x.vs2)))
       ∧ (x.vs1.val % t.g = 0 → apart x.vs1 t.g →
         moves (.vrev c x) (fun _ => false) (fun i => el x.vs1 (t.vl - 1 - i))))
  ∧ ∀ (c : CoreId) (x : VArith) (s : State), vecReady s c → (x.men = false → x.m = 0) →
      let k := coreKey c
      let co := s.core k
      let t := co.vt
      let idx := (List.range t.vl).filter (co.active x.men x.m)
      let vals := idx.map fun i => toSigned t.w (co.velem x.vs1 t.w i)
      let pois := idx.any fun i => co.vpois x.vs1 t.w i
      let i := (s.gv k x.vs2).toNat
      let base := s.modCore k fun y => { y with vstart := 0 }
      (t.cplx = false → co.vstart = 0 → x.vs1.val % t.g = 0 →
        (runs (.vredsum c x) s fun u =>
          writesG (s.modCore k fun y => { y with vsat := y.vsat || (x.sat && (narrow x.sat 32 vals.sum).2) }) u k 4 x.vd
            (BitVec.ofNat 32 (narrow x.sat 32 vals.sum).1) pois)
        ∧ ∀ mx : Int, (∀ v ∈ vals, v ≤ mx) → (mx ∈ vals ∨ vals = [] ∧ mx = -2147483648) → runs (.vredmax c x) s fun u =>
          writesG s u k 4 x.vd (BitVec.ofInt 32 mx) pois)
      ∧ (x.vs1.val % t.g = 0 → co.vstart ≠ 0 → co.vl.toNat ≤ co.vstart.toNat →
          runs (.vmvxv c x) s fun u => writesG base u k 4 0 0 false)
      ∧ (x.vs1.val % t.g = 0 → (co.vstart = 0 ∨ co.vstart.toNat < co.vl.toNat) → runs (.vmvxv c x) s fun u =>
        writesG base u k 4 x.vd (if i < t.vlmax then BitVec.ofInt 32 (toSigned t.w (co.velem x.vs1 t.w i)) else 0)
          (co.gp x.vs2 || (decide (i < t.vlmax) && co.vpois x.vs1 t.w i)))
      ∧ (x.vd.val % t.g = 0 → (t.vl = 0 ∨ s.gp k x.vs2 = false) → runs (.vmvvx c x) s fun u =>
          vecCore s u k 4 ∧ keepsG s u k ∧ (u.core k).vsat = co.vsat ∧ vecElems co (u.core k) x.vd t.w fun j =>
            if j = i ∧ t.start ≤ i ∧ i < t.vl then
              if co.active x.men x.m i then some ((s.gv k x.vs1).toNat % 2 ^ t.w, s.gp k x.vs1)
              else if x.mz then some (0, false) else none
            else none)

/-- The fields of a VM instruction are ones the spec allows (Tables 05-2, 05-8). -/
def Sys2Proof.Machine.vmFields (x : VMem) (store : Bool) : Prop :=
  (if store then 2 ≤ x.am.val else x.am ≠ 2) ∧ (x.p = true → x.am ≠ 3) ∧ (x.am ≠ 3 → x.off = 0) ∧ (x.men = false → x.m = 0)

/-- The address register or generator can be used: not poisoned, or set as Table 04-4 allows. -/
def Sys2Proof.Machine.vmUsable (s : State) (k : Nat) (x : VMem) : Prop :=
  if x.am = 3 then s.gp k x.g = false else ((s.core k).ag x.am).valid = true

/-- The bytes j of the access lie in banks that accept the core, and within the reach of its bus (R117). -/
def Sys2Proof.Machine.vmReach (s : State) (c : CoreId) (x : VMem) (store : Bool) (hit : Nat → Prop) : Prop :=
  ∀ j, hit j → s.memReady [coreIdent c] (s.vmAddr (coreKey c) x j)
    ∧ (store = false → x.am ≠ 3 → isLocal c (s.vmAddr (coreKey c) x j) 1 = true)

/-- The core after the access: VSTART 0, the pc past it, and the generator post-updated once if P = 1 (R82, R116, R117). -/
def Sys2Proof.Machine.vmPosted (y : Core) (x : VMem) : Core :=
  let y := { y with vstart := 0, pc := y.pc + 4 }
  if x.p = true ∧ (y.ag x.am).valid = true then y.setAg x.am (y.ag x.am).next else y

/-- R82, R111, R117, R119, R133: VLD loads the active elements from VSTART on, each from its bytes in memory with their
poison, and VLDM the bytes of a mask register; memory stays as it is. With vl = 0 nothing is read, by VLDM neither: the model's
choice (log 52). -/
def Obligations.VectorLoads : Prop :=
  ∀ (c : CoreId) (x : VMem) (s : State), vecReady s c → vmFields x false →
    let k := coreKey c
    let co := s.core k
    let t := co.vt
    let addr := s.vmAddr k x
    let wb := t.w / 8
    (x.v.val % t.g = 0 → (t.vl = 0 ∨ vmUsable s k x) →
      let idx := t.indices.filter (co.active x.men x.m)
      vmReach s c x false (fun j => j / wb ∈ idx) →
        runs (.vld c x none) s fun u => onlyCore s u k
          ∧ u.core k = { vmPosted co x with v := (u.core k).v, vPoison := (u.core k).vPoison }
          ∧ vecElems co (u.core k) x.v t.w (vecNew idx (fun _ => true) false fun i =>
            (leVal ((List.range wb).map fun b => s.byte (addr (i * wb + b))),
              (List.range wb).any fun b => s.poisoned (addr (i * wb + b) / 8), false)))
    ∧ (x.v.val < 8 → x.men = false → x.m = 0 → (t.vl = 0 ∨ vmUsable s k x) →
      vmReach s c x false (fun j => t.vl ≠ 0 ∧ co.vstart.toNat ≤ j ∧ j < 128) →
        runs (.vldm c x none) s fun u => onlyCore s u k
          ∧ u.core k = { vmPosted co x with masks := (u.core k).masks }
          ∧ (∀ r, r ≠ x.v.val → (u.core k).mreg r = co.mreg r)
          ∧ ∀ j, j < 128 → ((u.core k).mreg x.v).extractLsb' (8 * j) 8 =
              if t.vl ≠ 0 ∧ co.vstart.toNat ≤ j then s.byte (addr j) else (co.mreg x.v).extractLsb' (8 * j) 8)

/-- What a vector store of the bytes `hit j` leaves: byte j of the source at its address, of two at one address the later; every
other byte, and the poison of words not stored to, as before (R119). -/
def Sys2Proof.Machine.vmStored (s t : State) (k : Nat) (x : VMem) (hit : Nat → Prop) (src : Nat → Byte) : Prop :=
  let addr := s.vmAddr k x
  t = { s with cores := t.cores, banks := t.banks } ∧ (∀ j, j ≠ k → t.core j = s.core j) ∧ t.core k = vmPosted (s.core k) x
    ∧ (∀ j, hit j → (∀ i, j < i → hit i → addr i ≠ addr j) → t.byte (addr j) = src j)
    ∧ (∀ a, (∀ j, hit j → addr j ≠ a) → t.byte a = s.byte a)
    ∧ ∀ w, (∀ j, hit j → addr j / 8 ≠ w) → t.poisoned w = s.poisoned w

/-- R82, R117, R119, R120: VST stores the active clean elements from VSTART on, VSTN the first Gn bytes of the group and VSTM
the bytes of a mask register, and nothing else changes in memory. With vl = 0 nothing is stored (R110), by VSTN and VSTM
neither: the model's choice (log 52). -/
def Obligations.VectorStores : Prop :=
  ∀ (c : CoreId) (x : VMem) (s : State), vecReady s c → vmFields x true →
    let k := coreKey c
    let co := s.core k
    let t := co.vt
    let wb := t.w / 8
    (x.v.val % t.g = 0 → (t.vl = 0 ∨ vmUsable s k x) →
      let idx := t.indices.filter (co.active x.men x.m)
      (∀ i ∈ idx, co.vpois x.v t.w i = false) → vmReach s c x true (fun j => j / wb ∈ idx) →
        runs (.vst c x none) s fun u =>
          vmStored s u k x (fun j => j / wb ∈ idx) fun j => BitVec.ofNat 8 (co.velem x.v 8 j))
    ∧ (x.v.val % t.g = 0 → x.am = 2 → x.men = false →
      (t.vl = 0 ∨ co.vstart = 0 ∧ s.gp k x.g = false ∧ (s.gv k x.g).toNat ≤ 128 * t.g) →
      let n := if t.vl = 0 then 0 else (s.gv k x.g).toNat
      (n = 0 ∨ vmUsable s k x) → (∀ j, j < n → co.vpois x.v 8 j = false) →
      vmReach s c x true (fun j => j < n) →
        runs (.vstn c x none) s fun u => vmStored s u k x (fun j => j < n) fun j => BitVec.ofNat 8 (co.velem x.v 8 j))
    ∧ (x.v.val < 8 → x.men = false → (t.vl = 0 ∨ vmUsable s k x) →
      vmReach s c x true (fun j => t.vl ≠ 0 ∧ co.vstart.toNat ≤ j ∧ j < 128) →
        runs (.vstm c x none) s fun u => vmStored s u k x (fun j => t.vl ≠ 0 ∧ co.vstart.toNat ≤ j ∧ j < 128) fun j =>
          (co.mreg x.v).extractLsb' (8 * j) 8)

/-! ### The block over time, and its registers -/

/-- With no command waiting, Meridian counts one CLK_TB edge while it counts and nothing but time and the calendars moves;
otherwise the block idles. That an empty queue lets time pass is the model's choice (log 1). -/
def Obligations.EmptyQueueCountsAnEdge : Prop :=
  ∀ s : State, s.settled → s.pending = [] →
    (s.time.counting = false → step s = .next s)
    ∧ (s.time.counting = true → ∃ t, step s = .next t ∧ t.time.edges = s.time.edges + 1
        ∧ t.time.ticks = s.time.ticks + 1 ∧ t = { s with time := t.time, cmp := t.cmp } ∧ t.cmp.jobs = s.cmp.jobs)

/-- What reset leaves (R72, R136, R415, R417, R425): every register at the reset value of its table, memory at zero and clean,
no job, no running stage and no command, the cores idle with G registers at zero, the calendars empty, and Meridian stopped
at 0. That memory reads as zero is the model's choice (log 2). -/
def Obligations.ResetState : Prop :=
  (∀ a, State.reset.reg a = BitVec.ofNat 64 (regReset a)) ∧ (∀ a, State.reset.byte a = 0)
  ∧ (∀ w, State.reset.poisoned w = false) ∧ State.reset.banks.wf = true ∧ State.reset.pending = [] ∧ State.reset.out = []
  ∧ (∀ h, State.reset.job h = none) ∧ (∀ q, State.reset.running q = none) ∧ (∀ q b, calFill State.reset.cmp.cal q b = 0)
  ∧ (∀ k, (State.reset.core k).state = 0 ∧ (∀ r, State.reset.gv k r = 0) ∧ (State.reset.core k).vl = 0)
  ∧ State.reset.time.edges = 0 ∧ State.reset.time.counting = false ∧ State.reset.settled
  ∧ State.reset.reg Addr.devId = 0x000000B190641F6A

/-- R407 for every command: from every state a step gives a next state, never a fault or a refusal, and at its end Plumb has
acted on every doubt that arose. -/
def Obligations.EveryStepSettles : Prop :=
  ∀ s : State, ∃ t, step s = .next t ∧ t.settled

/-- A register of the device that a write reaches whole, outside the fenced domains, the HX and PLB blocks and the registers
with a write rule of their own. -/
def Sys2Proof.Machine.plainReg (s : State) (r : RegSpec) (a n : Nat) : Prop :=
  regAt a = some r ∧ r.width = 8 * n ∧ (n = 4 ∨ n = 8) ∧ a % n = 0 ∧ s.regFenced a = false
    ∧ (regWrites.find? fun e => e.1 == r.base) = none ∧ inHx a = false ∧ inPlb a = false

/-- The state after a plain write of v to the register r at a (Table 00-3, R449). -/
def Sys2Proof.Machine.plainWritten (s t : State) (r : RegSpec) (a n : Nat) (v : DWord) : Prop :=
  let m := fun (x : Access) i => (r.mask fun y => y == x).testBit i
  let set := fun i => m .rw i || (m .rwl i && s.rwlOpen)
  t = { s with regs := t.regs }
    ∧ (∀ b, b ≠ a → b ≠ Addr.devRwlDenyCnt → t.reg b = s.reg b)
    ∧ (a ≠ Addr.devRwlDenyCnt → (t.reg Addr.devRwlDenyCnt).toNat =
        if s.rwlOpen = false ∧ (∃ i, i < 8 * n ∧ m .rwl i = true ∧ v.getLsbD i ≠ (s.reg a).getLsbD i) then
          min ((s.reg Addr.devRwlDenyCnt).toNat + 1) 0xFFFFFFFF
        else (s.reg Addr.devRwlDenyCnt).toNat)
    ∧ ∀ i, i < 8 * n → (t.reg a).getLsbD i =
        ((set i && v.getLsbD i) || (m .w1s i && v.getLsbD i)
          || (!set i && !(m .w1c i && v.getLsbD i) && (s.reg a).getLsbD i))

/-- A register that shows what is stored in it and whose read does nothing but clear its RC fields. -/
def Sys2Proof.Machine.storedReg (r : RegSpec) : Prop :=
  (regViews.find? fun e => e.1 == r.base) = none ∧ (regPeaks.find? fun e => e.1 == r.base) = none
    ∧ (regReads.find? fun e => e.1 == r.base) = none

/-- Only register a changes, to v. -/
def Sys2Proof.Machine.oneReg (s t : State) (a : Nat) (v : DWord) : Prop := onlyRegs s t [a] ∧ t.reg a = v

/-- R5, R424, R449: a write of a whole register by a Zelfa core, a tile or the debug access port, or by the host through
BAR0, sets its RW fields, sets its RWL fields in LOAD and SERVICE only (elsewhere a change is counted), clears W1C
bits written as 1 and sets W1S bits written as 1; RO, RC and WO fields and every other register stay. R4, R5, R6,
R333: a read of a whole register clears its RC fields and changes nothing else, but that a read by the debug access
port clears none; an event of the same cycle is counted after the clear, in the register's counter field, which saturates; a
host read through BAR0 returns the value with WO fields and reserved bits as 0. -/
def Obligations.RegisterAccess : Prop :=
  (∀ (s : State) (r : RegSpec) (a : BitVec 48) (eight : Bool) (v : DWord), s.settled →
     let n := if eight then 8 else 4
     plainReg s r a.toNat n → (∀ f ∈ r.fields, f.hi < r.width) →
       (∀ who, who ≠ .host → runs (.registerWrite [⟨who, a, eight, true, v⟩] 0) s fun t => plainWritten s t r a.toNat n v)
       ∧ ∀ off : BitVec 26, 0x40000000 + off.toNat = a.toNat → s.hostReaches = true →
           runs (.bar0Access true off eight true v) s fun t => plainWritten s t r a.toNat n v)
  ∧ ∀ (s : State) (r : RegSpec) (a : BitVec 48) (eight : Bool), s.settled →
      let n := if eight then 8 else 4
      plainReg s r a.toNat n → storedReg r →
        let rc : DWord := BitVec.ofNat 64 (r.mask fun x => x == .rc)
        (∀ who, who ≠ .dap → runs (.rcFieldRead who a eight false) s fun t =>
            oneReg s t a.toNat (s.reg a.toNat &&& ~~~ (rc &&& BitVec.ofNat 64 (2 ^ (8 * n) - 1))))
        ∧ gives (.rcFieldRead .dap a eight false) s s
        ∧ ((r.mask fun x => x == .rc) = 0xFFFFFFFF → n = 4 → (s.reg a.toNat).toNat < 2 ^ 32 → ∀ who, who ≠ .dap →
            runs (.rcFieldRead who a eight true) s fun t => oneReg s t a.toNat 1)
        ∧ (∀ (f : Fld) (who : Requester), r.counter = some f →
            let v := if who = .dap then s.reg a.toNat else s.reg a.toNat &&& ~~~ (rc &&& BitVec.ofNat 64 (2 ^ (8 * n) - 1))
            runs (.rcFieldRead who a eight true) s fun t =>
              oneReg s t a.toNat (Fld.put f v (min (Fld.get f v + 1) (2 ^ (f.hi + 1 - f.lo) - 1))))
        ∧ ∀ off : BitVec 26, 0x40000000 + off.toNat = a.toNat → s.hostReaches = true →
            runs (.bar0Access false off eight true 0) s fun t =>
              t.out = .hostRsp (leBytes n ((s.reg a.toNat).toNat &&& r.mask fun x => x != .wo)) 0 :: s.out
              ∧ t = { s with regs := t.regs, out := t.out } ∧ ∀ b, t.reg b =
                if b = a.toNat then s.reg b &&& ~~~ (rc &&& BitVec.ofNat 64 (2 ^ (8 * n) - 1)) else s.reg b

/-! ### Compass -/

/-- A counter n higher, saturated at 0xFFFF_FFFF. -/
def Sys2Proof.Machine.bump (v : DWord) (n : Nat) : DWord := BitVec.ofNat 64 (min (v.toNat + n) 0xFFFFFFFF)

/-- A register with one field replaced. -/
def Sys2Proof.Machine.withField (s : State) (a : Nat) (f : Fld) (x : Nat) : DWord := Fld.put f (s.reg a) x

/-- The mode has changed from the one of s. -/
def Sys2Proof.Machine.modeIs (s t : State) (m : Nat) : Prop :=
  t.mode = m ∧ t.fget Addr.pwrMode Fld.pwrModePrev = s.mode

/-- The device has gone to SAFE with this reason: PLB_STAT names it first, its bit is set and it is counted, and FAULT_N is
low (R407, R409). -/
def Sys2Proof.Machine.tookSafe (s t : State) (r : Nat) : Prop :=
  modeIs s t Mode.safe ∧ t.fget Addr.plbStat Fld.plbStatFirst = r ∧ bitOf (t.reg Addr.plbCause).toNat r = true
    ∧ t.reg (Addr.plbSafeCnt r) = bump (s.reg (Addr.plbSafeCnt r)) 1 ∧ t.pins.faultN = false

/-- Of the whole state only registers differ, and they are these. -/
def Sys2Proof.Machine.regsBecome (s t : State) (l : List (Nat × DWord)) : Prop :=
  t = { s with regs := t.regs } ∧ (∀ p ∈ l, t.reg p.1 = p.2) ∧ ∀ a, a ∉ l.map (·.1) → t.reg a = s.reg a

/-- R25, R28: a stage is booked latest first. The bins are walked from hi down; each fragment takes the smaller of the need and
the room below the fill limit, there are at most 8, every bin above a fragment is full, and what is not placed is the
shortfall. -/
def Obligations.LatestFirstBooking : Prop :=
  ∀ (limit q lo n need : Nat) (cal : SMap Nat), n ≤ 4096 →
    let r := bookDown limit q lo n 0 need cal
    (r.1.map (·.2)).sum + r.2.1 = need ∧ r.1.length ≤ 8
    ∧ (∀ f ∈ r.1, lo ≤ f.1 ∧ f.1 < lo + n ∧ 0 < f.2) ∧ r.1.Pairwise (fun f g => g.1 < f.1)
    ∧ (∀ f ∈ r.1, calFill r.2.2 q f.1 = calFill cal q f.1 + f.2 ∧ calFill r.2.2 q f.1 ≤ limit)
    ∧ (∀ q' b, (∀ f ∈ r.1, calKey q' b ≠ calKey q f.1) → calFill r.2.2 q' b = calFill cal q' b)
    ∧ (∀ f ∈ r.1, ∀ b, f.1 < b → b < lo + n → limit ≤ calFill r.2.2 q b)
    ∧ (r.2.1 ≠ 0 → r.1.length = 8 ∨ ∀ b, lo ≤ b → b < lo + n → limit ≤ calFill r.2.2 q b)

/-- A record that is a job record as R46 asks, for an enabled completion queue. -/
def Sys2Proof.Machine.goodJobRecord (s : State) (r : Nat) : Prop :=
  recF r 0 7 0 = 1 ∧ recF r 1 7 0 = 1 ∧ reservedAt jobReserved r = none
    ∧ s.flag (Addr.hxCqCfg (JobRec.cq r)) Fld.hxCqCfgEn = true

/-- Compass takes records and serves queue q next, whose oldest fetched record is r: no queue between the last one served and q
has a record. `s'` is the state without that record (R49, R50). -/
def Sys2Proof.Machine.servesNext (s : State) (q : Nat) (r : BitVec 1024) (s' : State) : Prop :=
  Mode.idle ≤ s.mode ∧ s.cmp.held = false ∧ ∃ (before after : List (Nat × BitVec 1024)) (n : Nat),
    s.cmp.inbox = before ++ (q, r) :: after ∧ (∀ p ∈ before, p.1 ≠ q) ∧ n < 64 ∧ q = (s.cmp.lastJq + 1 + n) % 64
    ∧ (∀ p ∈ s.cmp.inbox, ∀ m, m < n → p.1 ≠ (s.cmp.lastJq + 1 + m) % 64)
    ∧ s' = { s with cmp := { s.cmp with inbox := before ++ after, lastJq := q } }

/-- No parity error stands in the flow the job record names, nor in any calendar (R71, Table 17-1). -/
def Sys2Proof.Machine.ledgersSound (s : State) (r : Nat) : Prop :=
  s.cmp.calBad = [] ∧ (JobRec.flowEn r = true → (s.flow (JobRec.flow r)).parityOk = true)

/-- A rejection leaves jobs, calendars and flows as they are; it counts in CMP_REJ_CNT (R20, R44). -/
def Sys2Proof.Machine.rejected (s t : State) (outcome : Nat) : Prop :=
  t.cmp = s.cmp ∧ t.reg (Addr.cmpRejCnt outcome) = bump (s.reg (Addr.cmpRejCnt outcome)) 1 ∧ sameBytes s t ∧ t.cores = s.cores

/-- R20, R32, R41, R44, R46, R49, R50, R343: a fetched record enters the intake and HEAD moves on; a failed fetch discards it,
counts and signals vector 74. The record served next is taken: a job is rejected for the first failing check and leaves no
trace but its count, or it is accepted with its booked stages PENDING and its guaranteed time within the job deadline; a
malformed cancel is rejected, and any other selects the open jobs of its queue whose tags match; its acknowledgement is
issued once they have closed or begun delivery. Of two cancels that select one job the first keeps it: the model's choice
(log 13). -/
def Obligations.RecordsAndAdmission : Prop :=
  ∀ s : State, s.settled →
    (∀ (q : Fin 64) (r : BitVec 1024),
      let head := s.fget (Addr.hxJqHead q) Fld.hxJqHeadIndex
      let next := (Addr.hxJqHead q.val,
        withField s (Addr.hxJqHead q) Fld.hxJqHeadIndex ((head + 1) % s.fget (Addr.hxJqCfg q) Fld.hxJqCfgSize))
      s.flag (Addr.hxJqCfg q) Fld.hxJqCfgEn = true → s.linkUp = true → head ≠ s.fget (Addr.hxJqTail q) Fld.hxJqTailIndex →
      s.atsEnable = false → s.windowOk false (s.fget (Addr.hxJqBase q) Fld.hxJqBaseAddr + 128 * head) 128 = true →
        runs (.jqRecordFetch q (some r)) s (fun t =>
          regsBecome { s with cmp := { s.cmp with inbox := s.cmp.inbox ++ [(q.val, r)] } } t [next])
        ∧ runs (.jqRecordFetch q none) s fun t => t.cmp = s.cmp ∧ t.reg next.1 = next.2
            ∧ t.reg Addr.hxFetchErrCnt = bump (s.reg Addr.hxFetchErrCnt) 1 ∧ t.flag Addr.hxEvtCause (Fld.cause 10) = true)
    ∧ (∀ (q : Nat) (rec : BitVec 1024) (s' : State), servesNext s q rec s' →
      let r := rec.toNat
      (recF r 0 7 0 ≠ 1 → recF r 0 7 0 ≠ 2 → runs .jobAdmission s fun t => rejected s' t 9)
      ∧ (recF r 0 7 0 = 1 → s.mode = Mode.service ∨ s.mode = Mode.load → runs .jobAdmission s fun t => rejected s' t 6)
      ∧ (recF r 0 7 0 = 1 → s.mode = Mode.safe → runs .jobAdmission s fun t => rejected s' t 5)
      ∧ (goodJobRecord s r → ledgersSound s r → (s.mode = Mode.run ∨ s.mode = Mode.idle) →
        s.flag Addr.clkStat Fld.clkStatLocked = true → runs .jobAdmission s fun t =>
          match s'.decideJob r with
          | .reject o _ _ _ _ _ => o ≤ 9 ∧ rejected s' t o
          | .accept tm l win cal tg => tg ≤ JobRec.window r + tm.jobDlOff ∧ t.cmp.cal = cal
            ∧ t.reg Addr.cmpAccCnt = bump (s.reg Addr.cmpAccCnt) 1
            ∧ ∃ j, t.job s'.takeHandle.1 = some j ∧ j.tag.toNat = JobRec.tag r ∧ j.jq = q ∧ j.t = tm ∧ j.tg = tg
              ∧ j.stages = stagesOf tm l win ∧ (∀ x ∈ j.stages, x.st = .pending ∧ x.flags = 0) ∧ j.recorded = false)
      ∧ (recF r 0 7 0 = 2 → recF r 1 7 0 ≠ 1 ∨ reservedAt cancelReserved r ≠ none → runs .cancelRecord s fun t => rejected s' t 9)
      ∧ (recF r 0 7 0 = 2 → recF r 1 7 0 = 1 → reservedAt cancelReserved r = none → SMap.wf noJob s.cmp.jobs = true →
        runs .cancelRecord s fun t => t.regs = s.regs ∧ t.cmp.cal = s.cmp.cal ∧ t.cmp.inbox = s'.cmp.inbox
          ∧ (∃ c, t.cmp.cancels = s.cmp.cancels ++ [c] ∧ c.id = s.cmp.cancelNo ∧ c.tag.toNat = recF r 4 31 0
              ∧ c.mask.toNat = recF r 8 31 0)
          ∧ ∀ h j, s.job h = some j → ∃ i, t.job h = some { j with cancelId := i } ∧
              if j.jq = q ∧ j.closed = false ∧ j.begun = false
                ∧ j.tag.toNat &&& recF r 8 31 0 = recF r 4 31 0 &&& recF r 8 31 0
              then i.isSome = true else i = j.cancelId))
    ∧ ∀ (before after : List CancelRec) (c : CancelRec), s.cmp.cancels = before ++ c :: after →
        (∀ x ∈ before, s.cancelOpen x = true) →
        (∀ p ∈ c.sel, ∀ j, s.job p.1 = some j → j.order = p.2 → j.closed = true ∨ j.begun = true) →
        let u := { s with cmp := { s.cmp with cancels := s.cmp.cancels.filter fun x => x.id != c.id } }
        gives .cancelAckIssue s (if c.ack then u.issueRecord c.cq (c.record s.now) true else u)

/-- Stage k of job h, if the job holds its slot. -/
def Sys2Proof.Machine.stageOf (s : State) (h k : Nat) : Option Stage := (s.job h).bind fun j => j.stages[k]?

/-- The other stages of every job are as they were. -/
def Sys2Proof.Machine.otherStages (s t : State) (h k : Nat) : Prop :=
  ∀ h' k', (h', k') ≠ (h, k) → stageOf t h' k' = stageOf s h' k'

/-- R52, R54 to R57, Table 03-4: a PENDING stage becomes READY with its flags complete, or at its missing-input point with the
absent flags recorded and counted; a flag event sets the flag its source is bound to in a PENDING stage, and no stage
changes state by it; a host event for no such job is counted as stray, and so is a timer event for no such job or for a flag
that is not bound to the timer. -/
def Obligations.StagesBecomeReady : Prop :=
  ∀ (h : Fin 2048) (k : Fin 64) (j : Job) (x : Stage) (s : State), s.settled → s.job h = some j → j.stages[k.val]? = some x →
    j.closed = false → x.st = .pending →
      let mask : Word := BitVec.ofNat 32 (j.stageT k).evMask
      (x.flags &&& mask = mask → runs (.stageReady h k) s fun t => otherStages s t h k ∧
        ∃ y, stageOf t h k = some y ∧ y = { x with st := .ready, readyEdge := y.readyEdge, absent := 0 })
      ∧ (x.flags &&& mask ≠ mask → runs (.missingInputRelease h k) s fun t => otherStages s t h k
        ∧ (∃ y, stageOf t h k = some y ∧ y = { x with st := .ready, readyEdge := y.readyEdge, absent := mask &&& ~~~ x.flags })
        ∧ t.reg Addr.cmpMissRelCnt = bump (s.reg Addr.cmpMissRelCnt) 1
        ∧ ∃ j', t.job h = some j' ∧ j'.missingSeen = true
            ∧ (j.missingSeen = false → j'.missStage = k.val ∧ j'.missFlags = mask &&& ~~~ x.flags))
      ∧ (∀ f : Fin 32, ((j.stageT k).bind f).source = Src.timer → j.cancelId = none → x.flags.getLsbD f = false →
        runs (.timerFlagFires h k f) s fun t => otherStages s t h k
          ∧ stageOf t h k = some { x with flags := x.flags ||| BitVec.ofNat 32 (2 ^ f.val) })
      ∧ (∀ (f : Fin 32) (v : Word), v.toNat % 2048 = h.val → j.tag.toNat % 65536 = v.toNat / 65536 → j.cancelId = none →
        ((j.stageT k).bind f).source = Src.host → ((j.stageT k).bind f).arg0 = v.toNat / 2048 % 8 →
        runs (.cmpEvtSet v) s fun t => ∃ y, stageOf t h k = some y ∧ y.flags.getLsbD f = true ∧ y.st = .pending)
      ∧ (∀ f : Fin 32, ((j.stageT k).bind f).source ≠ Src.timer →
        runs (.timerFlagFires h k f) s fun t => oneReg s t Addr.cmpStrayEvtCnt (bump (s.reg Addr.cmpStrayEvtCnt) 1))
      ∧ (∀ (g : Fin 2048) (f : Fin 32), s.job g = none →
        runs (.timerFlagFires g k f) s fun t => oneReg s t Addr.cmpStrayEvtCnt (bump (s.reg Addr.cmpStrayEvtCnt) 1))
      ∧ ∀ v : Word, (s.job (v.toNat % 2048) = none ∨ v.toNat % 2048 = h.val ∧ j.tag.toNat % 65536 ≠ v.toNat / 65536) →
        runs (.cmpEvtSet v) s fun t => oneReg s t Addr.cmpStrayEvtCnt (bump (s.reg Addr.cmpStrayEvtCnt) 1)

/-- Stage k of job h waits READY on instance q, and every other stage that does comes after it by the end of its effective
deadline's bin, then by the order of admission, then by its index (R58). -/
def Sys2Proof.Machine.comesFirst (s : State) (q h k : Nat) (j : Job) (x : Stage) : Prop :=
  s.job h = some j ∧ j.stages[k]? = some x ∧ x.q = q ∧ x.st = .ready
    ∧ ∀ h' k' j' x', s.job h' = some j' → j'.stages[k']? = some x' → x'.q = q → x'.st = .ready → (h', k') ≠ (h, k) →
        x.lateBin < x'.lateBin ∨ x.lateBin = x'.lateBin ∧ (j.order < j'.order ∨ j.order = j'.order ∧ k < k')

/-- R58, R60, R61, R105, R136, R451: a free instance whose tile is awake selects the READY stage that comes first and is occupied
by it from that edge; a stage of declared cost 0 ends in the same cycle and leaves the instance free. A DSP stage starts
with an empty register file and vector state, its dispatch word and its entry point. -/
def Obligations.DispatchSelectsEarliest : Prop :=
  ∀ (q : Fin 746) (h k : Nat) (j : Job) (x : Stage) (s : State), s.settled → s.running q = none →
    SMap.wf noJob s.cmp.jobs = true → s.cmp.calBad = [] → comesFirst s q h k j x → s.tileAsleep x.cls x.inst = false →
      s.selected q = some (h, k)
      ∧ (x.cost = 0 → j.closed = false → j.recorded = false → k ≠ j.final → runs (.stageDispatch q) s fun t =>
          t.running q = none ∧ stageOf t h k = some { x with st := .done, selEdge := s.time.ticks, frags := [] }
          ∧ ∀ m f, f < 32 → j.cancelId = none → ((j.stageT m).bind f).source = Src.pred → ((j.stageT m).bind f).arg0 = k →
              ∀ y, stageOf s h m = some y → y.st = .pending → ∃ z, stageOf t h m = some z ∧ z.flags.getLsbD f = true)
      ∧ (x.cost ≠ 0 → runs (.stageDispatch q) s fun t => t.running q = some (h, k) ∧ otherStages s t h k
          ∧ stageOf t h k = some { x with st := .running, selEdge := s.time.ticks }
          ∧ (∀ i, SMap.get noFill t.cmp.hist i = SMap.get noFill s.cmp.hist i
              + if i = 16 * q.val + waitBucket ((s.time.ticks - x.readyEdge) * 8 / 3) then 1 else 0)
          ∧ (x.cls = 0 → (s.core x.inst).state ≠ 3 →
              let y := t.core x.inst
              y.state = 1 ∧ (∀ r, y.gv r = 0) ∧ (∀ r, y.vreg r = 0) ∧ y.vl = 0 ∧ y.vtype = 0 ∧ y.lc = 0 ∧ y.rep = none
              ∧ y.job = h ∧ y.stage = k ∧ y.budget = x.cost ∧ y.selEdge = s.time.ticks
              ∧ ∀ i, i < 20 → SMap.get noWord y.dw i = (dispatchWord h k j x.cost x.absent).getD i 0))

/-- R62, R106, R146, Table 03-4: the stage that runs on an instance ends: a TCOP stage, an engine's with its descriptor done,
an FH_TX stage, or a DSP stage by STEND or by its completion. It is ENDED_DONE with no fragment left, its instance is free,
and every PENDING successor has its flag; a stage that is not the final one delivers nothing. -/
def Obligations.StagesComplete : Prop :=
  ∀ (q : Fin 746) (h k : Nat) (j : Job) (x : Stage) (mask : BitVec 64) (s : State), s.settled →
    s.running q = some (h, k) → s.job h = some j → j.stages[k]? = some x → x.q = q.val → x.st = .running →
    j.closed = false → j.recorded = false → j.cancelId = none → k ≠ j.final → s.cmp.calBad = [] →
      let done := fun (t : State) => t.running q = none
        ∧ stageOf t h k = some { x with st := .done, frags := [] }
        ∧ ∀ m f, f < 32 → ((j.stageT m).bind f).source = Src.pred → ((j.stageT m).bind f).arg0 = k →
            ∀ y, stageOf s h m = some y → y.st = .pending → m ≠ k →
              ∃ z, stageOf t h m = some z ∧ z.flags.getLsbD f = true
      (x.cls = 1 → (s.core x.inst).cpBusy = none → runs (.stageComplete q mask) s done)
      ∧ (2 ≤ x.cls → x.cls ≤ 9 → s.engineDone q = true → runs (.stageComplete q mask) s done)
      ∧ (x.cls = 10 → s.lq x.inst = [] → runs (.stageComplete q mask) s done)
      ∧ (x.cls = 0 → (s.core x.inst).state = 1 → (s.core x.inst).cpBusy = none → (s.core x.inst).job = h →
          (s.core x.inst).stage = k → runs (.stageComplete q 0) s fun t => done t ∧ (t.core x.inst).state = 0)
      ∧ ∀ (i : Fin 192) (ra rb : Fin 32), x.cls = 0 → x.inst = i.val → s.plain i → (s.core i).cpBusy = none →
          (s.core i).job = h → (s.core i).stage = k → s.gp i ra = false → s.gp i rb = false →
          s.gv i ra = 0 → s.gv i rb = 0 →
          runs (.stend (.tile i) ra rb) s fun t => done t ∧ (t.core i).state = 0

/-- Job h has been closed early with a status: its slot is free, its record is counted, and no other job is touched. -/
def Sys2Proof.Machine.closedAs (s t : State) (h status : Nat) : Prop :=
  t.job h = none ∧ h ∈ t.cmp.freed ∧ t.reg (Addr.cmpCmplCnt status) = bump (s.reg (Addr.cmpCmplCnt status)) 1
    ∧ ∀ h', h' ≠ h → t.job h' = s.job h'

/-- R34, R35, R38, R39, R64, R67, R68: a stage at its budget closes its job OVERRUN, or FAULTED where a consumption fault comes
in the same cycle; the closing of a cancel ends the stages of each dispatcher it reaches and closes the job CANCELLED with
the last; the release engine skips holes, counting them, and issues the waiting item behind them. A flow state of wrong parity
is the doubt LEDGER and releases nothing (R71). -/
def Obligations.JobsEnd : Prop :=
  ∀ (h : Nat) (j : Job) (s : State), s.settled → s.job h = some j → j.closed = false → j.recorded = false →
    s.cmp.calBad = [] →
    (∀ (q : Fin 746) (k : Nat) (x : Stage), s.running q = some (h, k) → j.stages[k]? = some x → x.q = q.val →
      x.st = .running → x.cls ≠ 10 →
        runs (.stageBudgetStop q ⟨none, none, false⟩) s (fun t => closedAs s t h Status.overrun ∧ t.running q = none)
        ∧ ∀ f o c, runs (.stageBudgetStop q ⟨some f, o, c⟩) s fun t =>
            closedAs s t h Status.faulted ∧ t.running q = none)
    ∧ (∀ (g : Fin 2048) (d : Fin 5) (id : Nat), g.val = h → j.cancelId = some id → j.begun = false →
      (j.dispatchers &&& ~~~(j.reached ||| BitVec.ofNat 5 (2 ^ d.val)) = 0 →
        runs (.cancelClosingArrives g d ⟨none, none, false⟩) s fun t => closedAs s t h Status.cancelled
          ∧ t.cmp.cancels = s.cmp.cancels.map fun c => if c.id = id then { c with matched := c.matched + 1 } else c)
      ∧ (j.dispatchers &&& ~~~(j.reached ||| BitVec.ofNat 5 (2 ^ d.val)) ≠ 0 →
        runs (.cancelClosingArrives g d ⟨none, none, false⟩) s fun t => ∀ k x, j.stages[k]? = some x →
          ∃ y, stageOf t h k = some y ∧ if x.dispatcher = d.val then y.st.ended = true else y = x))
    ∧ (∀ f : Fin 1024, (s.flow f).parityOk = false → s.mode = Mode.run ∨ s.mode = Mode.idle →
        runs (.flowRelease f) s fun t => tookSafe s t 8)
    ∧ ∀ (f : Fin 1024) (holes l : List FlowItem) (i : FlowItem), (s.flow f).items = holes ++ i :: l →
        (s.flow f).parityOk = true → (∀ x ∈ holes, x.hole = true) → i.hole = false → i.handle = h →
        runs (.flowRelease f) s fun t => t.reg Addr.cmpHoleCnt = bump (s.reg Addr.cmpHoleCnt) holes.length ∧
          if i.waiting then
            (t.flow f).items = l ∧ (t.flow f).head = (((s.flow f).head + holes.length) % 65536 + 1) % 65536
              ∧ (let st := if j.missingSeen then Status.missingInput else Status.done
                 t.reg (Addr.cmpCmplCnt st) = bump (s.reg (Addr.cmpCmplCnt st)) 1)
              ∧ ∀ j', t.job h = some j' → j'.recorded = true
          else
            (t.flow f).items = i :: l ∧ (t.flow f).head = ((s.flow f).head + holes.length) % 65536 ∧ t.job h = some j

/-- R25, R31, R74, R75: at the end of a bin its fill is cleared and no other's is; at the end of a 1 ms window CMP_BUSY takes the
units of the window; a calendar snapshot copies the bins asked for, and one that reads a word of wrong parity is the doubt
LEDGER; a histogram snapshot copies and clears; a cluster with a booking ahead leaves IDLE. -/
def Obligations.CalendarsAndSnapshots : Prop :=
  ∀ s : State, s.settled →
    (s.time.counting = true → SMap.wf noFill s.cmp.cal = true → runs .calendarBinEnd s fun t => t.bin = s.bin + 1
      ∧ (∀ q, calFill t.cmp.cal q s.bin = 0)
      ∧ ∀ q b, s.bin < b → b < s.bin + 4096 → calFill t.cmp.cal q b = calFill s.cmp.cal q b)
    ∧ (s.time.counting = true → runs .cmpBusyWindowEnd s fun t =>
      let w := s.time.ticks - s.time.edges % 491520
      t.time.edges = (s.time.edges / 491520 + 1) * 491520 ∧ t.cmp.busy = []
      ∧ ∀ q, SMap.get noFill t.cmp.busyLast q
          = SMap.get noFill s.cmp.busy q + s.runningUnits q w (w + 491520))
    ∧ (∀ v : Word, v.getLsbD 31 = true → s.mode = Mode.run ∨ s.mode = Mode.idle →
      (∃ j, j < 64 ∧ s.calParityBad (v.toNat / 2 ^ 19 % 1024) (v.toNat / 128 % 4096 + j) = true) → v.toNat % 128 = 64 →
        runs (.calSnapshot v) s fun t => modeIs s t Mode.safe ∧ t.fget Addr.plbStat Fld.plbStatFirst = 8)
    ∧ (∀ v : Word, v.getLsbD 31 = true → s.cmp.calBad = [] → runs (.calSnapshot v) s fun t =>
      let n := if v.toNat % 128 = 0 ∨ 64 < v.toNat % 128 then 64 else v.toNat % 128
      let q := v.toNat / 2 ^ 19 % 1024
      t = { s with regs := t.regs } ∧ t.reg Addr.cmpCalStamp = BitVec.ofNat 64 s.bin
      ∧ (∀ j, j < 64 → t.reg (Addr.cmpCalFill j) = BitVec.ofNat 64
          (if j < n ∧ q < 746 then calFill s.cmp.cal q (v.toNat / 128 % 4096 + j) else 0))
      ∧ ∀ a, a ≠ Addr.cmpCalStamp → a ≠ Addr.cmpCalSel → (∀ j, j < 64 → a ≠ Addr.cmpCalFill j) → t.reg a = s.reg a)
    ∧ (∀ i : BitVec 10, SMap.wf noFill s.cmp.hist = true → runs (.histSnap i) s fun t =>
      (∀ k, k < 16 → t.reg (Addr.cmpHist k) = BitVec.ofNat 64 (SMap.get noFill s.cmp.hist (16 * i.toNat + k)))
      ∧ (∀ n, SMap.get noFill t.cmp.hist n =
          if 16 * i.toNat ≤ n ∧ n < 16 * i.toNat + 16 then 0 else SMap.get noFill s.cmp.hist n)
      ∧ t = { s with regs := t.regs, cmp := { s.cmp with hist := t.cmp.hist } })
    ∧ ∀ (c : Fin 24) (b : Nat), s.clusterIdle c = true → s.nextBooking c = some b →
        runs (.clusterIdleExitCalendar c) s fun t => t.clusterIdle c = false ∧ t.cmp.jobs = s.cmp.jobs

/-! ### Engines and chains -/

/-- The engine commands that meet no other port's access, with their instance's calendar index and operation (Tables 06-3, 07-3,
08-3). -/
def Sys2Proof.Machine.engineRow (i : Instr) (q op : Nat) : Prop :=
  (∃ e, (i = .ldpcDecode e none ∧ q = calIndex 3 e ∧ op = 0x01))
  ∨ (∃ e, i = .turboDecode e none ∧ q = calIndex 6 e ∧ op = 0x05)
  ∨ (∃ e, (i = .ldpcEncode e none ∧ q = calIndex 4 e ∧ op = 0x02))
  ∨ (∃ e, (i = .polarDecode e none ∧ q = calIndex 5 e ∧ op = 0x03) ∨ (i = .polarEncode e none ∧ q = calIndex 5 e ∧ op = 0x04))
  ∨ (∃ e, q = calIndex 7 (e : Fin 16) ∧
      ((i = .fftUl e none ∧ op = 0x10) ∨ (i = .fftDl e none ∧ op = 0x11) ∨ (i = .scale e none ∧ op = 0x12)))
  ∨ (∃ e, q = calIndex 2 (e : Fin 16) ∧
      ((i = .cef e none ∧ op = 0x20) ∨ (i = .weights e none ∧ op = 0x21) ∨ (i = .chol e none ∧ op = 0x22) ∨ (i = .qr e none ∧ op = 0x23)
        ∨ (i = .apply e none ∧ op = 0x24) ∨ (i = .sicw e none ∧ op = 0x25) ∨ (i = .sic e none ∧ op = 0x26)))
  ∨ (∃ e, i = .praDetect e none ∧ q = calIndex 8 e ∧ op = 0x30)
  ∨ (∃ e, (i = .sdcRun e none ∧ q = calIndex 9 e ∧ op = 0x40) ∨ (i = .coefLoad e none ∧ q = calIndex 9 e ∧ op = 0x41))

/-- Stage k of job h runs on instance q, its descriptor neither done nor halted, and argument ARG of the job names its
descriptor, which lies in a bank that accepts the instance, whole and clean. -/
def Sys2Proof.Machine.engineAt (s : State) (q h k : Nat) (j : Job) (a : Nat) : Prop :=
  s.settled ∧ cellsGood s ∧ s.engineStage q = some (h, k, j) ∧ a = (j.args.getD (j.stageT k).descArg 0).toNat ∧ a % 64 = 0
    ∧ s.memReady [instIdent (classOf q) (instOf q)] a ∧ ∀ w, w < 8 → s.poisoned (a / 8 + w) = false

/-- No bank of the descriptor's areas is in handover or behind a fence. -/
def Sys2Proof.Machine.engineQuiet (s : State) (d : Desc) : Prop :=
  ∀ p ∈ [(Desc.inAddr d, Desc.inLen d), (Desc.outAddr d, Desc.outLen d), (Desc.statusAddr d, 64), (Desc.auxAddr d, Desc.auxLen d)],
    ∀ x key, p.1 ≤ x → x < p.1 + p.2 → bankOf x = some key → s.pendingHandover key = false ∧ s.bankFenced key = false

/-- The areas an engine may write: output, status block and, for a decode or a gain run, soft buffers or gain log; a decode makes
undefined what other soft buffers hold that overlap its own while both are locked (R159). -/
def Sys2Proof.Machine.engineWrites (s : State) (q : Nat) (d : Desc) : List (Nat × Nat) :=
  let aux := (Desc.auxAddr d, Desc.auxLen d)
  [(Desc.outAddr d, Desc.outLen d), (Desc.statusAddr d, 64)] ++ (if classOf q ∈ [3, 6, 7] then [aux] else [])
    ++ if classOf q ∈ [3, 6] then
      ((s.locks (sectorOf q)).filter fun e => e.inst != q && overlaps (e.addr, e.len) aux).map fun e => (e.addr, e.len)
    else []

/-- Some code block's input is read clean (R161). -/
def Sys2Proof.Machine.someBlockClean (s : State) (d : Desc) : Prop :=
  ∃ c, c < Desc.blocks d ∧ ∀ x, Desc.inAddr d + Desc.eOff d c ≤ x → x < Desc.inAddr d + Desc.eOff d c + Desc.eOf d c →
    s.poisoned (x / 8) = false

/-- The registers an engine's descriptor may change: the instance's status and the counters of its class (Tables 06-10, 07-2,
08-6), for a chain its active settings too. -/
def Sys2Proof.Machine.engineRegs (q : Nat) : List Nat :=
  match classOf q with
  | 2 => [instStat q, Addr.mtxSatCnt, Addr.mtxPoisonInCnt, Addr.mtxSingularCnt, Addr.mtxToffRangeCnt]
  | 7 => [instStat q, Addr.fftAgcStepCnt, Addr.fftAgcLowCnt, Addr.fftAgcBadCnt, Addr.fftSatCnt, Addr.fftPoisonInCnt]
  | 8 => [instStat q, Addr.praPoisonInCnt, Addr.praDetCnt]
  | 9 => [Addr.sdcGapCnt, Addr.sdcOutClipCnt, Addr.sdcSatCnt, Addr.sdcPoisonInCnt, Addr.sdcSwapCnt, Addr.sdcSwapReplacedCnt,
      Addr.sdcBadsetCnt, Addr.sdcActCfg (instOf q), Addr.sdcActNco (instOf q), Addr.sdcActRs (instOf q),
      Addr.sdcCommit (instOf q)]
  | _ => [instStat q, Addr.cceCbFailCnt, Addr.cceEtCnt, Addr.ccePoisonInCnt, Addr.cceSbLostCnt, Addr.cceSbMismatchCnt,
      Addr.cceTbFailCnt, Addr.cceLlrClipCnt, Addr.cceSbBusyCnt, Addr.cceLocks (sectorOf q)]

/-- The status block is written with the operation and a status, the descriptor is done, and the instance shows it. -/
def Sys2Proof.Machine.reported (t : State) (q : Nat) (d : Desc) (status : Nat) : Prop :=
  t.byte (Desc.statusAddr d) = BitVec.ofNat 8 (Desc.op d) ∧ t.byte (Desc.statusAddr d + 1) = BitVec.ofNat 8 status
    ∧ t.engineDone q = true ∧ (classOf q ≠ 9 → t.fget (instStat q) Fld.cceInstStatLastStatus = status)

/-- R140 to R146, R159, R162, R184, R194: an engine whose descriptor passes its checks runs it and reports status 0: it writes no
byte outside the areas its descriptor names and no register but its own, and a decode that may use its soft buffer and reads
some block clean holds the lock; a failed check writes the status block alone; a descriptor or status block out of line halts the engine, and a
descriptor for another operation of the class is left to that operation's command. -/
def Obligations.EnginesRunDescriptors : Prop :=
  ∀ (i : Instr) (q op h k a : Nat) (j : Job) (s : State), engineRow i q op →
    (engineAt s q h k j a →
      let d : Desc := s.memVal a 64
      engineQuiet s d →
      (s.statusOk ⟨q, h, k, 0, d, 0⟩ = false → runs i s fun t => t.engineHalted q = true ∧ sameBytes s t ∧ t.cores = s.cores
        ∧ t.cmp = s.cmp ∧ t.reg (haltCnt (classOf q)) = bump (s.reg (haltCnt (classOf q))) 1)
      ∧ (s.statusOk ⟨q, h, k, 0, d, 0⟩ = true →
        (Desc.op d ≠ op → (classOps (classOf q)).contains (Desc.op d) = true → gives i s s)
        ∧ (Desc.op d = op → (op = 0x40 → (s.chain (instOf q)).nextIdx ≤ Desc.lineIdx d (s.chain (instOf q))) →
          (s.descCheck q a d ≠ 0 → runs i s fun t => reported t q d (s.descCheck q a d)
            ∧ sameBytesBut s t (Desc.statusAddr d) 64 ∧ t.cores = s.cores ∧ t.cmp = s.cmp ∧ t.chains = s.chains)
          ∧ (s.descCheck q a d = 0 → op ≠ 0x41 → runs i s fun t => reported t q d 0
            ∧ (∀ x, (∀ p ∈ engineWrites s q d, ¬ (p.1 ≤ x ∧ x < p.1 + p.2)) → t.byte x = s.byte x)
            ∧ (∀ b, b ∉ engineRegs q → t.reg b = s.reg b)
            ∧ (op = 0x01 ∨ op = 0x05 → Desc.sbEn d = true → s.lockFree q (Desc.auxAddr d) = true → someBlockClean s d →
                ⟨Desc.auxAddr d, Desc.auxLen d, q⟩ ∈ t.locks (sectorOf q))
            ∧ t = { s with banks := t.banks, regs := t.regs, eng := t.eng, freeCtr := t.freeCtr, chains := t.chains }))))
    ∧ (s.settled → s.engineStage q = some (h, k, j) → (j.args.getD (j.stageT k).descArg 0).toNat % 64 ≠ 0 →
      runs i s fun t => t.engineHalted q = true ∧ t.engineDone q = false ∧ sameBytes s t
        ∧ t.reg (haltCnt (classOf q)) = bump (s.reg (haltCnt (classOf q))) 1)

/-- A write of a register by `who` that only a Zelfa core or the debug access port makes: refused and counted from another, and
behind a fence (R202, R256). -/
def Sys2Proof.Machine.refusedWrite (i : Requester → Instr) (s : State) (a cnt : Nat) : Prop :=
  (∀ who, s.regFenced a = false → isZelfa who = false → runs (i who) s fun t => oneReg s t cnt (bump (s.reg cnt) 1))
    ∧ ∀ who, s.regFenced a = true → runs (i who) s fun t =>
        oneReg s t Addr.nocFenceRejCnt (bump (s.reg Addr.nocFenceRejCnt) 1)

/-- R190, R191, R194, R200 to R203: a RUN of an RX chain moves the chain's next line index past its samples; COEF_LOAD writes all
12,288 coefficients of a bank that is free with their poison, and reports BUSY for one in use; a fade that has had its
outputs makes its target the active bank; shadow settings and COMMIT are a Zelfa core's, and a shadow write after COMMIT
tears the set. -/
def Obligations.ChainsAndCoefficients : Prop :=
  ∀ (n : Fin 128) (s : State), s.settled →
    (∀ (h k a : Nat) (j : Job), engineAt s (calIndex 9 n) h k j a →
      let q := calIndex 9 n.val
      let d : Desc := s.memVal a 64
      engineQuiet s d → s.statusOk ⟨q, h, k, 0, d, 0⟩ = true → s.descCheck q a d = 0 →
        (Desc.op d = 0x40 → (s.chainT n).tx = false → (s.chain n).nextIdx ≤ Desc.lineIdx d (s.chain n) →
          runs (.sdcRun n none) s fun t => (t.chain n).nextIdx = Desc.lineIdx d (s.chain n) + Desc.sNin d
            ∧ ∀ m, m ≠ n.val → t.chain m = s.chain m)
        ∧ (Desc.op d = 0x41 → (s.chain n).coefBusy (Desc.sTarget d) = true → runs (.coefLoad n none) s fun t =>
          reported t q d 4 ∧ t.coef = s.coef ∧ t.reg Addr.sdcCoefBusyCnt = bump (s.reg Addr.sdcCoefBusyCnt) 1)
        ∧ (Desc.op d = 0x41 → (s.chain n).coefBusy (Desc.sTarget d) = false →
          (∀ e, e < 12288 → s.memVal (Desc.inAddr d + 4 * e) 4 < 2 ^ 18) → runs (.coefLoad n none) s fun t =>
            reported t q d 0 ∧ sameBytesBut s t (Desc.statusAddr d) 64
            ∧ (∀ e, e < 12288 → SMap.get noCoef t.coef (coefKey n (Desc.sTarget d) e)
                = BitVec.ofNat 18 (s.memVal (Desc.inAddr d + 4 * e) 4)
              ∧ SMap.get noFlag t.coefPoison (coefKey n (Desc.sTarget d) e) = s.poisoned ((Desc.inAddr d + 4 * e) / 8))
            ∧ ∀ x, (∀ e, e < 12288 → x ≠ coefKey n (Desc.sTarget d) e) → SMap.get noCoef t.coef x = SMap.get noCoef s.coef x))
    ∧ (∀ (target : Bool) (len m : Nat), (s.chain n).fade = some (target, len, m) → runs (.sdcFadeEnd n) s fun t =>
        (∀ x, x ≠ n.val → t.chain x = s.chain x) ∧
        if len ≤ m then t.chain n = { s.chain n with bankB := target, fade := none, valid := [] }
          ∧ onlyRegs s { t with chains := s.chains } [Addr.sdcSwapCnt]
          ∧ t.reg Addr.sdcSwapCnt = bump (s.reg Addr.sdcSwapCnt) 1
        else t.chain n = s.chain n ∧ t = { s with chains := t.chains })
    ∧ (∀ (r : Fin 3) (who : Requester) (v : Word), s.regFenced (sdcShadow n r).1 = false → isZelfa who = true →
      let set := ((sdcShadow n r).1, BitVec.ofNat 64 (v.toNat &&& (sdcShadow n r).2))
      runs (.sdcShadowWrite n r who v) s fun t =>
        if s.flag (Addr.sdcCommit n) Fld.sdcCommitCommit then
          regsBecome s t [set, (Addr.sdcTornCnt, bump (s.reg Addr.sdcTornCnt) 1),
            (Addr.sdcCommit n, Fld.put Fld.sdcCommitTorn (withField s (Addr.sdcCommit n) Fld.sdcCommitCommit 0) 1)]
        else regsBecome s t [set])
    ∧ (∀ (r : Fin 3) (v : Word),
        refusedWrite (fun who => .sdcShadowWrite n r who v) s (sdcShadow n r).1 Addr.sdcWrDenyCnt)
    ∧ (∀ v : Word, refusedWrite (fun who => .sdcCommitSet n who v) s (Addr.sdcCommit n) Addr.sdcWrDenyCnt)
    ∧ ∀ (who : Requester) (v : Word), s.regFenced (Addr.sdcCommit n) = false → isZelfa who = true →
        runs (.sdcCommitSet n who v) s fun t => onlyRegs s t [Addr.sdcCommit n]
          ∧ (t.flag (Addr.sdcCommit n) Fld.sdcCommitCommit = (v.getLsbD 0 || s.flag (Addr.sdcCommit n) Fld.sdcCommitCommit))
          ∧ (t.flag (Addr.sdcCommit n) Fld.sdcCommitTorn
              = (s.flag (Addr.sdcCommit n) Fld.sdcCommitTorn && !v.getLsbD 1))
          ∧ t.flag (Addr.sdcCommit n) Fld.sdcCommitBadset
              = (s.flag (Addr.sdcCommit n) Fld.sdcCommitBadset && !v.getLsbD 2)

/-! ### Memory tiles -/

/-- Of the whole state only registers and the bank's own record of its old owner differ, and the registers are these. -/
def Sys2Proof.Machine.ownerBecomes (s t : State) (l : List (Nat × DWord)) : Prop :=
  t = { s with regs := t.regs, banks := { s.banks with oldOwner := t.banks.oldOwner } }
    ∧ (∀ p ∈ l, t.reg p.1 = p.2) ∧ ∀ a, a ∉ l.map (·.1) → t.reg a = s.reg a

/-- R210 to R212: a Zelfa core's write of MEM_OWNER naming another identity starts a handover, keeps the content and blocks the
bank; of two writes in one cycle the lower-ranked loses and is counted; an unacceptable write changes only the count. A
handover completes with the new owner served, its bank cleared where CLR_HO or a BIST owner asks for it, and not otherwise.
A write of MEM_BANK_CFG that changes CODE in LOAD or SERVICE clears the bank; 0b11 is refused. -/
def Obligations.OwnershipAndHandover : Prop :=
  ∀ (b : Fin 25) (i : BitVec 8) (s : State), s.settled → bankValid (b.val * 256 + i.toNat) = true →
    let key := b.val * 256 + i.toNat
    let deny := fun n => (Addr.memOwnDenyCnt (key / 256), bump (s.reg (Addr.memOwnDenyCnt (key / 256))) n)
    let named := fun (o : Ident) => (ownerReg key, Fld.put Fld.memOwnerPending (Fld.put Fld.memOwnerIndex
      (withField s (ownerReg key) Fld.memOwnerKind o.kind) o.index) 1)
    let free := s.regFenced (ownerReg key) = false ∧ s.pendingHandover key = false
      ∧ s.flag (ownerReg key) Fld.memOwnerClearing = false
    (∀ (z : Fin 8) (o : Ident), free → Ident.ownable o = true → o ≠ s.owner key →
      (runs (.memOwnerWrite b i [⟨some (.zelfa z), o⟩]) s fun t => ownerBecomes s t [named o, deny 0])
      ∧ ∀ (y : Fin 8) (o' : Ident), z.val < y.val → Ident.ownable o' = true →
          runs (.memOwnerWrite b i [⟨some (.zelfa y), o'⟩, ⟨some (.zelfa z), o⟩]) s fun t =>
            ownerBecomes s t [named o, deny 1])
    ∧ (∀ (who : Requester) (o : Ident), s.regFenced (ownerReg key) = false → Ident.ownable o = false →
      runs (.memOwnerWrite b i [⟨some who, o⟩]) s fun t => ownerBecomes s t [deny 1])
    ∧ (s.pendingHandover key = true → s.banks.wf = true → runs (.handoverComplete b i) s fun t =>
        t.pendingHandover key = false ∧ t.owner key = s.owner key
        ∧ t.reg (Addr.memHoCnt (key / 256)) = bump (s.reg (Addr.memHoCnt (key / 256))) 1
        ∧ ∀ a, t.byte a = if bankOf a = some key ∧ (s.flag (cfgReg key) Fld.memBankCfgClrHo = true
            ∨ (identOf ((SMap.get noOwner s.banks.oldOwner key).getD 0)).kind = 6) then 0 else s.byte a)
    ∧ (s.pendingHandover key = false → gives (.handoverComplete b i) s s)
    ∧ ∀ (who : Requester) (v : Word), s.regFenced (cfgReg key) = false →
      (s.rwlOpen = true → s.banks.wf = true → runs (.memCodeChange b i who v) s fun t =>
        let code := v.toNat % 4
        let changes := code ≠ 3 ∧ code ≠ s.fget (cfgReg key) Fld.memBankCfgCode
        t.fget (cfgReg key) Fld.memBankCfgCrit = v.toNat / 16 % 2
        ∧ t.fget (cfgReg key) Fld.memBankCfgRetain = v.toNat / 8 % 2
        ∧ t.fget (cfgReg key) Fld.memBankCfgClrHo = v.toNat / 4 % 2
        ∧ t.fget (cfgReg key) Fld.memBankCfgCode = (if code = 3 then s.fget (cfgReg key) Fld.memBankCfgCode else code)
        ∧ t.reg (Addr.memCfgDenyCnt (key / 256)) = (if code = 3 then bump (s.reg (Addr.memCfgDenyCnt (key / 256))) 1
            else s.reg (Addr.memCfgDenyCnt (key / 256)))
        ∧ (∀ r, r ≠ cfgReg key → r ≠ Addr.memCfgDenyCnt (key / 256) → t.reg r = s.reg r)
        ∧ (∀ a, t.byte a = if bankOf a = some key ∧ changes then 0 else s.byte a)
        ∧ ∀ w, t.poisoned w = if bankOf (8 * w) = some key ∧ changes then false else s.poisoned w)
      ∧ (s.rwlOpen = false → runs (.memCodeChange b i who v) s fun t => onlyRegs s t [Addr.devRwlDenyCnt])

/-- The stored word's entry among the 16 spare words: none names it (R230). -/
def Sys2Proof.Machine.remapFree (s : State) (b : Fin 25) (e : Fin 16) (v : Word) : Prop :=
  s.regFenced (Addr.memRemap b e) = false ∧ s.remapValid b e = false
    ∧ s.remapTaken b e (v.toNat / 2 ^ 13 % 256) (v.toNat % 2 ^ 13) = false ∧ (b.val ≠ 24 → v.toNat / 2 ^ 13 % 256 < 192)

/-- R226 to R228, R230: a scrub of a line of sound words changes no data and moves on; a correctable word is counted, tracked and
queued, an uncorrectable one of a bank not critical is stored poisoned and counted; a write-back corrects the cells and marks
the tracker; the end of a lap reports it; an installed remap entry keeps the word's data in a spare word. -/
def Obligations.ScrubbingAndRemap : Prop :=
  ∀ (b : Fin 25) (s : State), s.settled →
    (∀ i : BitVec 8, bankValid (b.val * 256 + i.toNat) = true → s.scrubEnabled b = true → s.scrubRuns b = true →
      let key := b.val * 256 + i.toNat
      let base := bankBase key / 8 + 16 * s.scrubPos key
      s.scrubPos key < 512 → (s.owner key).kind ≠ 6 →
        let next := fun (t : State) => t.scrubPos key = s.scrubPos key + 1 ∧ sameBytes s t ∧ t.cores = s.cores
        ((∀ w, w < 16 → s.poisoned (base + w) = true ∨ s.check key (base + w) = .clean) →
          runs (.scrubLineCheck b i) s fun t => next t ∧ t.regs = s.regs ∧ ∀ w, t.poisoned w = s.poisoned w)
        ∧ ∀ x, x < 16 → s.poisoned (base + x) = false →
          (∀ w, w < 16 → w ≠ x → s.poisoned (base + w) = true ∨ s.check key (base + w) = .clean) →
          (s.check key (base + x) = .correctable → s.trkFind b (base + x) = none → (∃ n, n < 32 ∧ s.trk b n = none) →
            runs (.scrubLineCheck b i) s fun t => next t ∧ oneReg s { t with banks := s.banks } (Addr.memCeCnt b)
                (bump (s.reg (Addr.memCeCnt b)) 1)
              ∧ (∃ n, n < 32 ∧ t.trk b n = some ⟨base + x, 1, false⟩)
              ∧ ∃ at8, (base + x, at8) ∈ (t.scrub b).writeBacks)
          ∧ (s.check key (base + x) = .uncorrectable → s.flag (cfgReg key) Fld.memBankCfgCrit = false →
            runs (.scrubLineCheck b i) s fun t => t.scrubPos key = s.scrubPos key + 1
              ∧ (∀ w, t.poisoned w = if w = base + x then true else s.poisoned w)
              ∧ t.reg (Addr.memUeCnt b) = bump (s.reg (Addr.memUeCnt b)) 1
              ∧ t.flag Addr.hxEvtCause (Fld.cause 5) = true
              ∧ ∀ a, a / 8 ≠ base + x → t.byte a = s.byte a))
    ∧ (∀ (w : Nat) (at8 : Bool) (l : List (Nat × Bool)), (s.scrub b).writeBacks = (w, at8) :: l → s.scrubRuns b = true →
      runs (.scrubWriteBack b) s fun t => (t.scrub b).writeBacks = l ∧ sameBytes s t
        ∧ (∀ x, SMap.get noFlips t.banks.flips x = if x = w then 0 else SMap.get noFlips s.banks.flips x)
        ∧ (∃ n, n < 32 ∧ t.trk b n = some ⟨w, 0, true⟩)
        ∧ (at8 = true → t.reg (Addr.memWbCnt b) = bump (s.reg (Addr.memWbCnt b)) 1))
    ∧ (s.scrubEnabled b = true → s.scrubRuns b = true → s.lapOver b = true → runs (.scrubLapEnd b) s fun t =>
      let edges := s.time.runTicks - (s.scrub b).lapStart
      let most := s.fget (Addr.memScrubCfg b) Fld.memScrubCfgMaxLap
      t.fget (Addr.memScrubStat b) Fld.memScrubStatLapUs = min (edges * 25 / 12288) 16777215
      ∧ (t.flag (Addr.memScrubStat b) Fld.memScrubStatPartial = (s.scrub b).skipped)
      ∧ (∀ i, i < 256 → t.scrubPos (256 * b + i) = 0) ∧ sameBytes s t
      ∧ (most ≠ 0 → most * 491520 < edges → t.flag (Addr.memScrubStat b) Fld.memScrubStatAlarm = true
          ∧ t.reg (Addr.memScrubAlarmCnt b) = bump (s.reg (Addr.memScrubAlarmCnt b)) 1))
    ∧ ∀ (e : Fin 16) (who : Requester) (v : Word),
      let w := remapWord b (v.toNat / 2 ^ 13 % 256) (v.toNat % 2 ^ 13)
      let key := 256 * b.val + v.toNat / 2 ^ 13 % 256
      (remapFree s b e v → isZelfa who = true → v.getLsbD 31 = true → runs (.memRemapInstall b e who v) s fun t =>
        t.remapValid b e = true
        ∧ SMap.get noFlag t.banks.spare w = true ∧ t.errMask w = 0
        ∧ t.reg (Addr.memRemapInstCnt b) = bump (s.reg (Addr.memRemapInstCnt b)) 1
        ∧ (∀ a, a / 8 ≠ w → t.byte a = s.byte a)
        ∧ (s.poisoned w = false → s.check key w = .clean ∨ s.check key w = .correctable →
            (∀ a, t.byte a = s.byte a) ∧ t.poisoned w = false))
      ∧ (s.regFenced (Addr.memRemap b e) = false → s.remapValid b e = false → v.getLsbD 31 = false →
        runs (.memRemapInstall b e who v) s fun t => onlyRegs s t [Addr.memRemap b e] ∧ t.remapValid b e = false
          ∧ t.fget (Addr.memRemap b e) Fld.memRemapBank = v.toNat / 2 ^ 13 % 256
          ∧ t.fget (Addr.memRemap b e) Fld.memRemapWord = v.toNat % 2 ^ 13)
      ∧ (s.regFenced (Addr.memRemap b e) = false → s.remapValid b e = true ∨ v.getLsbD 31 = true ∧ isZelfa who = false →
        runs (.memRemapInstall b e who v) s fun t =>
          oneReg s t (Addr.memRemapDenyCnt b) (bump (s.reg (Addr.memRemapDenyCnt b)) 1))

/-! ### Orthogon and the Chord ring -/

/-- Nothing hinders a flit that comes into router r in cycle c: the PLL is locked, no flit waits there, no input
resynchronises, and no output has sent in this cycle. -/
def Sys2Proof.Machine.rtrIdle (s : State) (r c : Nat) : Prop :=
  s.locked = true ∧ s.waiting r = [] ∧ (∀ p, SMap.get noFlag s.noc.resync (inKey r p) = false)
    ∧ ∀ o, SMap.get (fun _ => 0) s.noc.sent (inKey r o) ≠ c + 1

/-- What a sound flit leaves: it has gone by output o with the header h, the reservations are l, and its stream's path is x. -/
def Sys2Proof.Machine.flitLeft (s t : State) (r o : Nat) (h : BitVec 56) (lanes : BitVec 512) (l : List Resv) (key : Nat)
    (x : Option FlitPath) : Prop :=
  t = { s with out := .flit r o h lanes :: s.out, noc := t.noc } ∧ t.path key = x
    ∧ (∀ k, k ≠ key → t.path k = s.path k) ∧ (∀ k, t.waiting k = s.waiting k)
    ∧ (∀ k, SMap.get noFlag t.noc.resync k = SMap.get noFlag s.noc.resync k)
    ∧ t.noc = { s.noc with
        resv := l
        paths := t.noc.paths
        hold := t.noc.hold
        served := t.noc.served
        sent := t.noc.sent
        wait := t.noc.wait
        resync := t.noc.resync }

/-- Of two flits that wait for output o of router r, x goes first (R241, R242): the one whose flow owns the slot; a VC0 flit of
the lower FLOW; the greater effective priority; VC3 before VC1 before VC2; the input that comes first after the last served. -/
def Sys2Proof.Machine.goesFirst (s : State) (r o c : Nat) (x y : WaitFlit) : Prop :=
  let own := fun z : WaitFlit => Flit.vc z.hdr = 0 ∧ Flit.epoch z.hdr = s.epoch
    ∧ s.slotOwner s.epoch r o (c % 256) = some (Flit.flow z.hdr)
  let rank := fun z : WaitFlit => if Flit.vc z.hdr = 3 then 3 else if Flit.vc z.hdr = 1 then 2 else 1
  let prio := fun z : WaitFlit => min 3 (Flit.prio z.hdr + (c - z.since) / 512)
  let turn := fun z : WaitFlit => (z.inp + 15 - SMap.get (fun _ => 15) s.noc.served (inKey r o)) % 16
  ¬ own y ∧ (own x ∨ (Flit.vc x.hdr = 0 ∧ (Flit.vc y.hdr ≠ 0 ∨ Flit.flow x.hdr < Flit.flow y.hdr))
    ∨ (Flit.vc x.hdr ≠ 0 ∧ Flit.vc y.hdr ≠ 0 ∧ (prio y < prio x ∨ (prio x = prio y
        ∧ (rank y < rank x ∨ (rank x = rank y ∧ turn x < turn y))))))

/-- R235, R241, R242, R244, R247, R248, R251, R252: within a die a route goes X first, then Y, then to the packet's port; a sound
flit that meets no other leaves by its packet's route in the cycle it comes in; a READ or WRITE enters only with a free
reservation, and takes it; of the flits that wait for an output the first in the order of R242 leaves; a flit with an
uncorrectable header is discarded and its input resynchronises at the next HEAD; a sound ring packet is delivered, and a
corrected error counted. -/
def Obligations.FlitsFollowTheirRoute : Prop :=
  (∀ (r src dest dp : Nat) (en : Nat → Nat), rtrDie r = rtrDie dest → routePort r src dest dp en =
      if rtrX r < rtrX dest then 5 else if rtrX dest < rtrX r then 7
      else if rtrY r < rtrY dest then 4 else if rtrY dest < rtrY r then 6 else dp)
  ∧ (∀ (r : Fin 112) (p : Fin 15) (h : BitVec 56) (lanes : BitVec 512) (sub : Fin 16) (e : Fin 3) (s : State), s.settled →
      rtrIdle s r (s.nocCycle e) → hasPort r p = true →
      let i : Instr := .orthogonFlitHop r [⟨p, h, lanes, 0, 0, sub⟩] 0 e
      let pkt := lanes.setWidth 256
      let free := fun (o : Nat) (h' : BitVec 56) => hasPort r o = true ∧ (Flit.vc h' = 0 ∨ s.holder r o (Flit.vc h') = none)
      let leaves := fun (o : Nat) (h' : BitVec 56) (l : List Resv) (key : Nat) (x : Option FlitPath) =>
        runs i s fun t => flitLeft s t r o h' lanes l key x
      (Flit.isHead h = true →
        let h' := if p.val < 4 then s.injectHdr h pkt else h
        let out := routePort r (Pkt.srcRtr pkt) (Flit.dest h') (Flit.destPort h') (s.bridgeEn (Flit.epoch h'))
        let x := if Flit.type h' = 0 then some ⟨out, dataFlits pkt, h', Pkt.src pkt⟩ else none
        free out h' →
        (4 ≤ p.val → leaves out h s.noc.resv (streamKey r p h) x)
        ∧ (p.val < 4 → (∀ d, injectDomain pkt = some d → s.drained d = false) →
            (Pkt.op pkt ≠ 1 ∧ Pkt.op pkt ≠ 2 → leaves out h' s.noc.resv (streamKey r p h') x)
            ∧ (Pkt.op pkt = 1 ∨ Pkt.op pkt = 2 → s.canReserve (identOf (Pkt.src pkt)) sub (Pkt.srcPort pkt) (Pkt.tag pkt) = true →
              leaves out h' (s.noc.resv ++ [⟨identOf (Pkt.src pkt), Pkt.tag pkt, s.time.ticks, Pkt.srcRtr pkt, Pkt.srcPort pkt,
                sub, Pkt.op pkt == 2, Pkt.addr pkt, Pkt.len pkt⟩]) (streamKey r p h') x)))
      ∧ (Flit.isHead h = true → p.val < 4 →
          (∃ d, injectDomain pkt = some d ∧ s.drained d = true)
            ∨ (Pkt.op pkt = 1 ∨ Pkt.op pkt = 2)
              ∧ s.canReserve (identOf (Pkt.src pkt)) sub (Pkt.srcPort pkt) (Pkt.tag pkt) = false →
          gives i s s)
      ∧ ∀ x : FlitPath, Flit.isHead h = false → s.path (s.pathKey r p h) = some x → hasPort r x.out = true →
          let h' := if p.val < 4 then Flit.mark (Flit.withType x.hdr (Flit.type h)) (BitVec.ofNat 8 (Flit.poison h)) else h
          (Flit.vc h' = 0 ∨ s.holder r x.out (Flit.vc h') = some p.val) →
          leaves x.out h' s.noc.resv (s.pathKey r p h)
            (if Flit.type h = 2 ∨ x.left ≤ 1 then none else some { x with left := x.left - 1 }))
  ∧ (∀ (r : Fin 112) (o : Fin 15) (e : Fin 3) (s : State), s.settled → s.locked = true → hasPort r o = true →
      s.draining = false →
      let c := s.nocCycle e
      SMap.get (fun _ => 0) s.noc.sent (inKey r o) ≠ c + 1 → (∀ vc, s.holder r o vc = none) →
      (∀ z ∈ s.waiting r, z.out = o ∧ Flit.isHead z.hdr = true ∧ z.deferred = false) →
      ((s.waiting r).map (·.inp)).Nodup →
      ∀ x ∈ s.waiting r, (∀ y ∈ s.waiting r, y ≠ x → goesFirst s r o c x y) →
        runs (.orthogonFlitHop r [] 0 e) s fun t => t = { s with out := .flit r o x.hdr x.lanes :: s.out, noc := t.noc }
          ∧ t.waiting r = (s.waiting r).erase x ∧ ∀ k, k ≠ r.val → t.waiting k = s.waiting k)
  ∧ (∀ (r : Fin 112) (p : Fin 15) (h : BitVec 56) (lanes : BitVec 512) (flips : BitVec 64) (lf : BitVec 576) (sub : Fin 16)
      (e : Fin 3) (s : State), s.settled → s.locked = true → s.waiting r = [] → s.draining = false → hasPort r p = true →
      8 ≤ p.val →
      (popcount80 (flips.setWidth 80) = 2 → s.openPaths r p = [] → SMap.get noFlag s.noc.resync (inKey r p) = false →
        runs (.orthogonFlitHop r [⟨p, h, lanes, flips, lf, sub⟩] 0 e) s fun t =>
          SMap.get noFlag t.noc.resync (inKey r p) = true ∧ t.noc = { s.noc with resync := t.noc.resync }
          ∧ t.reg Addr.nocHdrUeCnt = bump (s.reg Addr.nocHdrUeCnt) 1 ∧ sameBytes s t)
      ∧ (Flit.isHead h = false → SMap.get noFlag s.noc.resync (inKey r p) = true →
        runs (.orthogonFlitHop r [⟨p, h, lanes, 0, 0, sub⟩] 0 e) s fun t => t.out = .credit r p :: s.out
          ∧ oneReg { s with out := t.out } t Addr.nocResyncDiscardCnt (bump (s.reg Addr.nocResyncDiscardCnt) 1)))
  ∧ (∀ (rsp : Bool) (a b : Fin 16), a ≠ b → ((chordPath rsp a b).getLast?.map (·.node)) = some b.val
      ∧ (chordPath rsp a b).length = min ((a.val + 4 - b.val % 4) % 4) ((b.val + 4 - a.val % 4) % 4)
          + min ((a.val / 4 + 4 - b.val / 4) % 4) ((b.val / 4 + 4 - a.val / 4) % 4))
  ∧ ∀ (src dest : Fin 16) (f : ChordFlit) (l : List ChordFlit) (s : State), s.settled →
      Pkt.crc f.lanes = Pkt.crcOf f.lanes (chordPayload (f :: l)) →
      let out := .chord src dest f.lanes (chordPayload (f :: l)) :: s.out
      gives (.chordPacket src dest (f :: l) []) s { s with out := out }
      ∧ ∀ (hop i : Fin 4) (hf : BitVec 64) (lf : BitVec 288),
          hop.val < (chordPath (Pkt.isRsp f.lanes) src dest).length → i.val ≤ l.length →
          (popcount80 (hf.setWidth 80) = 1 ∧ lf = 0) ∨ (hf = 0 ∧ ∃ k, k < 288 ∧ lf = BitVec.ofNat 288 (2 ^ k)) →
          runs (.chordPacket src dest (f :: l) [⟨hop, i, hf, lf⟩]) s fun t =>
            oneReg { s with out := out } t Addr.nocChordCeCnt (bump (s.reg Addr.nocChordCeCnt) 1)

/-- The request names bytes of one bank that accepts its requester, of sound cells, or is one that nothing fences. -/
def Sys2Proof.Machine.pktAt (s : State) (p : BitVec 256) : Prop :=
  s.settled ∧ cellsGood s ∧ s.draining = false ∧ Pkt.bytes p ≠ 0 ∧ s.memReady (Pkt.ids p) (Pkt.addr p)

/-- The payload bytes that a packet of flit header h carries, none of them poisoned. -/
def Sys2Proof.Machine.pktBytes (h : BitVec 56) (p : BitVec 256) (x : BitVec 1024) : List (Byte × Bool) :=
  if Pkt.hasPayload p = true then (Pkt.data p x 0).take (Pkt.carried h p) else Pkt.data p x 0

/-- A response has entered the buffer of its requester, whose reservation r it ends. -/
def Sys2Proof.Machine.responseKept (s t : State) (r : Resv) (status : Option Nat) (d : List (Byte × Bool)) : Prop :=
  t.noc = { s.noc with
    resv := s.noc.resv.erase r
    taken := (s.noc.taken.filter fun x => !(x.who == r.who && x.port == r.port && x.tag == r.tag))
      ++ [⟨r.who, r.port, r.tag, status, if r.write = true then [] else d⟩] }

/-- R238, R245, R246, R249, R256: a READ is answered with the bytes of memory and their poison, a WRITE and a WRITE_P store
their payload and only the first is acknowledged; behind a fence a request is answered TARGET_ASLEEP, a posted write dropped;
a response ends its reservation and enters its requester's buffer, or is an error, which a core takes as ACCESS; one that
comes after its timeout is discarded, counted and logged; a request that fails its CRC is discarded and counted, or stores
poisoned data; a reservation that ends by timeout leaves its requester an error completion. -/
def Obligations.PacketsAreServed : Prop :=
  ∀ (h : BitVec 56) (p : BitVec 256) (x : BitVec 1024) (s : State),
    let a := Pkt.addr p
    let who := identOf (Pkt.src p)
    let i : Instr := .orthogonPacketDelivery h p x 0 false false none
    let answer := fun (op status : Nat) (d : List (Byte × Bool)) =>
      let rsp := Pkt.response p op status false (d.map (·.1))
      Output.nocRsp (s.rspHdr rsp d) rsp d
    (pktAt s p → Pkt.crcOk h p x = true →
      (Pkt.op p = 1 → gives i s
        (s.emit (answer 0x81 0 ((List.range (Pkt.bytes p)).map fun i => (s.byte (a + i), s.poisoned ((a + i) / 8))))))
      ∧ (Pkt.op p = 2 ∨ Pkt.op p = 3 →
          let n := Pkt.carried h p
          runs i s fun t =>
          (∀ y, t.byte y = if a ≤ y ∧ y < a + n then BitVec.ofNat 8 (x.toNat / 256 ^ (y - a)) else s.byte y)
          ∧ (∀ w, (∀ i, i < n → (a + i) / 8 ≠ w) → t.poisoned w = s.poisoned w)
          ∧ t = { s with banks := t.banks, out := t.out }
          ∧ t.out = if Pkt.op p = 2 then answer 0x82 0 [] :: s.out else s.out))
    ∧ (s.settled → s.draining = false → Pkt.crcOk h p x = true → (∃ d, targetDomain a = some d ∧ s.fenced d = true) →
      (Pkt.op p = 1 → runs i s fun t => t.out = answer 0x81 2 (List.replicate (Pkt.bytes p) (0, true)) :: s.out
          ∧ oneReg { s with out := t.out } t Addr.nocFenceRejCnt (bump (s.reg Addr.nocFenceRejCnt) 1))
      ∧ (Pkt.op p = 2 → runs i s fun t => t.out = answer 0x82 2 [] :: s.out
          ∧ oneReg { s with out := t.out } t Addr.nocFenceRejCnt (bump (s.reg Addr.nocFenceRejCnt) 1))
      ∧ (Pkt.op p = 3 → runs i s fun t => oneReg s t Addr.nocFenceDropCnt (bump (s.reg Addr.nocFenceDropCnt) 1)))
    ∧ (s.settled → s.draining = false → Pkt.op p = 0x81 ∨ Pkt.op p = 0x82 → Pkt.crcOk h p x = true →
      (∀ r, s.resvFor who (Pkt.srcPort p) (Pkt.tag p) = some r →
        (Pkt.status p = 0 → Pkt.busy p = false ∨ r.write = true ∨ Ident.reissues who = false → runs i s fun t =>
          responseKept s t r (some 0) (pktBytes h p x) ∧ t = { s with noc := t.noc, out := t.out }
          ∧ t.out = if r.who = Ident.host ∧ r.write = false then .hostRsp ((pktBytes h p x).map (·.1)) 0 :: s.out else s.out)
        ∧ (Pkt.status p = 0 → Pkt.busy p = true → r.write = false → Ident.reissues who = true → runs i s fun t =>
          t = { s with noc := { s.noc with resv := s.noc.resv.erase r } })
        ∧ (Pkt.status p ≠ 0 → r.who.kind = 3 ∨ r.who.kind = 4 → runs i s fun t => t = { s with noc := t.noc }
          ∧ responseKept s t r (some (Pkt.status p)) (List.replicate r.len (0, true)))
        ∧ (Pkt.status p ≠ 0 → (r.who.kind = 0 ∧ r.sub < 8) ∨ (r.who.kind = 1 ∧ r.who.index < 192 ∧ r.sub ≠ 1) →
          let k := if r.who.kind = 0 then 192 + r.sub else r.who.index
          s.handles k → s.plain k → runs i s fun t => responseKept s t r (some (Pkt.status p)) (List.replicate r.len (0, true))
            ∧ takesExc s t k Exc.access (some (BitVec.ofNat 32 r.addr))))
      ∧ ∀ r, s.resvFor who (Pkt.srcPort p) (Pkt.tag p) = none →
          s.noc.expired.find? (fun r => r.who == who && r.port == Pkt.srcPort p && r.tag == Pkt.tag p) = some r →
          runs i s fun t =>
            t.noc = { s.noc with expired := s.noc.expired.erase r } ∧ sameBytes s t
            ∧ t.reg Addr.nocLateRspCnt = bump (s.reg Addr.nocLateRspCnt) 1)
    ∧ (s.settled → s.draining = false → Pkt.crcOk h p x = false →
      (Pkt.hasPayload p = false → runs i s fun t => sameBytes s t ∧ t.noc = s.noc
        ∧ t.reg Addr.nocCrcErrCnt = bump (s.reg Addr.nocCrcErrCnt) 1)
      ∧ (Pkt.op p = 2 ∨ Pkt.op p = 3 → pktAt s p → runs i s fun t =>
          (∀ i, i < Pkt.carried h p → t.poisoned ((a + i) / 8) = true)
          ∧ t.reg Addr.nocCrcErrCnt = bump (s.reg Addr.nocCrcErrCnt) 1))
    ∧ ∀ (tag : BitVec 8) (port : Fin 4) (r : Resv), s.settled → s.time.counting = true →
        s.resvFor who port tag.toNat = some r →
        runs (.reservationTimeout who tag port) s fun t =>
          t.noc.resv = s.noc.resv.erase r ∧ t.noc.expired = s.noc.expired ++ [r]
          ∧ t.noc.taken.getLast? = some ⟨r.who, r.port, r.tag, none, if r.write = true then [] else List.replicate r.len (0, true)⟩
          ∧ t.time.ticks = max s.time.ticks (r.injected + 9831)
          ∧ t.reg Addr.nocTimeoutCnt = bump (s.reg Addr.nocTimeoutCnt) 1

/-- COMMIT is cleared, TORN set and NOC_TORN_CNT counted, where COMMIT was set. -/
def Sys2Proof.Machine.nocTorn (s : State) : List (Nat × DWord) :=
  if s.nocArmed then [(Addr.nocTornCnt, bump (s.reg Addr.nocTornCnt) 1),
    (Addr.nocEpochCtrl, Fld.put Fld.nocEpochCtrlTorn (withField s Addr.nocEpochCtrl Fld.nocEpochCtrlCommit 0) 1)]
  else []

/-- The next slot of NOC_WHEEL_ADDR. -/
def Sys2Proof.Machine.nextSlot' (s : State) : Nat × DWord :=
  (Addr.nocWheelAddr, withField s Addr.nocWheelAddr Fld.nocWheelAddrSlot (s.fget Addr.nocWheelAddr Fld.nocWheelAddrSlot + 1))

/-- R253 to R256: a Zelfa core writes the shadow wheel and bridge set, which a later write tears; an armed set that keeps every
bridge router a link becomes active at a wheel boundary with the other epoch, or is refused; while old-epoch packets drain, the
old flow's flit takes its slot and the other is deferred; the drain ends with the last old packet; a voted domain is fenced,
drains when nothing is outstanding, or refuses by its timeout. -/
def Obligations.EpochsAndFences : Prop :=
  ∀ s : State, s.settled →
    (∀ (who : Requester) (v : Word), isZelfa who = true → s.flag Addr.nocWheelAddr Fld.nocWheelAddrBank = false →
      let r := s.fget Addr.nocWheelAddr Fld.nocWheelAddrRouter
      r < 112 → hasPort r (s.fget Addr.nocWheelAddr Fld.nocWheelAddrPort) = true → runs (.nocWheelWrite who v) s fun t =>
        regsBecome { s with noc := t.noc } t (nextSlot' s :: nocTorn s)
        ∧ t.noc = { s.noc with wheelSh := t.noc.wheelSh, markAt := s.time.ticks }
        ∧ ∀ k, (SMap.get (fun _ => (0 : Word)) t.noc.wheelSh k).toNat =
            if k = s.wheelAddr then v.toNat % 4096 + v.toNat / 32768 % 2 * 32768
            else (SMap.get (fun _ => (0 : Word)) s.noc.wheelSh k).toNat)
    ∧ (∀ (who : Requester) (v : Word), isZelfa who = false → runs (.nocWheelWrite who v) s fun t =>
        regsBecome s t [nextSlot' s, (Addr.nocWrDenyCnt, bump (s.reg Addr.nocWrDenyCnt) 1)])
    ∧ (∀ (who : Requester) (b : Fin 3) (v : Word),
        (isZelfa who = true → runs (.nocBrgShWrite who b v) s fun t =>
          regsBecome { s with noc := { s.noc with markAt := s.time.ticks } } t
            ((Addr.nocBrgSh b, withField s (Addr.nocBrgSh b) Fld.nocBrgShEn v.toNat) :: nocTorn s))
        ∧ (isZelfa who = false → runs (.nocBrgShWrite who b v) s fun t =>
          oneReg s t Addr.nocWrDenyCnt (bump (s.reg Addr.nocWrDenyCnt) 1)))
    ∧ (∀ (who : Requester) (v : Word), runs (.nocEpochCommit who v) s fun t =>
        onlyRegs { s with noc := { s.noc with markAt := if v.getLsbD 0 then s.time.ticks else s.noc.markAt } } t
          [Addr.nocEpochCtrl]
        ∧ (t.nocArmed = (v.getLsbD 0 || s.nocArmed))
        ∧ (t.flag Addr.nocEpochCtrl Fld.nocEpochCtrlTorn
            = (s.flag Addr.nocEpochCtrl Fld.nocEpochCtrlTorn && !v.getLsbD 1))
        ∧ t.flag Addr.nocEpochCtrl Fld.nocEpochCtrlBadset
            = (s.flag Addr.nocEpochCtrl Fld.nocEpochCtrlBadset && !v.getLsbD 2))
    ∧ (∀ old : BitVec 16, s.nocArmed = true → s.draining = false →
        let u := s.toWheelBoundary
        let ok := brgSetOk fun b => s.fget (Addr.nocBrgSh b) Fld.nocBrgShEn
        (s.time.counting = true → s.noc.base ≤ s.time.ticks → (u.time.ticks - u.noc.base) % 96 = 0
          ∧ (s.noc.markAt = s.time.ticks → s.time.ticks < u.time.ticks))
        ∧ runs (.nocEpochCopy old) s fun t => t.nocArmed = false ∧ t.time = u.time ∧
          if ok = true then t.noc = { s.noc with wheelOld := s.noc.wheelAct, wheelAct := s.noc.wheelSh, brgOld := t.noc.brgOld }
            ∧ t.draining = true ∧ (∀ b, b < 3 → t.reg (Addr.nocBrgAct b) = s.reg (Addr.nocBrgSh b)
                ∧ t.noc.brgOld.getD b 0 = s.fget (Addr.nocBrgAct b) Fld.nocBrgActEn)
            ∧ t.fget Addr.nocEpochStat Fld.nocEpochStatEpoch = 1 - s.fget Addr.nocEpochStat Fld.nocEpochStatEpoch
            ∧ t.fget Addr.nocEpochStat Fld.nocEpochStatOldPkts = old.toNat
          else t.noc = s.noc ∧ t.flag Addr.nocEpochCtrl Fld.nocEpochCtrlBadset = true ∧ t.draining = false
            ∧ t.reg Addr.nocBadsetCnt = bump (s.reg Addr.nocBadsetCnt) 1)
    ∧ (s.draining = true →
        let old := s.fget Addr.nocEpochStat Fld.nocEpochStatOldPkts
        let ended := fun (t : State) => t.draining = false ∧ onlyRegs { s with noc := t.noc } t [Addr.nocEpochStat]
          ∧ t.noc = { s.noc with wheelOld := [], brgOld := [], markAt := s.time.ticks }
        (old = 0 → runs .nocDrainEnd s ended) ∧ (old ≠ 0 → gives .nocDrainEnd s s)
        ∧ (∀ (h : BitVec 56) (p : BitVec 256) (x : BitVec 1024), Pkt.op p = 0x82 → Pkt.crcOk h p x = true →
            s.resvFor (identOf (Pkt.src p)) (Pkt.srcPort p) (Pkt.tag p) = none → s.noc.expired = [] → Flit.epoch h ≠ s.epoch →
            runs (.orthogonPacketDelivery h p x 0 false false none) s fun t =>
              if old ≤ 1 then ended t
              else oneReg s t Addr.nocEpochStat (withField s Addr.nocEpochStat Fld.nocEpochStatOldPkts (old - 1)))
        ∧ ∀ (r : Fin 112) (o : Fin 15) (e : Fin 3) (x y : WaitFlit), s.locked = true → hasPort r o = true →
            SMap.get (fun _ => 0) s.noc.sent (inKey r o) ≠ s.nocCycle e + 1 →
            s.waiting r = [x, y] → x.inp ≠ y.inp → x.out = o → y.out = o →
            (∀ z ∈ [x, y], Flit.vc z.hdr = 0 ∧ s.slotOwner (Flit.epoch z.hdr) r o (s.nocCycle e % 256) = some (Flit.flow z.hdr)) →
            Flit.epoch x.hdr = 1 - s.epoch → Flit.epoch y.hdr = s.epoch → Flit.flow x.hdr ≠ Flit.flow y.hdr →
            runs (.orthogonFlitHop r [] 0 e) s fun t => t.out = .flit r o x.hdr x.lanes :: s.out
              ∧ t.waiting r = [{ y with deferred := true }]
              ∧ oneReg { s with out := t.out, noc := t.noc } t Addr.nocEpochDeferCnt (bump (s.reg Addr.nocEpochDeferCnt) 1))
    ∧ ∀ d : Fin 30,
        (∀ n : BitVec 16, s.voteAsks d = true → s.fenced d = false → runs (.domainFence d n) s fun t =>
          onlyRegs s t [Addr.nocFenceStat d] ∧ t.fenced d = true
          ∧ t.fget (Addr.nocFenceStat d) Fld.nocFenceStatAdmitted = n.toNat)
        ∧ (s.fenced d = true → s.fget (Addr.nocFenceStat d) Fld.nocFenceStatAdmitted = 0 →
          (s.resvIn d = false → runs (.fenceDrained d) s fun t =>
            onlyRegs s t [Addr.nocFenceStat d] ∧ t.fenced d = true ∧ t.drained d = true
            ∧ t.fget (Addr.nocFenceStat d) Fld.nocFenceStatAdmitted = 0)
          ∧ (s.resvIn d = true → gives (.fenceDrained d) s s))
        ∧ (s.voteAsks d = true → s.fenced d = true → s.drained d = false → s.mode ≠ Mode.sleep →
          (d.val < 24 → s.clusterAsleep d = false) →
          runs (.fenceDrainTimeout d) s fun t => t.pwr.vote = none ∧ t.fenced d = false ∧ t.mode = s.mode)

/-! ### DMA -/

/-- The other channels' states are as they were. -/
def Sys2Proof.Machine.otherChannels (s t : State) (c ch : Nat) : Prop :=
  ∀ c' ch', (c', ch') ≠ (c, ch) → ch' < 16 → t.dmaCh c' ch' = s.dmaCh c' ch'

/-- The channel has ended with an outcome, which is counted. -/
def Sys2Proof.Machine.endedAs (s t : State) (c ch outcome : Nat) : Prop :=
  t.dmaState c ch = (if outcome = 2 then Dma.idleAtEnd else Dma.idle) ∧ t.fget (Addr.dmaStat c ch) Fld.dmaStatOutcome = outcome
    ∧ t.reg (Addr.dmaOutCnt c outcome) = bump (s.reg (Addr.dmaOutCnt c outcome)) 1 ∧ (t.dmaCh c ch).block = none

/-- Each of n bytes from a lies in a bank that accepts one of the identities. -/
def Sys2Proof.Machine.rangeReady (s : State) (ids : List Ident) (a n : Nat) : Prop := ∀ i, i < n → s.memReady ids (a + i)

/-- The n bytes from src have been moved to dst, and no other byte has changed. -/
def Sys2Proof.Machine.moved (s t : State) (src dst n : Nat) : Prop :=
  ∀ x, t.byte x = if dst ≤ x ∧ x < dst + n then s.byte (src + (x - dst)) else s.byte x

/-- R259, R261, R265, R267, R268: a START of an idle channel latches its writer and holds the checked block, or ends at
the check; a block moves its bytes and completes, a list's block moving on to the next entry; a bus error stops every
busy channel, and at the end of the stop the failing channel records BUS_ERROR and the others STOPPED_BY_PEER. R263,
R264, R270, R271: a list fetch copies COUNT into SEEN and turns a clean entry that passes its check into the channel's
block, ends with LIST_POISON on a poisoned one and with LENGTH_ERROR on one with a reserved bit; RING adds 1 to COUNT
and resumes a channel in IDLE_AT_END. -/
def Obligations.DmaMovesAndLists : Prop :=
  (∀ (c : Fin 25) (ch : Fin 16) (s : State), s.settled →
     (∀ (who : Requester) (v : Word), s.regFenced (Addr.dmaCtrl c ch) = false → s.dmaStopped c = false →
       s.dmaActive c ch = false → (s.dmaCh c ch).held = none →
       let src := s.fget (Addr.dmaSrc c ch) Fld.dmaSrcAddr
       let dst := s.fget (Addr.dmaDst c ch) Fld.dmaDstAddr
       let n := s.fget (Addr.dmaCnt c ch) Fld.dmaCntCount
       let check := s.dmaCheck [Ident.dma c, reqIdent who] src dst n
       (dmaWriter c who = false → runs (.dmaStart c ch who v) s fun t =>
         oneReg s t (Addr.dmaWrDenyCnt c) (bump (s.reg (Addr.dmaWrDenyCnt c)) 1))
       ∧ (dmaWriter c who = true → v.getLsbD 31 = true → Fld.get Fld.dmaCtrlMode (v.setWidth 64) = 0 →
         (n ≠ 0 → check = none → runs (.dmaStart c ch who v) s fun t => t.dmaState c ch = Dma.busy
           ∧ t.dmaCh c ch = { DmaCh.init with obo := reqIdent who, job := s.dmaJob who, srcPtr := src, dstPtr := dst
                                              block := some ⟨src, dst, n, false, false, false⟩ }
           ∧ t.reg (Addr.dmaDone c ch) = 0 ∧ t.reg (Addr.dmaFaultAddr c ch) = 0 ∧ otherChannels s t c ch
           ∧ t = { s with regs := t.regs, dma := t.dma })
         ∧ (∀ o a, n ≠ 0 → check = some (o, a) → runs (.dmaStart c ch who v) s fun t => endedAs s t c ch o
           ∧ t.reg (Addr.dmaFaultAddr c ch) = BitVec.ofNat 64 (2 ^ 63 + a % 2 ^ 48) ∧ otherChannels s t c ch
           ∧ t = { s with regs := t.regs, dma := t.dma })
         ∧ (n = 0 → runs (.dmaStart c ch who v) s fun t => endedAs s t c ch 1 ∧ sameBytes s t ∧ otherChannels s t c ch)))
     ∧ (∀ (b : DmaBlock) (host : List (Byte × Bool)) (ok : Bool), s.dmaState c ch = Dma.busy → cellsGood s →
       (s.dmaCh c ch).block = some b → (s.dmaCh c ch).wrote = [] → (s.dmaCh c ch).moved = 0 → b.len < 2 ^ 24 →
       rangeReady s (s.dmaIds c ch) b.src b.len →
       rangeReady s (s.dmaIds c ch) b.dst b.len → (b.src + b.len ≤ b.dst ∨ b.dst + b.len ≤ b.src) →
       (s.dmaList c ch = false → runs (.dmaBlockComplete c ch host ok none) s fun t => moved s t b.src b.dst b.len
         ∧ endedAs s t c ch 0 ∧ t.fget (Addr.dmaDone c ch) Fld.dmaDoneBytes = b.len ∧ t.cores = s.cores)
       ∧ (s.dmaList c ch = true → b.int = false → b.fin = false → runs (.dmaBlockComplete c ch host ok none) s fun t =>
         moved s t b.src b.dst b.len ∧ t.dmaState c ch = Dma.busy ∧ (t.dmaCh c ch).block = none
         ∧ (t.dmaCh c ch).entry = (s.dmaCh c ch).entry + 1 ∧ t.cores = s.cores))
     ∧ (∀ (addr : BitVec 48) (p : BitVec 24), s.dmaState c ch = Dma.busy → runs (.dmaBusError c ch addr p) s fun t =>
       t.dmaStopped c = true ∧ t.fget (Addr.dmaEngStat c) Fld.dmaEngStatFailCh = ch.val ∧ sameBytes s t
       ∧ (∃ cap, (t.dmaCh c ch).fail = some (addr.toNat, cap)) ∧ otherChannels s t c ch
       ∧ ∀ k, k < 16 → t.dmaState c k = if s.dmaState c k = Dma.busy then Dma.stopping else s.dmaState c k)
     ∧ ∀ (progress : List Nat) (host : List (List (Byte × Bool))), cellsGood s → s.dmaStopped c = true → s.dmaState c ch = Dma.stopping →
         (s.dmaCh c ch).held = none → runs (.dmaStopComplete c progress host) s fun t => t.dmaStopped c = false
           ∧ t.dmaState c ch = Dma.idle
           ∧ t.fget (Addr.dmaStat c ch) Fld.dmaStatOutcome = if (s.dmaCh c ch).fail.isSome then 5 else 6)
  ∧ ∀ (c : Fin 25) (ch : Fin 16) (s : State), s.settled →
      (s.dmaWantsEntry c ch = true → cellsGood s → (s.dmaCh c ch).entry < 65535 →
        let x := s.dmaCh c ch
        let a := s.fget (Addr.dmaList c ch) Fld.dmaListAddr * 16 + 16 * x.entry
        let e := s.memVal a 16
        let at' := recF e 0 47 0
        let n := recF e 8 23 0
        let side := recF e 0xB 2 2 == 1
        let src := if side then x.srcPtr else at'
        let dst := if side then at' else x.dstPtr
        let seen := s.fget (Addr.dmaDoorbell c ch) Fld.dmaDoorbellCount
        s.memReady (s.dmaIds c ch) a →
          (s.poisoned (a / 8) = false → s.poisoned (a / 8 + 1) = false → listReserved e = false →
            n = 0 ∨ s.dmaCheck (s.dmaIds c ch) src dst n = none → runs (.dmaListFetch c ch) s fun t =>
              t.dmaCh c ch = { x with
                seen := seen, metEnd := x.metEnd || recF e 0xB 0 0 == 1
                srcPtr := if side then x.srcPtr + n else x.srcPtr, dstPtr := if side then x.dstPtr else x.dstPtr + n
                block := some ⟨src, dst, n, recF e 0xB 2 2 == 1, recF e 0xB 1 1 == 1, recF e 0xB 0 0 == 1⟩ }
              ∧ oneReg { s with dma := t.dma } t (Addr.dmaDoorbell c ch)
                  (withField s (Addr.dmaDoorbell c ch) Fld.dmaDoorbellSeen seen)
              ∧ otherChannels s t c ch)
          ∧ (s.poisoned (a / 8) = true ∨ s.poisoned (a / 8 + 1) = true → runs (.dmaListFetch c ch) s fun t =>
              endedAs s t c ch 7 ∧ sameBytes s t ∧ otherChannels s t c ch)
          ∧ (s.poisoned (a / 8) = false → s.poisoned (a / 8 + 1) = false → listReserved e = true →
              runs (.dmaListFetch c ch) s fun t => endedAs s t c ch 3 ∧ sameBytes s t ∧ otherChannels s t c ch))
      ∧ ∀ (who : Requester) (v : Word), s.regFenced (Addr.dmaDoorbell c ch) = false →
        let count := s.fget (Addr.dmaDoorbell c ch) Fld.dmaDoorbellCount
        let rung := (Addr.dmaDoorbell c ch, withField s (Addr.dmaDoorbell c ch) Fld.dmaDoorbellCount (count + 1))
        (dmaWriter c who = false → runs (.dmaDoorbell c ch who v) s fun t =>
          oneReg s t (Addr.dmaWrDenyCnt c) (bump (s.reg (Addr.dmaWrDenyCnt c)) 1))
        ∧ (dmaWriter c who = true → v.getLsbD 0 = false → gives (.dmaDoorbell c ch who v) s s)
        ∧ (dmaWriter c who = true → v.getLsbD 0 = true → s.dmaState c ch ≠ Dma.idleAtEnd →
            runs (.dmaDoorbell c ch who v) s fun t => regsBecome s t [rung])
        ∧ (dmaWriter c who = true → v.getLsbD 0 = true → s.dmaState c ch = Dma.idleAtEnd → s.dmaStopped c = false →
            (count + 1) % 65536 ≠ (s.dmaCh c ch).seen → runs (.dmaDoorbell c ch who v) s fun t => t.dmaState c ch = Dma.busy
              ∧ t.reg rung.1 = rung.2 ∧ t.reg (Addr.dmaRestartCnt c) = bump (s.reg (Addr.dmaRestartCnt c)) 1
              ∧ onlyRegs s t [rung.1, Addr.dmaRestartCnt c, Addr.dmaStat c ch, Addr.dmaEngStat c])

/-! ### Fronthaul ports -/

/-- A frame on port p holds one good U-plane message m of uplink stream i, of one section y; n is the stream's symbol and num
the section's PRBs. -/
def Sys2Proof.Machine.rxOf (s : State) (p : Nat) (x : RxFrame) (m : RxMessage) (y : RxSection) (i n num : Nat) : Prop :=
  s.locked = true ∧ (s.portT p).isSome = true ∧ s.portUp p = true ∧ s.mode ≠ Mode.safe ∧ s.isCpri p = false
    ∧ x.fcsOk = true ∧ x.len.toNat ≤ 9600 ∧ x.messages = [m] ∧ m.type = 0 ∧ m.sections = [y] ∧ y.other = none
    ∧ s.streamIdx (fun x => x.port == p && !x.dl && x.eaxc == m.id.toNat) = some i
    ∧ n = ulSymbol (s.streamCtx (s.stream i)) s.now m
    ∧ num = (if y.num.toNat = 0 then (s.stream i).nprb - y.start.toNat else y.num.toNat)

/-- Only a receive counter of port p rises by one, and the vote's note of the port's last frame may be renewed. -/
def Sys2Proof.Machine.rxCounted (s t : State) (a : Nat) : Prop :=
  oneReg { s with fh := t.fh } t a (bump (s.reg a) 1) ∧ t.fh = { s.fh with lastRx := t.fh.lastRx }

/-- The wire of port p is free for a message of n bytes before the next armed frame's start (R287). -/
def Sys2Proof.Machine.gapIs (s : State) (p n : Nat) (pt : PortT) : Prop :=
  s.portT p = some pt ∧ s.wireFree p ≤ s.now ∧ ∀ e, s.nextFrame p = some e → s.now + pt.wireNs n < s.frameStart p e

/-- A message of n bytes has gone out in the gap: port p's wire is taken while it lasts. -/
def Sys2Proof.Machine.sentInGap (s t : State) (p n : Nat) (pt : PortT) (o : Output) : Prop :=
  t = { s with fh := { s.fh with free := t.fh.free }, out := o :: s.out } ∧ t.wireFree p = s.now + pt.wireNs n
    ∧ ∀ q, q ≠ p → t.wireFree q = s.wireFree q

/-- R276, R278, R280 to R282, R304: a U-plane section in its window is written at its symbol's area by the framer group's
identity and counted; Table 12-3 drops the others line by line; up to eight concatenated messages of type 2 go to the Zelfa
cores, as the words of a CPRI link's control channels do; a CPRI hyperframe is stamped; a down port receives nothing, nor one
without the root PLL; a type 5 request is answered with its receive stamp in a gap of the wire; a completed symbol is marked,
and with the whole bank complete the bank is handed to the instance that the binding names. -/
def Obligations.FronthaulReceives : Prop :=
  ∀ (p : Fin 64) (s : State), s.settled →
    (∀ (f : RxFrame) (m : RxMessage) (y : RxSection) (i n num : Nat), rxOf s p f m y i n num →
      let x := s.stream i
      let c := s.streamCtx x
      let r := s.rxSym i n
      let t : Int := s.now
      let a := x.areaOf c n + y.start.toNat * x.prbBytes
      let late := ulStart c n + x.rxEnd < t ∨ r.complete = true ∨ r.full x.nprb = true
      let range := x.nprb < y.start.toNat + num ∨ num = 0
      f.hyper = none →
      (t < ulStart c n + x.rxStart → runs (.fhRxMessage p f) s fun t => rxCounted s t (Addr.fhRxEarlyCnt p))
      ∧ (ulStart c n + x.rxStart ≤ t → late → runs (.fhRxMessage p f) s fun t => rxCounted s t (Addr.fhRxLateCnt p))
      ∧ (ulStart c n + x.rxStart ≤ t → ¬ late → range →
          runs (.fhRxMessage p f) s fun t => rxCounted s t (Addr.fhRxRangeCnt p))
      ∧ (ulStart c n + x.rxStart ≤ t → ¬ late → ¬ range → cellsGood s →
          rangeReady s [Ident.framer (p / 8)] a (num * x.prbBytes) →
          (∀ k, k < x.nprb → y.start.toNat ≤ k → k < y.start.toNat + num → r.prbs.testBit k = false) →
          runs (.fhRxMessage p f) s fun t =>
            (∀ z, t.byte z = if a ≤ z ∧ z < a + num * x.prbBytes then y.data.getD (z - a) 0 else s.byte z)
            ∧ t.rxSym i n = { r with prbs := r.prbs ||| (2 ^ num - 1) * 2 ^ y.start.toNat }
            ∧ oneReg { s with fh := t.fh, banks := t.banks } t (Addr.fhRxFrameCnt p)
                (bump (s.reg (Addr.fhRxFrameCnt p)) 1)))
    ∧ (∀ f : RxFrame, s.locked = true → (s.portT p).isSome = true → s.portUp p = true → f.hyper = none →
        let sound := f.fcsOk = true ∧ f.len.toNat ≤ 9600
        let one := fun (P : RxMessage → Prop) => ∃ m, f.messages = [m] ∧ P m
        let run := fun (P : State → Prop) => runs (.fhRxMessage p f) s P
        (sound → s.isCpri p = false → (∀ m ∈ f.messages, m.type = 2 ∧ m.more = true) → run fun t =>
          t.fh.rtc = s.fh.rtc ++ (f.messages.take 8).map (fun m => (p.val, m.data)) ∧ sameBytes s t ∧ t.fh.rx = s.fh.rx)
        ∧ (∀ m, sound → s.isCpri p = true → f.messages = [m] → m.type ≠ 0 → run fun t =>
          t = { s with fh := { s.fh with cm := s.fh.cm ++ [(p.val, m.type.toNat, m.data)] } })
        ∧ (s.mode = Mode.safe → ¬ sound ∨ one (fun m => (m.type = 0 ∨ s.isCpri p = false) ∧ m.type ≠ 2) →
          run fun t => rxCounted s t (Addr.fhRxSafeDropCnt p))
        ∧ (s.mode ≠ Mode.safe → ¬ sound → run fun t => rxCounted s t (Addr.fhRxFcsCnt p))
        ∧ (s.mode ≠ Mode.safe → sound → s.isCpri p = false → one (fun m => m.type ≠ 0 ∧ m.type ≠ 2 ∧ m.type ≠ 5) →
          run fun t => rxCounted s t (Addr.fhRxTypeCnt p))
        ∧ (s.mode ≠ Mode.safe → sound → s.isCpri p = false → one (fun m => m.type = 5) → gives (.fhRxMessage p f) s s))
    ∧ (∀ (f : RxFrame) (phase : BitVec 8), s.locked = true → s.isCpri p = true → s.portUp p = true → f.fcsOk = true →
        f.len.toNat ≤ 9600 → f.messages = [] → f.hyper = some phase → runs (.fhRxMessage p f) s fun t =>
          t = { s with fh := { s.fh with hyperRx := t.fh.hyperRx } }
          ∧ SMap.get (fun _ => none) t.fh.hyperRx p = some ((s.time.fine : Int) - phase.toNat * 2048
            - s.fget (Addr.ptpRxdlyEff p) Fld.ptpRxdlyEffValue * 256))
    ∧ (∀ f : RxFrame, s.portUp p = false ∨ s.locked = false → gives (.fhRxMessage p f) s s)
    ∧ (∀ (id phase : BitVec 8) (pt : PortT), s.portTalks p = true → s.portT p = some pt →
        (gapIs s p 42 pt →
          runs (.ecpriDelayRequest p id phase) s (fun t => sentInGap s t p 42 pt (.delayMsg p true id.toNat
            ((s.time.fine : Int) - phase.toNat * 2048 - s.fget (Addr.ptpRxdlyEff p) Fld.ptpRxdlyEffValue * 256) 0))
          ∧ runs (.ecpriDelaySend p id phase) s fun t => sentInGap s t p 42 pt (.delayMsg p false id.toNat
            ((s.time.fine : Int) + phase.toNat * 2048 + s.fget (Addr.ptpTxdlyEff p) Fld.ptpTxdlyEffValue * 256) 0))
        ∧ (¬ gapIs s p 42 pt → gives (.ecpriDelayRequest p id phase) s s ∧ gives (.ecpriDelaySend p id phase) s s))
    ∧ ∀ (i : Fin 4096) (sym : BitVec 56), i.val < s.img.streams.length →
        let x := s.stream i
        let c := s.streamCtx x
        let n := sym.toNat
        let u := s.setRxSym i n { s.rxSym i n with complete := true }
        let syms := x.bankSyms c n
        let whole := (u.ringStreams x).all fun k => syms.all fun m => (u.rxSym k m).complete
        s.locked = true → x.dl = false → (s.rxSym i n).full x.nprb = true → (s.rxSym i n).complete = false →
          (whole = false → runs (.fhSymbolComplete i sym) s fun t => t = u)
          ∧ ∀ (b : Nat × Nat × Nat × Nat × Nat) (j : Job), whole = true →
              ((u.fhBindings (x.carrier / 8) (syms.getLastD n)).find? fun b =>
                (bindStreams b).any (u.ringStreams x).contains) = some b →
              s.job b.1 = some j →
              let new := instIdent (j.stage b.2.1).cls (j.stage b.2.1).inst
              let key := globalBank (x.bankOf c n)
              s.ownerWriteOk key (.owner (Ident.framer (x.port / 8))) new = true →
                runs (.fhSymbolComplete i sym) s fun t => t.owner key = new ∧ t.pendingHandover key = false
                  ∧ ∀ k ∈ u.ringStreams x, ∀ m ∈ syms, (t.rxSym k m).handed = true

/-- The payload of an entry as it goes out: poisoned words as zero bytes (R289). -/
def Sys2Proof.Machine.sentBytes (s : State) (e : LqEntry) : List Byte :=
  (List.range e.len).map fun i => if s.poisoned ((e.payload + i) / 8) then 0 else s.byte (e.payload + i)

/-- Port p's queue loses the entry, and safe content takes its place (R288). -/
def Sys2Proof.Machine.dropped (s t : State) (p : Nat) (e : LqEntry) (cnt : Nat) : Prop :=
  t.lq p = (s.lq p).filter (fun x => x.order != e.order) ∧ t.reg cnt = bump (s.reg cnt) 1 ∧ sameBytes s t ∧
    t.out = if s.isCpri p then .cpriZero p e.stream e.launch :: s.out else s.out

/-- R283 to R289: an accepted push joins the queue, a refused one is counted and leaves the queue as it was, and one that comes
after its job's closing is discarded and counted; the armed entry first in order goes out at its time with its payload, in
which poisoned words are zero, and leaves the queue; on a down port, or too late, it gets safe content and is counted. -/
def Obligations.LaunchQueues : Prop :=
  ∀ (p : Fin 64) (s : State), s.settled →
    (∀ (who : Requester) (r : BitVec 256),
      (∀ h k j, s.dspStage who = some (h, k) → s.pushReason p r.toNat true = none → s.job h = some j → j.fhTxOver p = false →
        runs (.fhLqPush p who r false) s fun t => t = { s with regs := t.regs, fh := t.fh }
          ∧ t.lq p = s.lq p ++ [{ order := s.fh.order, job := h, kind := Lq.kind r.toNat, stream := Lq.stream r.toNat
                                  len := Lq.len r.toNat, launch := Lq.launch r.toNat, payload := Lq.payload r.toNat
                                  eligible := false, armed := false }]
          ∧ ∀ q, q ≠ p.val → t.lq q = s.lq q)
      ∧ (∀ h k j, s.dspStage who = some (h, k) → s.pushReason p r.toNat true = none → s.job h = some j → j.fhTxOver p = true →
        runs (.fhLqPush p who r false) s fun t => t.fh = s.fh ∧ sameBytes s t
          ∧ t.reg (Addr.fhWithdrawnCnt p) = bump (s.reg (Addr.fhWithdrawnCnt p)) 1)
      ∧ (∀ reason, s.pushReason p r.toNat (s.dspStage who).isSome = some reason →
          let refused := fun (t : State) => t.reg (Addr.fhLqRefuseCnt p) = bump (s.reg (Addr.fhLqRefuseCnt p)) 1
            ∧ (s.flag Addr.fhLqErrLog Fld.fhLqErrLogValid = false → (∀ h k, s.dspStage who = some (h, k) → h < 2048) →
              t.fget Addr.fhLqErrLog Fld.fhLqErrLogReason = reason ∧ t.fget Addr.fhLqErrLog Fld.fhLqErrLogPort = p.val)
          ((∀ k : Fin 192, who = .tile k → (s.core k).state ≠ 1) → runs (.fhLqPush p who r false) s fun t =>
            onlyRegs s t [Addr.fhLqRefuseCnt p, Addr.fhLqErrLog] ∧ refused t)
          ∧ ∀ k : Fin 192, who = .tile k → s.plain k → s.handles k → runs (.fhLqPush p who r false) s fun t =>
            refused t ∧ t.fh = s.fh ∧ sameBytes s t ∧ takesExc s t k Exc.access (some (BitVec.ofNat 32 (Addr.fhLqPush p))))
      ∧ runs (.fhLqPush p who r true) s fun t =>
          oneReg s t (Addr.fhWithdrawnCnt p) (bump (s.reg (Addr.fhWithdrawnCnt p)) 1))
    ∧ (s.locked = false → gives (.fhFrameLaunch p none) s s ∧ gives (.fhTxLate p) s s)
    ∧ ∀ (e : LqEntry) (pt : PortT), s.locked = true → s.nextFrame p = some e → s.portT p = some pt →
      let x := s.streamOn p e.stream
      (s.frameStart p e ≤ s.lateAfter p e →
        (s.portUp p = true → cellsGood s → rangeReady s [Ident.framer (p / 8)] e.payload e.len →
          runs (.fhFrameLaunch p none) s fun t =>
            t.lq p = (s.lq p).filter (fun x => x.order != e.order) ∧ sameBytes s t
            ∧ t.time = (s.advanceTo (s.frameStart p e)).time
            ∧ t.reg (Addr.fhTxFrameCnt p) = bump (s.reg (Addr.fhTxFrameCnt p)) 1 ∧
            if pt.isCpri then t.out = .cpriSend p e.stream e.launch (ceilDiv (e.launch * 384) 100000) x.eaxc x.contBits
              (sentBytes s e) :: s.out
            else ∃ seq, t.out = .frame p (if e.kind = 2 then 2 else 0) x.dstMac pt.srcMac
              (if pt.vlanEn then some pt.vlanTci else none) x.eaxc (seq * 256 + 0x80)
              (sentBytes s e) :: s.out)
        ∧ (s.portUp p = false → runs (.fhFrameLaunch p none) s fun t => dropped s t p e (Addr.fhTxDownDropCnt p)))
      ∧ (s.lateAfter p e < s.frameStart p e → runs (.fhTxLate p) s fun t => dropped s t p e (Addr.fhTxLateCnt p))

/-! ### Lanes -/

/-- UP of port p is 0, and a fall is counted (R290). -/
def Sys2Proof.Machine.wentDown (s t : State) (p : Nat) : Prop :=
  t.portUp p = false ∧ (s.portUp p = true → t.reg (Addr.fhPortDownCnt p) = bump (s.reg (Addr.fhPortDownCnt p)) 1)

/-- An activity runs on a target (R415). -/
def Sys2Proof.Machine.maintRuns (t : State) (id target : Nat) : Prop :=
  (id, target) ∈ t.plb.running ∧ t.flag (Addr.plbMaintStat id) Fld.plbMaintStatRunning = true

/-- R276, R290 to R292, R298: a hunting lane gains its stages in order and its port comes up with the last; a lost stage,
a loss of signal and a restored signal restart the hunt, are counted and take the port down; 2 ms without lock invert
the polarity; a CPRI link takes its start-up state at a hyperframe start, which is stamped (R304); lanes leaving the deep
state hunt. R294 to R297: characterisation and the test patterns start only in LOAD or SERVICE on a used lane that nothing
conflicts with; the lane's port goes down; the result of a characterisation is shown and never applied; an injection replaces
one not yet sent; a pattern's bits follow its polynomial; the checker locks on bits that do, counts errors while locked, up to
2^48 − 1, and loses lock with 32 of 64 bits in error. -/
def Obligations.Lanes : Prop :=
  (∀ (l : Fin 64) (s : State), s.settled →
     let n := s.locksOf l
     let all := (s.laneStages l).length
     (∀ (align : BitVec 16) (ord : Bool), s.laneState l = Lane.hunt → s.los l = false → s.charRuns l = false → n < all →
       runs (.laneLockGained l align ord) s fun t => t.locksOf l = n + 1 ∧ sameBytes s t
         ∧ (n = 0 → t.fget (Addr.laneStat l) Fld.laneStatAlign = align.toNat)
         ∧ t.laneState l = (if n + 1 = all then Lane.locked else Lane.hunt)
         ∧ ∀ pt, s.portOf l = l.val → s.portT l = some pt → pt.lanes = 1 → n + 1 = all → t.portUp l = true)
     ∧ (∀ (stage : Fin 3) (k : Nat) (cv ce ue : BitVec 32), lostFrom (s.laneStages l) stage = some k → k < n → stage.val < n →
       runs (.laneLockLost l stage cv ce ue) s fun t => t.locksOf l = k ∧ wentDown s t (s.portOf l)
         ∧ t.laneState l = (if s.laneState l = Lane.locked then Lane.hunt else s.laneState l)
         ∧ t.reg (Addr.laneLockLossCnt l) = bump (s.reg (Addr.laneLockLossCnt l)) (n - k)
         ∧ t.reg (Addr.laneCvCnt l) = bump (s.reg (Addr.laneCvCnt l)) cv.toNat
         ∧ t.reg (Addr.laneFecCeCnt l) = bump (s.reg (Addr.laneFecCeCnt l)) ce.toNat
         ∧ t.reg (Addr.laneFecUeCnt l) = bump (s.reg (Addr.laneFecUeCnt l)) ue.toNat)
     ∧ (s.laneState l = Lane.hunt → s.los l = false → s.charRuns l = false → runs (.lanePolarityFlip l) s fun t =>
       onlyRegs { s with fh := t.fh } t [Addr.laneStat l, Addr.lanePolFlipCnt l] ∧ t.locksOf l = 0
       ∧ t.laneState l = Lane.hunt ∧ t.reg (Addr.lanePolFlipCnt l) = bump (s.reg (Addr.lanePolFlipCnt l)) 1
       ∧ t.flag (Addr.laneStat l) Fld.laneStatRxInv = !s.flag (Addr.laneStat l) Fld.laneStatRxInv)
     ∧ (Lane.waking < s.laneState l → s.los l = false → runs (.laneLosDetect l) s fun t => t.los l = true
       ∧ wentDown s t (s.portOf l) ∧ t.reg (Addr.laneLosCnt l) = bump (s.reg (Addr.laneLosCnt l)) 1
       ∧ if s.laneState l = Lane.test then t.laneState l = Lane.test else t.laneState l = Lane.hunt ∧ t.locksOf l = 0)
     ∧ (s.los l = true → runs (.laneSignalRestored l) s fun t => t.los l = false
       ∧ onlyRegs { s with fh := t.fh } t [Addr.laneStat l]
       ∧ if s.laneState l = Lane.test then t.laneState l = Lane.test else t.laneState l = Lane.hunt ∧ t.locksOf l = 0)
     ∧ (∀ (st : Fin 6) (agreed : Bool) (phase : BitVec 8), s.isCpri l = true →
       (st.val ≤ 1 ∨ s.portUp l = true → st.val ≤ 2 ∨ agreed = true → runs (.cpriStartup l st agreed phase) s fun t =>
         regsBecome { s with fh := t.fh } t [(Addr.fhPortStat l, withField s (Addr.fhPortStat l) Fld.fhPortStatCpriState st)]
         ∧ t.fh = { s.fh with hyperTx := t.fh.hyperTx }
         ∧ SMap.get (fun _ => none) t.fh.hyperTx l = some ((s.time.fine : Int) + phase.toNat * 2048
           + s.fget (Addr.ptpTxdlyEff l) Fld.ptpTxdlyEffValue * 256))
       ∧ (3 ≤ st.val → agreed = false → gives (.cpriStartup l st agreed phase) s s))
     ∧ ∀ g : Fin 8, runs (.deepLaneExit g) s fun t => sameBytes s t ∧ ∀ k : Nat, k < 64 → t.laneState k =
         if k / 8 = g.val ∧ s.laneUsed k = true ∧ s.laneState k = Lane.waking then Lane.hunt else s.laneState k)
  ∧ ∀ (l : Fin 64) (s : State), s.settled →
      (∀ (who : Requester) (v : Word), s.rwlOpen = true → s.laneUsed l = true →
        (v.getLsbD 31 = true → s.charRuns l = false → s.maintConflict 6 l = none → runs (.laneCharStart l who v) s fun t =>
          t.charRuns l = true ∧ maintRuns t 6 l ∧ t.laneState l = Lane.hunt ∧ t.locksOf l = 0 ∧ wentDown s t (s.portOf l))
        ∧ (s.prbsOn l = false → v.toNat / 2 ^ 30 ≠ 0 → s.maintConflict 2 l = none → runs (.lanePrbsEnable l who v) s fun t =>
          t.reg (Addr.lanePrbsCtrl l) = prbsNew (s.reg (Addr.lanePrbsCtrl l)) v.toNat ∧ t.prbsOn l = true
          ∧ maintRuns t 2 l ∧ t.laneState l = Lane.test ∧ wentDown s t (s.portOf l)
          ∧ t.prbsLock l = false ∧ t.fget (Addr.lanePrbsErr l) Fld.lanePrbsErrErr = s.fget (Addr.lanePrbsErr l) Fld.lanePrbsErrErr
          ∧ (v.getLsbD 31 = true → SMap.get (fun _ => 0) t.fh.gen l = s.time.ticks))
        ∧ (s.prbsOn l = true → v.toNat / 2 ^ 30 ≠ 0 →
          (v.getLsbD 25 = false → runs (.injOne l who v) s fun t => SMap.get (fun _ => none) t.fh.inj l = some (0, s.time.ticks)
            ∧ onlyRegs { s with fh := t.fh } t [Addr.lanePrbsCtrl l, Addr.lanePrbsErr l])
          ∧ runs (.injBurst l who v) s fun t => SMap.get (fun _ => none) t.fh.inj l
              = some (burstLen (v.toNat % 128), s.time.ticks)
            ∧ onlyRegs { s with fh := t.fh } t [Addr.lanePrbsCtrl l, Addr.lanePrbsErr l]))
      ∧ (∀ (h w : BitVec 8) (sug : DWord), s.charRuns l = true →
        s.plb.running.count (6, l.val) = 1 → runs (.laneCharDone l h w sug) s fun t =>
          t.charRuns l = false ∧ t.flag (Addr.laneCharCtrl l) Fld.laneCharCtrlValid = true
          ∧ t.fget (Addr.laneCharCtrl l) Fld.laneCharCtrlEyeH = h.toNat
          ∧ t.fget (Addr.laneCharCtrl l) Fld.laneCharCtrlEyeW = w.toNat ∧ t.reg (Addr.laneEqSug l) = sug
          ∧ (6, l.val) ∉ t.plb.running ∧ t.reg (Addr.laneEqAct l) = s.reg (Addr.laneEqAct l)
          ∧ t.fget (Addr.plbMaintStat 6) Fld.plbMaintStatResult = Maint.done)
      ∧ (∀ (pat start n : Nat), pat < 5 → let d := (prbsPowers pat).1
          prbsBit pat l start (n + d) = (prbsBit pat l start n != prbsBit pat l start (n + d - (prbsPowers pat).2)))
      ∧ ∀ (rx : BitVec 128) (errs : BitVec 48) (last : BitVec 64), s.checks l = true →
          let e := fun (n : Nat) => min (s.fget (Addr.lanePrbsErr l) Fld.lanePrbsErrErr + errs.toNat + n) (2 ^ 48 - 1)
          let bad := popcountN last.toNat 64
          let seeds := checkerSeeds (s.pattern l) (s.userPattern l) rx.toNat
          (s.prbsLock l = true ∨ seeds = true → runs (.prbsCheckerLock l rx errs) s fun t =>
            onlyRegs s t [Addr.lanePrbsErr l] ∧ t.prbsLock l = true ∧ t.fget (Addr.lanePrbsErr l) Fld.lanePrbsErrErr = e 0)
          ∧ (s.prbsLock l = false → seeds = false → gives (.prbsCheckerLock l rx errs) s s)
          ∧ (s.prbsLock l = true → 32 ≤ bad → runs (.prbsCheckerResync l errs last) s fun t =>
            onlyRegs s t [Addr.lanePrbsErr l, Addr.lanePrbsResyncCnt l] ∧ t.prbsLock l = false
            ∧ t.fget (Addr.lanePrbsErr l) Fld.lanePrbsErrErr = e bad
            ∧ t.reg (Addr.lanePrbsResyncCnt l) = bump (s.reg (Addr.lanePrbsResyncCnt l)) 1)
          ∧ (bad < 32 → gives (.prbsCheckerResync l errs last) s s)

/-! ### Meridian, PTP and calibration -/

/-- The registers' value of calibration item x for an effective value and a user value, each within its limits (R305). -/
def Sys2Proof.Machine.calWord (lo x hi : Int) : DWord := BitVec.ofNat 64 (unsigned 16 (clampInt lo x hi))

/-- R287, R302 to R305, R307 to R309: a transparent clock adds the residence time to an event message's correction and forwards
it in a gap of the egress wire, and passes a general message unchanged; the device's own event message carries its stamp; a
received event message waits with its stamp; a read of TB_NS latches FRAC and SEC for its kind of reader; a set is taken at the next second with no job in
flight, and refused with one; USER and EFF follow their limits. -/
def Obligations.TimeStampsAndSets : Prop :=
  ∀ s : State, s.settled →
    (∀ (p : Fin 64) (q : Nat) (m : PtpMsg) (ago : BitVec 24) (rp tp : BitVec 8) (pt : PortT), s.tcPort p = some q →
      s.ethUp p = true → s.ethUp q = true → m.udp = false → ago.toNat ≤ 491520 → gapIs s q (27 + m.body.length) pt →
        (4 ≤ m.type.val → runs (.ptpTcForward p m ago rp tp) s fun t =>
          sentInGap s t q (27 + m.body.length) pt (.ptp q m.type none m.correction.toNat m.body))
        ∧ (m.type.val < 4 →
          let tx : Int := (s.time.fine : Int) + tp.toNat * 2048 + s.fget (Addr.ptpTxdlyEff q) Fld.ptpTxdlyEffValue * 256
          let rx : Int := s.time.fineAgo ago.toNat - rp.toNat * 2048 - s.fget (Addr.ptpRxdlyEff p) Fld.ptpRxdlyEffValue * 256
          runs (.ptpTcForward p m ago rp tp) s fun t =>
            oneReg { s with out := t.out, fh := t.fh } t Addr.ptpTcFwdCnt (bump (s.reg Addr.ptpTcFwdCnt) 1)
            ∧ sentInGap { s with regs := t.regs } t q (27 + m.body.length) pt
                (.ptp q m.type none (unsigned 64 (m.correction.toNat + (tx - rx))) m.body)))
    ∧ (∀ (p : Fin 64) (q : Nat), s.tcPort p = some q → s.ethUp p = true → runs (.ptpTcDrop p) s fun t =>
        oneReg s t Addr.ptpTcDropCnt (bump (s.reg Addr.ptpTcDropCnt) 1))
    ∧ (∀ (p : Fin 64) (m : PtpMsg) (ph : BitVec 8), m.udp = false →
        (s.ethUp p = true → s.ptpOn p = true → runs (.ptpEventReceive p m ph) s fun t => t.fh = { s.fh with
            ptp := s.fh.ptp ++ [⟨p, m.type, s.rxStamp p ph.toNat, s.timeValid, m.body⟩] }
          ∧ t = { s with fh := t.fh, plb := t.plb })
        ∧ ∀ pt : PortT, s.portTalks p = true → s.ptpOn p = true → gapIs s p (27 + m.body.length) pt →
          let tx : Int := s.txStamp p ph.toNat
          runs (.ptpMessageSend p m ph) s fun t => sentInGap s t p (27 + m.body.length) pt
            (if m.type.val < 4 then .ptp p m.type (some (tx / 65536)) (unsigned 64 (m.correction.toNat + tx % 65536)) m.body
            else .ptp p m.type none m.correction.toNat m.body))
    ∧ (∀ who : Requester, runs (.tbNsRead who) s fun t =>
        if who = .dap then t = { s with time := { s.time with dapSec := s.time.sec, dapFrac := s.time.frac } }
        else regsBecome s t [(Addr.tbFracL, BitVec.ofNat 64 s.time.frac),
          (Addr.tbSecL, BitVec.ofNat 64 (s.time.sec % 2 ^ 48))])
    ∧ (∀ v : DWord, v.getLsbD 63 = true → runs (.tbSet v) s fun t =>
        if s.noJobs = true then t.time = { s.time with setSec := some (v.toNat % 2 ^ 48) }
          ∧ regsBecome { s with time := t.time } t [(Addr.tbSet, withField s Addr.tbSet Fld.tbSetSec (v.toNat % 2 ^ 48))]
        else t.time = s.time ∧ t.reg Addr.tbStepDenyCnt = bump (s.reg Addr.tbStepDenyCnt) 1)
    ∧ (∀ sec : Nat, s.time.setSec = some sec → s.time.counting = true → s.time.edge < 491520000 →
        runs .tbSetApply s fun t => t.time.setSec = none ∧ t.time.edge = 0
          ∧ t.time.ticks = s.time.ticks + (491520000 - s.time.edge) ∧
          if s.noJobs = true then t.time.sec = sec % 2 ^ 48 ∧ t.timeValid = false
          else t.time.sec = (s.time.sec + 1) % 2 ^ 48 ∧ t.reg Addr.tbStepDenyCnt = bump (s.reg Addr.tbStepDenyCnt) 1)
    ∧ (∀ (who : Requester) (v : DWord), runs (.tbPtpOffs who v) s fun t =>
        if isZelfa who then t = { s with servo := { s.servo with ptp := some v.toInt } }
        else oneReg s t Addr.tbWrDenyCnt (bump (s.reg Addr.tbWrDenyCnt) 1))
    ∧ ∀ (item : Fin 8) (idx : BitVec 8) (v : Word) (x : CalItem), s.calItem item idx.toNat = some x →
        (s.rwlOpen = true →
          let u := signed 16 v.toNat
          runs (.calUserWrite item idx v) s fun t => onlyRegs s t [x.user, x.eff, Addr.devCalSatCnt]
            ∧ t.reg x.user = calWord x.uMin u x.uMax
            ∧ t.reg x.eff = calWord x.eMin (s.reg16 x.fact x.signed' + clampInt x.uMin u x.uMax) x.eMax)
        ∧ (s.rwlOpen = false → runs (.calUserWrite item idx v) s fun t => onlyRegs s t [Addr.devRwlDenyCnt])

/-- The servo's source at a tick of state u: its number and its phase error. -/
def Sys2Proof.Machine.sourceIs (u : State) (src : Nat) (e : Int) : Prop :=
  (u.modServo Servo.aged).pickSource = src ∧ u.svSrc = src ∧ u.servo.meas src = some e

/-- A capture of channel k holds a time of n units of 2^-16 ns; an earlier one is overwritten, with OVF and a count (R319). -/
def Sys2Proof.Machine.captured (s t : State) (k n : Nat) : Prop :=
  t.fget (Addr.tbCapSec k) Fld.tbCapSecSec = n / 65536000000000 % 2 ^ 48 ∧ t.flag (Addr.tbCapSec k) Fld.tbCapSecValid = true
    ∧ t.reg (Addr.tbCapNs k) = BitVec.ofNat 64 (n % 65536000000000)
    ∧ (s.flag (Addr.tbCapSec k) Fld.tbCapSecValid = true → t.flag (Addr.tbCapSec k) Fld.tbCapSecOvf = true)

/-- R311 to R315, Table 13-5: a tick takes the ranked source's error through the loop filter; LOCKED stays with an error
within UNLOCK_THR, and the sixteenth error within LOCK_THR enters it with TIME_VALID; the frequency goes to the 17 PLLs; without
a measurement it is kept, and without a source it is the held one; expiry of the holdover timer is a doubt that takes the
device to SAFE. R316, R318, R319, R321: a PPS_IN edge and a selected GPIO edge are captured; a missed pulse is counted and
gives no measurement; PPS_OUT rises at the next second plus PPS_OFF while time is valid; the time-of-day message goes out once
a second, and a received one with a correct CRC in its window names the second of the last PPS_IN edge; CODE is a Zelfa core's
with TARGET = PLL. -/
def Obligations.ServoAndTimeOutputs : Prop :=
  (∀ s : State, s.settled → s.time.counting = true →
     (∀ (se : List SyncMeas) (src : Nat) (e : Int), s.servoP 0 ≠ 0 → bitOf (s.servoP 9) 1 = false →
       let u := s.toTick
       sourceIs u src e →
         let loop := fun (t : State) => t.time = u.time ∧ t.servo.ptp = none ∧ t.servo.pps = none ∧ t.servo.tod = none
           ∧ t.servo.i = u.nextI e ∧ t.servo.y = u.nextY e (u.nextI e) 0 ∧ t.servo.lastTick = some u.time.ticks
           ∧ t.reg Addr.tbServoErr = BitVec.ofNat 64 (unsigned 64 e)
           ∧ t.reg Addr.tbServoFreq = BitVec.ofNat 64 (unsigned 64 (roundDiv t.servo.y (2 ^ 47)))
           ∧ t.servo.pll = List.replicate 17 (if bitOf (s.servoP 9) 0 then 0 else roundDiv t.servo.y (2 ^ 47))
         (u.svState = Sv.locked → withinPs e (s.servoP 4 / 65536) = true → s.servoP 4 < 2 ^ 32 →
           runs (.servoTick se) s fun t => loop t ∧ t.svState = Sv.locked ∧ t.servo.bad = 0)
         ∧ (u.svState = Sv.acquiring → withinPs e (s.servoP 4 % 65536) = true → withinNs e (s.servoP 5) = true →
           u.servo.good = 15 → runs (.servoTick se) s fun t => loop t ∧ t.svState = Sv.locked ∧ t.timeValid = true
             ∧ t.servo.timerRun = false ∧ (u.timeValid = false → t.servo.ppsFrom = u.time.sec + 1)))
     ∧ (∀ se : List SyncMeas, s.servoP 0 ≠ 0 → bitOf (s.servoP 9) 1 = false →
       let u := s.toTick
       let src := (u.modServo Servo.aged).pickSource
       u.servo.meas src = none → runs (.servoTick se) s fun t =>
         t.servo.y = (if src = 0 then u.servo.yHold else u.servo.y) ∧ t.servo.i = u.servo.i)
     ∧ (s.servo.timerRun = true → (s.svState = Sv.acquiring ∨ s.svState = Sv.holdover) → s.plumbPowered = true →
       s.mode ≠ Mode.safe → runs .holdoverExpired s fun t => t.mode = Mode.safe ∧ t.svState = Sv.expired
         ∧ t.timeValid = false ∧ t.reg Addr.tbExpiredCnt = bump (s.reg Addr.tbExpiredCnt) 1
         ∧ t.flag Addr.plbCause ⟨5, 5⟩ = true
         ∧ t.reg (Addr.plbSafeCnt 5) = bump (s.reg (Addr.plbSafeCnt 5)) 1))
  ∧ ∀ s : State, s.settled →
      (∀ ph : BitVec 8,
        let x : Int := (s.time.fine : Int) - ph.toNat * 2048
        runs (.ppsInCapture ph) s fun t => captured s t 0 x.toNat
          ∧ onlyRegs { s with servo := t.servo } t [Addr.tbCapSec 0, Addr.tbCapNs 0, Addr.tbCapOvfCnt]
          ∧ t.servo = { s.servo with pps := some (ppsError (s.ppsTime x)), lastPps := some (s.time.ticks, x.toNat) })
      ∧ (∀ (g : Fin 32) (falling : Bool), runs (.gpioCapture g falling) s fun t =>
          t = { s with regs := t.regs } ∧ ∀ k, k < 4 →
            let sel := (s.reg Addr.tbCapSel).toNat / 256 ^ k % 256
            if bitOf sel 7 = true ∧ bitOf sel 6 = falling ∧ sel % 32 = g.val then captured s t (k + 1) s.time.fine
            else t.reg (Addr.tbCapSec (k + 1)) = s.reg (Addr.tbCapSec (k + 1))
              ∧ t.reg (Addr.tbCapNs (k + 1)) = s.reg (Addr.tbCapNs (k + 1)))
      ∧ (runs .ppsInMiss s fun t => oneReg { s with servo := t.servo } t Addr.tbPpsMissCnt (bump (s.reg Addr.tbPpsMissCnt) 1)
          ∧ t.servo = { s.servo with pps := none, tod := none })
      ∧ (s.time.counting = true → s.timeValid = true →
          let at' := s.nextPps * 1000000000 + s.ppsOff
          runs .ppsOutPulse s fun t =>
            t.out = (if s.padsHeld then s.out else .ppsPulse (at' * 65536) (s.servoP 13) :: s.out)
            ∧ t.time = (s.advanceTo at'.toNat).time ∧ t.servo = { s.servo with ppsRise := some t.time.ticks } ∧ t.regs = s.regs)
      ∧ (∀ (leap : BitVec 2) (utc : BitVec 16) (cls : Byte), s.time.counting = true →
          let off : Int := (if s.timeValid then s.ppsOff else 0) + 10000000
          let k := s.nextTod off
          let flags := leap.toNat * 4 + (if s.svState = Sv.holdover then 2 else 0) + (if s.timeValid then 1 else 0)
          let b := todBody flags k utc.toNat cls.toNat
          runs (.todTxMessage leap utc cls) s fun t => b.length = 14
            ∧ t.out = (if s.padsHeld then s.out else .tod (b ++ leBytes 2 (crc16 b)) :: s.out)
            ∧ t.time = (s.advanceTo ((k : Int) * 1000000000 + off).toNat).time
            ∧ t.servo = { s.servo with todSent := some k } ∧ t.regs = s.regs)
      ∧ (∀ (msg : BitVec 128) (tick n : Nat), s.servo.lastPps = some (tick, n) →
          let d := s.time.ticks - tick
          let good := crc16 (leBytes 14 msg.toNat) = recF msg.toNat 0xE 15 0 ∧ 12288 * 10000 ≤ d * 25 ∧ d * 25 ≤ 12288 * 900000
          (good → msg.getLsbD 24 = true → gives (.todRxMessage msg) s { s with servo := { s.servo with
              tod := some ((recF msg.toNat 4 47 0 : Nat) * 65536000000000 - s.ppsTime n) } })
          ∧ (good → msg.getLsbD 24 = false → gives (.todRxMessage msg) s s)
          ∧ (¬ good → runs (.todRxMessage msg) s fun t => oneReg s t Addr.tbTodErrCnt (bump (s.reg Addr.tbTodErrCnt) 1)))
      ∧ ∀ (who : Requester) (v : Word), runs (.tuneDacWrite who v) s fun t =>
          if isZelfa who = true ∧ s.targetDac = false then
            regsBecome { s with servo := t.servo } t [(Addr.tuneDacCode, Fld.put Fld.tuneDacCodePend
              (withField s Addr.tuneDacCode Fld.tuneDacCodeCode (v.toNat % 2 ^ 20)) 1)]
            ∧ ∃ old, t.servo = { s.servo with codeNew := some (s.time.ticks, old) }
          else oneReg s t Addr.tuneWrDenyCnt (bump (s.reg Addr.tuneWrDenyCnt) 1)

/-- A commit register after an accepted write (R327). -/
def Sys2Proof.Machine.commitWritten (s t : State) (group : Bool) (n : Nat) (v : Word) : Prop :=
  onlyRegs { s with time := t.time } t [commitReg group n]
    ∧ (t.ctxArmed group n = (v.getLsbD 0 || s.ctxArmed group n))
    ∧ (t.flag (commitReg group n) Fld.tbCtxCommitTorn
        = (s.flag (commitReg group n) Fld.tbCtxCommitTorn && !v.getLsbD 1))
    ∧ (t.flag (commitReg group n) Fld.tbCtxCommitBadset
        = (s.flag (commitReg group n) Fld.tbCtxCommitBadset && !v.getLsbD 2))
    ∧ t.time = { s.time with armed := t.time.armed }

/-- The commit is not due at this edge: a boundary's copy comes before a write in its cycle. -/
def Sys2Proof.Machine.notDue (s : State) (group : Bool) (n : Nat) : Prop :=
  s.ctxArmed group n = true → s.time.counting = true → s.armedBefore (commitKey group n) = true →
    s.atBoundary (s.commitGrid group n) = false

/-- R327, R328: an armed context or lock group commits at its boundary, all members together, or none of them where one names an
undeclared profile; COMMIT clears either way; the host and the Zelfa cores write the shadow set, which tears an armed
commit, or comes after the copy of a boundary in its cycle, and the commit registers; other writes are ignored and counted. -/
def Obligations.ContextsCommitTogether : Prop :=
  ∀ s : State, s.settled →
    (∀ (group : Bool) (n : Fin 64), (group = true → n.val < 16) → s.ctxArmed group n = true → s.commitSet group n ≠ [] →
      s.time.counting = true → runs (.ctxSlotCommit group n) s fun t => t.time = (s.toCommit group n).time
        ∧ t.ctxArmed group n = false ∧
        if s.profilesOk (s.commitSet group n) then
          t.reg Addr.tbCtxCommitCnt = bump (s.reg Addr.tbCtxCommitCnt) 1
          ∧ ∀ m : Nat, m < 64 → if m ∈ s.commitSet group n then
              t.fget (Addr.tbCtxAct m) Fld.tbCtxActProfile = s.fget (Addr.tbCtxSh m) Fld.tbCtxShProfile
                ∧ t.fget (Addr.tbCtxAct m) Fld.tbCtxActCommits = (s.fget (Addr.tbCtxAct m) Fld.tbCtxActCommits + 1) % 65536
              else t.reg (Addr.tbCtxAct m) = s.reg (Addr.tbCtxAct m)
        else t.flag (commitReg group n) Fld.tbCtxCommitBadset = true
          ∧ t.reg Addr.tbCtxBadsetCnt = bump (s.reg Addr.tbCtxBadsetCnt) 1
          ∧ ∀ m : Nat, m < 64 → t.reg (Addr.tbCtxAct m) = s.reg (Addr.tbCtxAct m))
    ∧ (∀ (n : Fin 64) (who : Requester) (v : Word),
      let deny := (Addr.tbCtxWrDenyCnt, bump (s.reg Addr.tbCtxWrDenyCnt) 1)
      let sh := (Addr.tbCtxSh n, withField s (Addr.tbCtxSh n) Fld.tbCtxShProfile (v.toNat % 8))
      let g := (s.ctx n).grouped
      let r := commitReg g (if g then (s.ctx n).lg else n.val)
      (isHostOrZelfa who = false ∨ (s.ctx n).enabled = false →
        runs (.tbCtxShWrite n who v) s (fun t => regsBecome s t [deny])
        ∧ runs (.tbCtxCommit n who v) s fun t => regsBecome s t [deny])
      ∧ (isHostOrZelfa who = true → (s.ctx n).enabled = true →
        (s.ctxArmed g (if g then (s.ctx n).lg else n.val) = false → runs (.tbCtxShWrite n who v) s fun t => regsBecome s t [sh])
        ∧ (s.ctxArmed g (if g then (s.ctx n).lg else n.val) = true → (s.ctx n).lg < 16 →
          notDue s g (if g then (s.ctx n).lg else n.val) → runs (.tbCtxShWrite n who v) s fun t =>
          regsBecome s t [sh, (Addr.tbCtxTornCnt, bump (s.reg Addr.tbCtxTornCnt) 1),
            (r, Fld.put Fld.tbCtxCommitTorn (withField s r Fld.tbCtxCommitCommit 0) 1)])
        ∧ (g = false → s.ctxArmed false n = true → ¬ notDue s false n → s.profilesOk [n.val] = true →
          runs (.tbCtxShWrite n who v) s fun t => t.ctxArmed false n = false
            ∧ t.fget (Addr.tbCtxAct n) Fld.tbCtxActProfile = s.fget (Addr.tbCtxSh n) Fld.tbCtxShProfile
            ∧ t.fget (Addr.tbCtxSh n) Fld.tbCtxShProfile = v.toNat % 8
            ∧ t.reg Addr.tbCtxTornCnt = s.reg Addr.tbCtxTornCnt)
        ∧ (g = true → v.getLsbD 0 = true → runs (.tbCtxCommit n who v) s fun t => regsBecome s t [deny])
        ∧ (g = false ∨ v.getLsbD 0 = false → notDue s false n → runs (.tbCtxCommit n who v) s fun t => commitWritten s t false n v)))
    ∧ ∀ (g : Fin 16) (who : Requester) (v : Word), notDue s true g → runs (.tbLgCommit g who v) s fun t =>
        if isHostOrZelfa who = true then commitWritten s t true g v
        else regsBecome s t [(Addr.tbCtxWrDenyCnt, bump (s.reg Addr.tbCtxWrDenyCnt) 1)]

/-! ### The host port -/

/-- Stage k of job h occupies HX_BW instance q and its transfers may be issued: they fit its cost, the link is up, a window
allows each line, and no translation is asked for (R335, R336, R338). -/
def Sys2Proof.Machine.moverAt (s : State) (q h k : Nat) (j : Job) (x : Stage) (write : Bool) (us : List HxUnit) : Prop :=
  s.running q = some (h, k) ∧ s.engineDone q = false ∧ s.job h = some j ∧ j.stages[k]? = some x ∧ x.q = q ∧ x.cls = 11
    ∧ x.st = .running ∧ j.closed = false ∧ j.recorded = false ∧ j.cancelId = none ∧ k ≠ j.final ∧ us.length ≤ x.cost
    ∧ s.linkUp = true ∧ s.atsEnable = false ∧ s.cmp.calBad = [] ∧ ∀ u ∈ us, s.windowOk write u.host u.len = true

/-- R37, R208, R216, R222, R334, R336, R338 to R340: a BAR2 access to a mapped bank that accepts the host stores its bytes with
the write's poison mark, or returns them; to an unmapped slot or a bank that refuses it stores nothing, is counted, and a
read returns all ones. The mover's HX_BW 0 stage writes its lines to host memory and ends; its HX_BW 1 stage issues its
reads and ends without flags; a line that arrives is written with its poison and sets the flags, unless a bank refuses it.
An invalidation takes the entries it touches out of the cache. -/
def Obligations.HostReachesMemory : Prop :=
  ∀ s : State, s.settled →
    (∀ (off : BitVec 25) (n : Fin 65) (data : BitVec 512) (mark : Bool),
      let m := Addr.hxBar2Map (off.toNat / 65536)
      let key := s.fget m Fld.hxBar2MapBlock * 256 + s.fget m Fld.hxBar2MapBank
      let a := bankBase key + off.toNat % 65536
      let cxl := s.flag Addr.hxLinkStat Fld.hxLinkStatCxl
      let refused := (Addr.hxBar2ErrCnt, bump (s.reg Addr.hxBar2ErrCnt) 1)
      let ones := Output.hostRsp (List.replicate n.val 0xFF) (if cxl then 1 else 3)
      0 < n.val → off.toNat % 65536 + n.val ≤ 65536 →
        (s.hostReaches = false → gives (.bar2Access true off n data mark none) s s)
        ∧ (s.hostReaches = true → s.flag m Fld.hxBar2MapValid = true → bankValid key = true → cellsGood s →
          s.memReady [Ident.host] a →
            (runs (.bar2Access true off n data mark none) s fun t => t = { s with banks := t.banks }
              ∧ (∀ x, t.byte x = if a ≤ x ∧ x < a + n.val then BitVec.ofNat 8 (data.toNat / 256 ^ (x - a)) else s.byte x)
              ∧ ∀ w, t.poisoned w =
                  if a ≤ 8 * w ∧ 8 * w + 8 ≤ a + n.val then mark
                  else if 8 * w + 8 ≤ a ∨ a + n.val ≤ 8 * w then s.poisoned w
                  else mark || s.poisoned w)
            ∧ gives (.bar2Access false off n data mark none) s (s.emit (.hostRsp ((List.range n.val).map fun i => s.byte (a + i))
                (if (List.range n.val).any fun i => s.poisoned ((a + i) / 8) then (if cxl then 1 else 2) else 0))))
        ∧ (s.hostReaches = true → s.flag m Fld.hxBar2MapValid = false →
            (runs (.bar2Access true off n data mark none) s fun t => regsBecome s t [refused])
            ∧ runs (.bar2Access false off n data mark none) s fun t =>
                regsBecome { s with out := ones :: s.out } t [refused])
        ∧ (s.hostReaches = true → s.flag m Fld.hxBar2MapValid = true → bankValid key = true → s.bankFenced key = false →
            s.accepts key [Ident.host] = false → ∀ write,
              runs (.bar2Access write off n data mark none) s fun t => sameBytes s t ∧ t.reg refused.1 = refused.2
                ∧ t.reg (Addr.memOwnErrCnt (key / 256)) = bump (s.reg (Addr.memOwnErrCnt (key / 256))) 1
                ∧ t.out = if write then s.out else ones :: s.out))
    ∧ (∀ (h k : Nat) (j : Job) (x : Stage) (xs : List HxXfer), cellsGood s →
      let us := xs.flatMap (xferLines j)
      let obo := j.ownerOf (j.stageT k).oboByClass (j.stageT k).obo
      let ended := fun (t : State) => t.running x.q = none ∧ stageOf t h k = some { x with st := .done, frags := [] }
      (moverAt s (calIndex 11 0) h k j x true us →
        (∀ u ∈ us, rangeReady s [Ident.mover, obo] u.addr u.len
          ∧ ∀ i, i < u.len → s.poisoned ((u.addr + i) / 8) = false) →
          runs (.hxBwTransfer 0 xs true true) s fun t => ended t
            ∧ ∀ u ∈ us, .hostWrite u.host ((List.range u.len).map fun i => (s.byte (u.addr + i), false)) ∈ t.out)
      ∧ (moverAt s (calIndex 11 1) h k j x false us → runs (.hxBwTransfer 1 xs true true) s fun t => ended t
          ∧ t.host = { s.host with reads := s.host.reads ++
              [{ job := h, order := j.order, stage := k, obo := obo, lines := us.map fun u => (u, true) }] }))
    ∧ (∀ (h : Fin 2048) (st : Fin 64) (host : List (Byte × Bool)) (r : HxRead) (u : HxUnit) (ok : Bool), cellsGood s →
      (s.host.reads.find? fun r => r.job == h.val && r.stage == st.val) = some r → r.lines = [(u, ok)] → 0 < u.len →
        let src := fun i => if ok then host.getD i (0, true) else (0, true)
        let taken := fun (t : State) => t.host = { s.host with reads := s.host.reads.erase r }
        (rangeReady s [Ident.mover, r.obo] u.addr u.len → runs (.hxReadComplete h st host) s fun t => taken t
          ∧ (∀ y, t.byte y = if u.addr ≤ y ∧ y < u.addr + u.len then (src (y - u.addr)).1 else s.byte y)
          ∧ (∀ i, i < u.len → (src i).2 = true → t.poisoned ((u.addr + i) / 8) = true)
          ∧ (∀ j, s.job h = some j → j.order ≠ r.order → t.cmp = s.cmp)
          ∧ ∀ j, s.job h = some j → j.order = r.order → j.closed = false → j.cancelId = none →
              ∀ m f y, f < 32 → ((j.stageT m).bind f).source = Src.pred → ((j.stageT m).bind f).arg0 = st.val →
                stageOf s h m = some y → y.st = .pending → ∃ z, stageOf t h m = some z ∧ z.flags.getLsbD f = true)
        ∧ (∀ key, bankOf u.addr = some key → u.addr % 65536 + u.len ≤ 65536 → s.bankFenced key = false →
            s.accepts key [Ident.mover, r.obo] = false → runs (.hxReadComplete h st host) s fun t => taken t
              ∧ sameBytes s t ∧ t.cmp = s.cmp))
    ∧ ∀ base size : BitVec 64, runs (.atsInvalidation base size) s fun t =>
        t = { s with host := { s.host with ats := t.host.ats } }
        ∧ ∀ e, e ∈ t.host.ats ↔ e ∈ s.host.ats ∧ (e.base + e.size ≤ base.toNat ∨ base.toNat + size.toNat ≤ e.base)

/-- R342 to R346: the host and the Zelfa cores write the queue registers and other writers are counted; a tail or head below
SIZE of an enabled queue is taken and any other is counted and signalled; a configuration follows EN; a base is taken while
the queue is disabled and aligned. A record is written at TAIL with the phase, which inverts at the wrap; a full queue,
a lost link and a closed window discard it and count it. -/
def Obligations.HostQueuesAreRings : Prop :=
  ∀ (q : Fin 64) (s : State), s.settled →
    let denied := fun (i : Instr) => runs i s fun t => oneReg s t Addr.hxCfgDenyCnt (bump (s.reg Addr.hxCfgDenyCnt) 1)
    let bad := fun (i : Instr) => runs i s fun t => t.reg Addr.hxDbErrCnt = bump (s.reg Addr.hxDbErrCnt) 1
      ∧ t.flag Addr.hxEvtCause (Fld.cause 10) = true ∧ t.cmp = s.cmp
      ∧ t.reg (Addr.hxJqTail q) = s.reg (Addr.hxJqTail q) ∧ t.reg (Addr.hxCqHead q) = s.reg (Addr.hxCqHead q)
    let cfg := fun (cq : Bool) => if cq then Addr.hxCqCfg q else Addr.hxJqCfg q
    let base := fun (cq : Bool) => if cq then Addr.hxCqBase q else Addr.hxJqBase q
    (∀ (who : Requester) (v : Word) (d : DWord) (cq : Bool), isHostOrZelfa who = false →
      denied (.hxJqTail q who v) ∧ denied (.hxCqHead q who v) ∧ denied (.hxQueueCfg cq q who v)
        ∧ denied (.hxQueueBase cq q who d) ∧ denied (.hxFwEvt who v))
    ∧ (∀ (who : Requester) (v : Word), isHostOrZelfa who = true →
      let i := v.toNat % 4096
      (s.flag (cfg false) Fld.hxJqCfgEn = true → i < s.fget (cfg false) Fld.hxJqCfgSize →
        runs (.hxJqTail q who v) s fun t =>
          oneReg s t (Addr.hxJqTail q) (withField s (Addr.hxJqTail q) Fld.hxJqTailIndex i))
      ∧ (s.flag (cfg false) Fld.hxJqCfgEn = false ∨ s.fget (cfg false) Fld.hxJqCfgSize ≤ i → bad (.hxJqTail q who v))
      ∧ (s.flag (cfg true) Fld.hxCqCfgEn = true → i < s.fget (cfg true) Fld.hxCqCfgSize →
        runs (.hxCqHead q who v) s fun t =>
          oneReg s t (Addr.hxCqHead q) (withField s (Addr.hxCqHead q) Fld.hxCqHeadIndex i))
      ∧ (s.flag (cfg true) Fld.hxCqCfgEn = false ∨ s.fget (cfg true) Fld.hxCqCfgSize ≤ i → bad (.hxCqHead q who v)))
    ∧ (∀ (cq : Bool) (who : Requester) (v : Word), isHostOrZelfa who = true →
      let size := v.toNat % 8192
      let en := s.flag (cfg cq) Fld.hxJqCfgEn
      let sized := withField s (cfg cq) Fld.hxJqCfgSize size
      (size < 2 ∨ 4096 < size → denied (.hxQueueCfg cq q who v))
      ∧ (2 ≤ size → size ≤ 4096 → en = true → size = s.fget (cfg cq) Fld.hxJqCfgSize →
        (v.getLsbD 31 = true → gives (.hxQueueCfg cq q who v) s s)
        ∧ (v.getLsbD 31 = false →
            runs (.hxQueueCfg cq q who v) s fun t => oneReg s t (cfg cq) (withField s (cfg cq) Fld.hxJqCfgEn 0)))
      ∧ (2 ≤ size → size ≤ 4096 → en = true → size ≠ s.fget (cfg cq) Fld.hxJqCfgSize → v.getLsbD 31 = true →
        denied (.hxQueueCfg cq q who v))
      ∧ (2 ≤ size → size ≤ 4096 → en = false → v.getLsbD 31 = false →
        runs (.hxQueueCfg cq q who v) s fun t => oneReg s t (cfg cq) sized)
      ∧ (2 ≤ size → size ≤ 4096 → en = false → v.getLsbD 31 = true → runs (.hxQueueCfg cq q who v) s fun t =>
        regsBecome s t ((cfg cq, Fld.put Fld.hxJqCfgEn sized 1) ::
          if cq then
            [(Addr.hxCqStat q, Fld.put Fld.hxCqStatPhase (withField s (Addr.hxCqStat q) Fld.hxCqStatIndex 0) 1),
              (Addr.hxCqHead q, withField s (Addr.hxCqHead q) Fld.hxCqHeadIndex 0)]
          else
            [(Addr.hxJqHead q, withField s (Addr.hxJqHead q) Fld.hxJqHeadIndex 0),
              (Addr.hxJqTail q, withField s (Addr.hxJqTail q) Fld.hxJqTailIndex 0)])))
    ∧ (∀ (cq : Bool) (who : Requester) (d : DWord), isHostOrZelfa who = true →
      let addr := d.toNat % 2 ^ 44
      let ok := s.flag (cfg cq) Fld.hxJqCfgEn = false ∧ addr % (if cq then 64 else 128) = 0
      (ok → runs (.hxQueueBase cq q who d) s fun t => oneReg s t (base cq) (withField s (base cq) Fld.hxJqBaseAddr addr))
      ∧ (¬ ok → denied (.hxQueueBase cq q who d)))
    ∧ (∀ (who : Requester) (v : Word), isZelfa who = true → runs (.hxFwEvt who v) s fun t =>
      t = { s with regs := t.regs, out := t.out, host := t.host }
      ∧ ∀ n, n < 16 → (t.flag Addr.hxEvtCause (Fld.cause n) = true ↔
          s.flag Addr.hxEvtCause (Fld.cause n) = true ∨ 14 ≤ n ∧ v.getLsbD (n - 14) = true))
    ∧ ∀ (r : Nat) (sig : Bool), s.flag (cfg true) Fld.hxCqCfgEn = true →
      let size := s.fget (cfg true) Fld.hxCqCfgSize
      let tail := s.fget (Addr.hxCqStat q) Fld.hxCqStatIndex
      let phase := s.fget (Addr.hxCqStat q) Fld.hxCqStatPhase
      let head := s.fget (Addr.hxCqHead q) Fld.hxCqHeadIndex
      let h := s.fget (base true) Fld.hxCqBaseAddr + 64 * tail
      let t := s.issueRecord q r sig
      2 ≤ size → size ≤ 4096 → tail < size →
        (s.linkUp = false → oneReg s t Addr.hxLdRecDropCnt (bump (s.reg Addr.hxLdRecDropCnt) 1))
        ∧ (s.linkUp = true → (tail + 1) % size = head → t.reg Addr.hxCqOvfCnt = bump (s.reg Addr.hxCqOvfCnt) 1
            ∧ t.flag (Addr.hxCqStat q) Fld.hxCqStatOvf = true ∧ t.flag Addr.hxEvtCause (Fld.cause 9) = true
            ∧ t.fget (Addr.hxCqStat q) Fld.hxCqStatIndex = tail)
        ∧ (s.linkUp = true → (tail + 1) % size ≠ head → s.windowOk true h 64 = false →
            oneReg s t Addr.hxWinErrCnt (bump (s.reg Addr.hxWinErrCnt) 1))
        ∧ (s.linkUp = true → (tail + 1) % size ≠ head → s.windowOk true h 64 = true →
          s.atsEnable = false ∨ s.atsHit true h 64 = true →
            .hostWrite h ((leBytes 64 (r + recP 1 0 phase)).map fun b => (b, false)) ∈ t.out
            ∧ t.fget (Addr.hxCqStat q) Fld.hxCqStatIndex = (tail + 1) % size
            ∧ t.fget (Addr.hxCqStat q) Fld.hxCqStatPhase = if tail + 1 = size then 1 - phase else phase)

/-- Only the host port's own state and registers of the list differ. -/
def Sys2Proof.Machine.portOnly (s t : State) (l : List Nat) : Prop :=
  t = { s with regs := t.regs, host := t.host } ∧ ∀ a, a ∉ l → t.reg a = s.reg a

/-- The grace timer after a loss: started in full in RUN and IDLE, and left as it was elsewhere (R348). -/
def Sys2Proof.Machine.graceFrom (s t : State) : Prop :=
  t.host.graceStart = if s.mode = Mode.run ∨ s.mode = Mode.idle then some s.time.ticks else s.host.graceStart

/-- Configuration space is at its defaults. -/
def Sys2Proof.Machine.cfgDefaults (t : State) : Prop := ∀ o, SMap.get cfgDflt t.host.cfg o = cfgDflt o

/-- R330 to R332, R347 to R349: leaving DL_Active, D3hot and an underrated training lose the link, count it and start the grace
timer, and only the first resets configuration space; the link returns with a sound training, Bus Master Enable and D0; an
expired timer takes the device to SAFE with HOST_LOST; HX_PERST_N resets the port alone; configuration requests are retried
until the port is ready. In DEEP and OFF the port has no power, and of HX_PERST_N only the level is known (R366). -/
def Obligations.HostLinkAndPort : Prop :=
  ∀ s : State, s.settled →
    let st := Addr.hxLinkStat
    let lossRegs := [st, Addr.hxLossCnt, Addr.hxGraceStat]
    let lossCounted := fun (t : State) => t.linkUp = false ∧ t.reg Addr.hxLossCnt = bump (s.reg Addr.hxLossCnt) 1
      ∧ t.host.lost = true ∧ graceFrom s t
    (s.hxPowered = false →
      (∀ (c : Fin 3) (x : HxLink) (w : Bool) (o : BitVec 10) (v : Word) (be : BitVec 4), gives (.hostLinkLoss c x) s s
        ∧ gives (.hostLinkReturn x) s s ∧ gives (.hxPortReady x) s s ∧ gives (.configurationRequest w o v be) s s)
      ∧ gives .hxPerstAssert s { s with host := { s.host with perst := true } }
      ∧ gives .hxPerstRelease s { s with host := { s.host with perst := false } })
    ∧ (∀ x : HxLink, s.hxPowered = true → s.linkUp = true →
      (runs (.hostLinkLoss 0 x) s fun t => lossCounted t ∧ cfgDefaults t ∧ t.host.dlActive = false ∧ portOnly s t lossRegs)
      ∧ (runs (.hostLinkLoss 1 x) s fun t => lossCounted t ∧ t.d3hot = true ∧ portOnly s t lossRegs
          ∧ ∀ o, o ≠ 0x044 → SMap.get cfgDflt t.host.cfg o = SMap.get cfgDflt s.host.cfg o)
      ∧ (s.hxUnderrated x = true → runs (.hostLinkLoss 2 x) s fun t => lossCounted t ∧ t.host.cfg = s.host.cfg
          ∧ t.flag st Fld.hxLinkStatUnderrate = true ∧ portOnly s t (Addr.hxUnderrateCnt :: lossRegs)
          ∧ t.reg Addr.hxUnderrateCnt = bump (s.reg Addr.hxUnderrateCnt) 1))
    ∧ (∀ x : HxLink, s.hxPowered = true → s.linkUp = false → s.host.perst = false → s.host.ready = true → s.hxUnderrated x = false →
      s.busMaster = true → s.d3hot = false → runs (.hostLinkReturn x) s fun t => t.linkUp = true ∧ t.host.graceStart = none
        ∧ t.host.lost = false ∧ t.host.pendEvt = [] ∧ t.fget st Fld.hxLinkStatHxLink = hxLinkUnits x.rate x.width
        ∧ t.fget st Fld.hxLinkStatRate = x.rate.val ∧ t.fget st Fld.hxLinkStatWidth = x.width.val
        ∧ (t.flag st Fld.hxLinkStatCxl = x.cxl) ∧ (s.host.lost = true → t.flag Addr.hxEvtCause (Fld.cause 11) = true)
        ∧ t = { s with regs := t.regs, host := t.host, out := t.out })
    ∧ (∀ t0 : Nat, s.host.graceStart = some t0 → (s.mode = Mode.run ∨ s.mode = Mode.idle) → s.time.counting = true →
      runs .graceTimerExpiry s fun t => t.mode = Mode.safe ∧ t.fget Addr.plbStat Fld.plbStatFirst = 0x0F
        ∧ bitOf (t.reg Addr.plbCause).toNat 0x0F = true ∧ t.host.graceStart = none
        ∧ t.time.ticks = max s.time.ticks (t0 + s.img.graceMs * 491520))
    ∧ (s.hxPowered = true → s.host.perst = false → SMap.wf regDflt s.regs = true → runs .hxPerstAssert s fun t =>
      t.host.perst = true ∧ t.host.ready = false ∧ t.host.dlActive = false ∧ t.linkUp = false ∧ cfgDefaults t
      ∧ t.host.ats = [] ∧ t.reg Addr.hxEvtCause = 0 ∧ (∀ w h n, t.windowOk w h n = false)
      ∧ (∀ q, q < 64 → t.flag (Addr.hxJqCfg q) Fld.hxJqCfgEn = false ∧ t.flag (Addr.hxCqCfg q) Fld.hxCqCfgEn = false)
      ∧ t.reg Addr.hxPerstCnt = bump (s.reg Addr.hxPerstCnt) 1
      ∧ (s.linkUp = true → t.reg Addr.hxLossCnt = bump (s.reg Addr.hxLossCnt) 1 ∧ graceFrom s t)
      ∧ t = { s with regs := t.regs, host := t.host }
      ∧ ∀ a, ¬ (0x41400000 ≤ a ∧ a < 0x41420000) → t.reg a = s.reg a)
    ∧ (s.hxPowered = true → s.host.perst = true → runs .hxPerstRelease s fun t => portOnly s t [Addr.hxGraceStat]
      ∧ t.host = { s.host with perst := false, graceStart := none })
    ∧ (∀ x : HxLink, s.hxPowered = true → s.host.perst = false → s.linkUp = false → s.host.lost = true → s.busMaster = false →
      runs (.hxPortReady x) s fun t => t.host.ready = true ∧ t.host.dlActive = true ∧ t.linkUp = false ∧ graceFrom s t
        ∧ portOnly s t [st, Addr.hxUnderrateCnt, Addr.hxGraceStat])
    ∧ ∀ (off : BitVec 10) (v : Word) (be : BitVec 4), s.hxPowered = true → s.host.perst = false →
      (∀ w, s.host.ready = false → gives (.configurationRequest w off v be) s (s.emit (.cfgRsp true 0)))
      ∧ (s.host.ready = true →
          gives (.configurationRequest false off v be) s (s.emit (.cfgRsp false (s.cfgRead (4 * off.toNat)))))
      ∧ (s.host.cfg = [] → s.cfgRead 0 = 0x90641F6A ∧ s.cfgRead 8 = 0x12000000
          ∧ (s.cfgRead 0x144).toNat = (s.reg Addr.devSerial).toNat % 2 ^ 32
          ∧ (s.cfgRead 0x148).toNat = 0x1F6A0000 + (s.reg Addr.devSerial).toNat / 2 ^ 32 % 65536)
      ∧ (s.host.ready = true → s.host.dlActive = true → s.flag st Fld.hxLinkStatUnderrate = false → s.d3hot = false →
          s.linkUp = false → v.getLsbD 2 = true → runs (.configurationRequest true 1 v 0xF) s fun t => t.linkUp = true
            ∧ t.busMaster = true ∧ t.out.head? = some (.cfgRsp false 0)
            ∧ ∀ o, o ≠ 4 → SMap.get cfgDflt t.host.cfg o = SMap.get cfgDflt s.host.cfg o)

/-! ### Power, modes and the supply -/

/-- A request ends with an outcome, which is written and counted (R356). -/
def Sys2Proof.Machine.answered (s t : State) (outcome voter : Nat) : Prop :=
  t.fget Addr.pwrReqStat Fld.pwrReqStatOutcome = outcome ∧ t.fget Addr.pwrReqStat Fld.pwrReqStatVoter = voter
    ∧ t.reg (Addr.pwrReqCnt outcome) = bump (s.reg (Addr.pwrReqCnt outcome)) 1

/-- The requests and the mode each asks for (Table 15-4). -/
def Sys2Proof.Machine.requestRow (i : Instr) (who : Requester) (ms : BitVec 16) (target : Nat) : Prop :=
  (i = .pwrReqOff who ∧ target = 0) ∨ (i = .pwrReqDeep who ms ∧ target = 1) ∨ (i = .pwrReqSleep who ms ∧ target = 2)
    ∨ (i = .pwrReqRun who ∧ target = 4) ∨ (i = .pwrReqLoad who ∧ target = 5) ∨ (i = .pwrReqService who ∧ target = 7)

/-- Every domain of the vote's stage is fenced and drained. -/
def Sys2Proof.Machine.stageStopped (s : State) (v : Vote) : Prop :=
  s.pwr.vote = some v ∧ ∀ d ∈ voteDomains v v.stage, s.fenced d = true ∧ s.drained d = true

/-- R355 to R361: a request is answered PWR_DENIED, PWR_BUSY or PWR_BACKOFF by the first that applies; OFF and SERVICE are
taken with no job in flight and refused by voter 38 otherwise; SLEEP and SERVICE are left for RUN or IDLE; LOAD reloads the
image; SLEEP and DEEP begin a vote, whose stages are asked in order, end it with a refusal, a back-off and the voters
restarted, or enter the mode. The back-off ends after BACKOFF_MS. -/
def Obligations.PowerRequestsAndVotes : Prop :=
  ∀ s : State, s.settled → s.pwr.pendWake = none →
    let unmoved := fun (t : State) => t.mode = s.mode ∧ t.pwr = s.pwr ∧ t.cmp = s.cmp ∧ sameBytes s t
    (∀ (i : Instr) (who : Requester) (ms : BitVec 16) (m : Nat), requestRow i who ms m →
      (requestAllowed who s.mode m = false → runs i s fun t => unmoved t ∧ answered s t 3 0)
      ∧ (requestAllowed who s.mode m = true → s.reqBusy = true → runs i s fun t => unmoved t ∧ answered s t 4 0)
      ∧ (requestAllowed who s.mode m = true → s.reqBusy = false → m = 1 ∨ m = 2 → s.inBackoff = true →
          runs i s fun t => unmoved t ∧ answered s t 2 0)
      ∧ (requestAllowed who s.mode m = true → s.reqBusy = false → s.pwr.vote = none →
        (m = 0 ∨ m = 7 → s.jobsHeld ≠ 0 → runs i s fun t => unmoved t ∧ answered s t 1 38)
        ∧ (m = 0 → s.jobsHeld = 0 → runs i s fun t => modeIs s t 0 ∧ answered s t 0 0 ∧ t.linkUp = false
            ∧ t.cmp.inbox = [] ∧ t.time.counting = false ∧ t.pwr.stage = .off ∧ t.pins.gpioZ = 0xFFFFFFFF)
        ∧ (m = 7 → s.jobsHeld = 0 → runs i s fun t => modeIs s t 7 ∧ answered s t 0 0 ∧ t.cmp = s.cmp
            ∧ t.flag Addr.hxEvtCause (Fld.cause 1) = true)
        ∧ (m = 4 → s.mode = Mode.service → s.pins.safeN = true → runs i s fun t => answered s t 0 0
            ∧ t.mode = (if (s.fget Addr.pwrClStat Fld.pwrClStatIdle ||| s.fget Addr.pwrClStat Fld.pwrClStatSleep) % 2 ^ 24
                = 2 ^ 24 - 1 then Mode.idle else Mode.run)
            ∧ t.reg Addr.plbMask = 0)
        ∧ (m = 4 → s.mode = Mode.sleep → s.pins.safeN = true → runs i s fun t => modeIs s t Mode.idle
            ∧ answered s t 0 0 ∧ t.fget Addr.pwrWakeReason Fld.pwrWakeReasonReason = 5
            ∧ (∀ c, c < 24 → t.pwr.waking.getLsbD c = true) ∧ t.cmp.held = false)
        ∧ (m = 5 → SMap.wf regDflt s.regs = true → runs i s fun t => t.mode = Mode.load
            ∧ t.fget Addr.pwrReqStat Fld.pwrReqStatOutcome = 0 ∧ t.cmp = Compass.reset ∧ (∀ a, t.byte a = 0)
            ∧ t.flag Addr.plbStat Fld.plbStatSafe = false
            ∧ (∀ a, keptAtLoad true a = false → a ≠ Addr.pwrReqStat → a ≠ Addr.pwrReqCnt 0 →
                t.reg a = BitVec.ofNat 64 (regReset a)))
        ∧ (m = 1 ∨ m = 2 → s.inBackoff = false → (∀ r ∈ s.plb.running, r.1 = 0) →
          (s.jobsHeld = 0 → runs i s fun t => t.mode = s.mode ∧ t.reqBusy = true ∧ t.cmp = { s.cmp with held := true }
            ∧ t.pwr = { s.pwr with vote := some ⟨m, none, 1, ms.toNat, s.now⟩ })
          ∧ (s.jobsHeld ≠ 0 → runs i s fun t => t.mode = s.mode ∧ answered s t 1 38 ∧ t.reqBusy = false
            ∧ t.reg Addr.pwrRefusedCnt = bump (s.reg Addr.pwrRefusedCnt) 1
            ∧ t.pwr = { s.pwr with backoff := some (s.time.ticks, s.img.backoffMs) }))))
    ∧ (∀ v : Vote, stageStopped s v →
      (v.cluster = none → 1 ≤ v.stage → v.stage < 7 → v.stage ≠ 5 →
        let v' := { v with stage := v.stage + 1 }
        let u := s.setVote (some v')
        (u.refusers v' (v.stage + 1) = [] → gives .voteStageAgreed s u)
        ∧ (∀ r, r < 64 → u.refusers v' (v.stage + 1) = [r] → s.mode ≠ Mode.sleep → runs .voteStageAgreed s fun t =>
            answered s t 1 r ∧ t.reqBusy = false ∧ t.pwr.vote = none ∧ t.cmp.held = false ∧ t.mode = s.mode
            ∧ t.pwr.backoff = some (s.time.ticks, s.img.backoffMs)
            ∧ t.reg Addr.pwrRefusedCnt = bump (s.reg Addr.pwrRefusedCnt) 1
            ∧ ∀ k d, k ≤ v.stage + 1 → d ∈ voteDomains v k → (d < 24 → s.clusterAsleep d = false) → t.fenced d = false))
      ∧ (v.cluster = none → v.stage = 7 → v.target = Mode.sleep ∨ v.target = Mode.deep → s.mode ≠ v.target →
          s.mode ≠ Mode.service → s.mode ≠ Mode.load → runs .voteStageAgreed s fun t => modeIs s t v.target
            ∧ answered s t 0 0 ∧ t.reqBusy = false ∧ t.pwr.vote = none ∧ (∀ c, c < 24 → t.clusterAsleep c = true)
            ∧ t.pwr.wakeTimer = (if v.wakeMs = 0 then none else some (s.time.ticks, v.wakeMs)) ∧ sameBytes s t
            ∧ (v.target = Mode.deep → t.flag Addr.pwrPadCtrl Fld.pwrPadCtrlHeld = true ∧ t.linkUp = false
                ∧ t.time.counting = false))
      ∧ ∀ c : Fin 24, v.cluster = some c.val → v.stage = 2 → runs .voteStageAgreed s fun t =>
          t.clusterAsleep c = true ∧ t.pwr.vote = none ∧ sameBytes s t ∧ (∀ i, i < 8 → t.core (8 * c.val + i) = Core.init)
          ∧ ∀ x : Fin 24, x ≠ c → t.clusterAsleep x = s.clusterAsleep x ∧ t.clusterIdle x = s.clusterIdle x)
    ∧ ∀ t0 ms : Nat, s.pwr.backoff = some (t0, ms) → s.time.counting = true → runs .backoffExpiry s fun t =>
        t.pwr = { s.pwr with backoff := none } ∧ t.time.ticks = max s.time.ticks (t0 + ms * 491520) ∧ t.regs = s.regs

/-- R31, R231, R232, R354, R355, R359, R365, R369, R370: a cluster without a READY or RUNNING stage goes IDLE after 10 µs, and
stays where a booking is near; a cluster
in IDLE begins its own vote after 2 ms without a booking; a woken cluster comes back in IDLE with its banks that are not
retained cleared and its fence lifted; a Zelfa core releases held pads; the supply's STATUS_WORD is logged; a margin is
applied in SERVICE only and is acknowledged by its window, and a transaction timeout fails it. Nothing reaches the supply while
the pads are held. -/
def Obligations.ClustersPadsAndPmbus : Prop :=
  ∀ s : State, s.settled →
    (∀ c : Fin 24, (s.mode = Mode.run ∨ s.mode = Mode.idle) →
      (s.clusterIdle c = false → s.clusterAsleep c = false → s.tileBusy c = false → s.time.counting = true →
        (s.passEdges 4916).bookingNear c = false → runs (.clusterIdleEntry c) s fun t => t.clusterIdle c = true ∧ t.time.ticks = s.time.ticks + 4916
          ∧ (∀ x : Fin 24, x ≠ c → t.clusterIdle x = s.clusterIdle x) ∧ sameBytes s t ∧ t.cores = s.cores
          ∧ (t.mode = Mode.idle ↔ ∀ x : Fin 24, t.clusterIdle x = true ∨ t.clusterAsleep x = true))
      ∧ (s.tileBusy c = true ∨ (s.passEdges 4916).bookingNear c = true → gives (.clusterIdleEntry c) s s)
      ∧ (s.clusterIdle c = true → s.img.clSleepEn.testBit c = true → s.pwr.vote = none → s.reqBusy = false →
          s.inBackoff = false → s.nextBooking c = none →
          let u := s.passEdges 983040
          let v : Vote := ⟨Mode.sleep, some c.val, 1, 0, u.now⟩
          (u.setVote (some v)).refusers v 1 = [] → gives (.clusterSleepEntry c) s (u.setVote (some v))))
    ∧ (∀ c : Fin 24, s.pwr.waking.getLsbD c = true → s.banks.wf = true → s.tileBusy c = false →
      runs (.clusterWakeComplete c) s fun t => t.clusterAsleep c = false ∧ t.clusterIdle c = true ∧ t.fenced c = false
        ∧ t.pwr.waking.getLsbD c = false ∧ t.cmp = s.cmp
        ∧ ∀ a, t.byte a = match bankOf a with
            | some key => if key / 256 = c.val ∧ s.flag (cfgReg key) Fld.memBankCfgRetain = false then 0 else s.byte a
            | none => s.byte a)
    ∧ (∀ who : Requester,
      (isZelfa who = true → s.flag Addr.pwrPadCtrl Fld.pwrPadCtrlHeld = true → runs (.padHoldRelease who) s fun t =>
        oneReg s t Addr.pwrPadCtrl (withField s Addr.pwrPadCtrl Fld.pwrPadCtrlHeld 0))
      ∧ (isZelfa who = false ∨ s.flag Addr.pwrPadCtrl Fld.pwrPadCtrlHeld = false → runs (.padHoldRelease who) s fun t =>
        oneReg s t Addr.pwrWrDenyCnt (bump (s.reg Addr.pwrWrDenyCnt) 1)))
    ∧ (s.pmbOn = false → ∀ low w, gives (.pmbAlert low w) s s)
    ∧ (s.plumbPowered = true → s.pmbOn = true →
      (∀ w : BitVec 16, s.padsHeld = false → runs (.pmbAlert false (some w)) s fun t => oneReg s t Addr.pwrPmbLog
        (Fld.put Fld.pwrPmbLogStatusWord (withField s Addr.pwrPmbLog Fld.pwrPmbLogValid 1) w.toNat))
      ∧ ∀ w, w = none ∨ s.padsHeld = true → runs (.pmbAlert false w) s fun t => t.reg Addr.pwrPmbFailCnt = bump (s.reg Addr.pwrPmbFailCnt) 1
          ∧ onlyRegs { s with pwr := t.pwr } t [Addr.pwrPmbFailCnt]
          ∧ t.pwr = { s.pwr with pmbGone := if s.img.upstream = 1 then true else s.pwr.pmbGone })
    ∧ (∀ (m : Fin 4) (low : Bool) (vout : Option (BitVec 16)),
      (s.mode ≠ Mode.service → runs (.pmbMarginRequest m low vout) s fun t =>
        oneReg s t Addr.pwrWrDenyCnt (bump (s.reg Addr.pwrWrDenyCnt) 1))
      ∧ (s.mode = Mode.service → s.pmbOn = true → runs (.pmbMarginRequest m false vout) s fun t => t.pwr.margin = m
          ∧ t.out = (if s.padsHeld then s.out
              else .pmbus 0x01 (if m = 2 then 0xA8 else if m = 1 then 0x98 else 0x80) :: s.out)
          ∧ onlyRegs { s with out := t.out, pwr := t.pwr } t [Addr.pwrPmbCtrl]
          ∧ (t.fget Addr.pwrPmbCtrl Fld.pwrPmbCtrlResult = 1 ↔ s.padsHeld = false ∧ ∃ x, vout = some x
              ∧ s.img.voutWin.getD (2 * m.val) 0 ≤ x.toNat ∧ x.toNat ≤ s.img.voutWin.getD (2 * m.val + 1) 0)))
    ∧ (s.pmbOn = true → runs .pmbTransactionTimeout s fun t => t.mode = s.mode
      ∧ t.reg Addr.pwrPmbFailCnt = bump (s.reg Addr.pwrPmbFailCnt) 1
      ∧ t.fget Addr.pwrPmbCtrl Fld.pwrPmbCtrlResult = (if s.fget Addr.pwrPmbCtrl Fld.pwrPmbCtrlResult = 3 then 2
          else s.fget Addr.pwrPmbCtrl Fld.pwrPmbCtrlResult)
      ∧ (s.img.upstream = 1 → t.pmbOn = false) ∧ sameBytes s t)

/-- The device starts in LOAD with a wake reason, its stage rising. -/
def Sys2Proof.Machine.loadsWith (t : State) (reason : Nat) : Prop :=
  t.mode = Mode.load ∧ t.fget Addr.pwrWakeReason Fld.pwrWakeReasonReason = reason ∧ t.pwr.stage = .rising
    ∧ t.pwr.restart = none ∧ t.cmp = Compass.reset ∧ ∀ a, t.byte a = 0

/-- R350 to R352, R364, R367, R368: VIN below PFAIL or above the warning is a doubt; a stop or a disconnect leaves OFF, and the
restored supply starts through LOAD with its reason; WAKE_N and the wake timer wake from SLEEP to IDLE, from DEEP warm, or
through LOAD; the stage's rails come good, or after a retry at half slew the device goes to OFF with WAKE_FAIL_REG; a domain
rail that fails is the doubt PWR_DOMAIN. -/
def Obligations.SupplyAndWakes : Prop :=
  ∀ s : State, s.settled → SMap.wf regDflt s.regs = true →
    let on := s.plumbPowered = true ∧ s.mode ≠ Mode.safe ∧ s.mode ≠ Mode.service
    (runs .aonStart s fun t => t.mode = Mode.off ∧ t.pwr.restart = some 0 ∧ t.cmp = Compass.reset
      ∧ t.time = Meridian.reset ∧ (∀ a, t.byte a = 0) ∧ ∀ a, a ≠ Addr.pwrMode → t.reg a = BitVec.ofNat 64 (regReset a))
    ∧ (on → (runs .vinPfail s fun t => tookSafe s t 1 ∧ t.flag Addr.pwrVin Fld.pwrVinPfail = true)
      ∧ runs .vinOvWarning s fun t => tookSafe s t 1 ∧ t.flag Addr.pwrVin Fld.pwrVinOvw = true)
    ∧ (runs .vinStop s fun t => t.mode = Mode.off ∧ t.pwr.restart = some 3 ∧ t.pwr.stage = .off ∧ t.linkUp = false
      ∧ t.time.counting = false)
    ∧ (runs .vinOvDisconnect s fun t => t.mode = Mode.off ∧ t.pwr.restart = some 4 ∧ t.pwr.stage = .off
      ∧ t.reg Addr.pwrOvDiscCnt = bump (s.reg Addr.pwrOvDiscCnt) 1)
    ∧ (∀ r, s.pwr.restart = some r → r < 16 →
      (r ≠ 4 → s.mode = Mode.off → runs .vinStart s fun t => loadsWith t r ∧ t.reg Addr.pwrVin = 0)
      ∧ (r = 4 → gives .vinStart s s)
      ∧ (r = 4 → s.mode = Mode.off → runs .vinOvRelease s fun t => loadsWith t 4 ∧ t.reg Addr.pwrVin = 0)
      ∧ (r ≠ 4 → gives .vinOvRelease s s) ∧ gives .wakeNAssert s s)
    ∧ (s.pwr.restart = none → s.plb.pfailLog = none → runs .vinRecovery s fun t =>
      t = { s with regs := t.regs, pwr := { s.pwr with vinSince := some s.time.ticks } } ∧ t.vinBad = false
      ∧ ∀ a, a ≠ Addr.pwrVin → t.reg a = s.reg a)
    ∧ (s.pwr.restart = none → s.mode = Mode.sleep → s.pwr.vote = none → s.pins.safeN = true →
      let woken := fun (t : State) (r : Nat) => modeIs s t Mode.idle
        ∧ t.fget Addr.pwrWakeReason Fld.pwrWakeReasonReason = r
        ∧ (∀ c, c < 24 → t.pwr.waking.getLsbD c = true) ∧ t.cmp.held = false ∧ t.pwr.wakeTimer = none
        ∧ ∀ d, 24 ≤ d → d < 30 → t.fenced d = false
      (runs .wakeNAssert s fun t => woken t 1)
      ∧ ∀ t0 ms, s.pwr.wakeTimer = some (t0, ms) → s.time.counting = true → runs .wakeTimerExpiry s fun t => woken t 2
          ∧ t.time.ticks = max s.time.ticks (t0 + ms * 491520))
    ∧ (s.pwr.restart = none → s.pwr.stage = .off →
      (s.mode = Mode.deep → s.flag Addr.pwrMode Fld.pwrModeColdDeep = false → runs .wakeNAssert s fun t =>
        t.mode = Mode.deep ∧ t.fget Addr.pwrWakeReason Fld.pwrWakeReasonReason = 1 ∧ sameBytes s t
        ∧ t.pwr = { s.pwr with stage := .rising, wake := some true, wakeTimer := none })
      ∧ (s.mode = Mode.off ∨ s.mode = Mode.deep ∧ s.flag Addr.pwrMode Fld.pwrModeColdDeep = true →
          runs .wakeNAssert s fun t => loadsWith t 1))
    ∧ (∀ n : BitVec 16, (s.pwr.stage = .rising ∨ s.pwr.stage = .halfSlew) → s.mode = Mode.load →
      gives (.powerGood n) s { s with pwr := { s.pwr with stage := .good } })
    ∧ (∀ (low : Bool) (w : Option (BitVec 16)),
      (s.pwr.stage = .rising → runs (.powerGoodTimeout low w) s fun t => t.pwr.stage = .halfSlew ∧ t.mode = s.mode
        ∧ t.pwr.wakeFailed = true ∧ t.reg Addr.pwrWakeFailCnt = bump (s.reg Addr.pwrWakeFailCnt) 1)
      ∧ (s.pwr.stage = .halfSlew → runs (.powerGoodTimeout low w) s fun t => t.mode = Mode.off ∧ t.pins.faultN = false
        ∧ t.flag Addr.pwrWakeReason Fld.pwrWakeReasonWakeFailReg = true ∧ t.pwr.stage = .off
        ∧ t.reg Addr.pwrWakeFailCnt = bump (s.reg Addr.pwrWakeFailCnt) 1))
    ∧ ∀ d : Fin 28, on → d.val < 24 → s.pwr.waking.getLsbD d = true → runs (.domainRailTimeout d) s fun t =>
        tookSafe s t 0x0E ∧ t.pwr.waking.getLsbD d = false ∧ t.clusterAsleep d = s.clusterAsleep d
        ∧ t.reg Addr.pwrWakeFailCnt = bump (s.reg Addr.pwrWakeFailCnt) 1

/-- R13, R301, R329, R364, R368, R413: a lock sets LOCKED and lets Meridian count, and completes a warm wake; a loss of lock or of
REFCLK stops it, continues on BKOSC and is the doubt CLK_LOCK; no lock within 5 ms is the doubt CLK_NOREF, in a warm wake once
the registers are restored; a retry stores its count and locks only with a count within 6 % of the declared reference, one of
the four of R12. -/
def Obligations.RootPllLocksAndLoses : Prop :=
  ∀ s : State, s.settled →
    let on := s.plumbPowered = true ∧ s.mode ≠ Mode.safe ∧ s.mode ≠ Mode.service
    let locked := fun (t : State) => t.locked = true ∧ t.flag Addr.clkStat Fld.clkStatOnBkosc = false
      ∧ t.time.counting = true
    let lost := fun (t : State) => tookSafe s t 4 ∧ t.locked = false ∧ t.flag Addr.clkStat Fld.clkStatOnBkosc = true
      ∧ t.time.counting = false ∧ t.reg Addr.clkLockLossCnt = bump (s.reg Addr.clkLockLossCnt) 1
    (s.pwr.stage = .good → s.mode ≠ Mode.off → s.mode ≠ Mode.deep → runs .rootPllLock s fun t => locked t
      ∧ t = { s with regs := t.regs, time := t.time, noc := t.noc } ∧ (∀ a, a ≠ Addr.clkStat → t.reg a = s.reg a)
      ∧ t.time = { s.time with counting := true }
      ∧ t.noc = { s.noc with base := if s.time.counting then s.noc.base else s.time.ticks })
    ∧ (s.waking = true → s.pins.safeN = true → s.vinBad = false → runs .rootPllLock s fun t => locked t ∧ modeIs s t Mode.idle
      ∧ t.pwr.wake = none ∧ (∀ c, c < 24 → t.clusterIdle c = true) ∧ (∀ d, d < 30 → t.fenced d = false)
      ∧ ∀ k, k < 192 → t.core k = Core.init)
    ∧ (on → s.locked = true → runs .rootPllLockLoss s lost ∧ runs .refclkLoss s fun t => lost t ∧ t.pins.refclk = false)
    ∧ (s.mode = Mode.load → s.pwr.stage = .good → s.locked = false → runs .pllLockTimeout s fun t =>
      tookSafe s t 3 ∧ t.flag Addr.clkStat Fld.clkStatOnBkosc = true
      ∧ t.reg Addr.pwrWakeFailCnt = bump (s.reg Addr.pwrWakeFailCnt) 1)
    ∧ (s.waking = true →
      let kept := { s with regs := s.regs.filter fun e => keptAtWarmWake e.1 }
      runs .pllLockTimeout s fun t => tookSafe kept t 3 ∧ t.flag Addr.clkStat Fld.clkStatOnBkosc = true
        ∧ t.reg Addr.pwrWakeFailCnt = bump (kept.reg Addr.pwrWakeFailCnt) 1)
    ∧ ∀ (n : BitVec 16) (locks : Bool), s.locked = false → s.flag Addr.clkStat Fld.clkStatOnBkosc = true →
        let code := s.fget Addr.clkStat Fld.clkStatRefclk
        let e := 3072 * 2 ^ code
        let ok := code < 4 ∧ 94 * e ≤ 100 * n.toNat ∧ 100 * n.toNat ≤ 106 * e
        (ok → locks = true → runs (.refclkLockRetry n locks) s fun t => locked t ∧ t.mode = s.mode ∧ t.pins.refclk = true)
        ∧ (¬ ok ∨ locks = false → runs (.refclkLockRetry n locks) s fun t => t.locked = false
            ∧ t.fget Addr.clkStat Fld.clkStatRefCount = n.toNat ∧ t = { s with regs := t.regs, pins := t.pins }
            ∧ ∀ a, a ≠ Addr.clkStat → t.reg a = s.reg a)

/-! ### Start-up, the journal, the fuses and the flash -/

/-- R13, R322, R369, R370, R381 to R383, R412: the start-up sequence locks the root PLL from a reference within 6 % or takes
CLK_NOREF; a mandatory supply that does not answer is PMB_FAIL; of the four attempts the first without a cause loads its
image, and with no condition left LOAD is left for RUN; where all fail the device is in SAFE with IMG_FAIL. An attempt whose
board section declares another reference counts again, and the same REFCLK then is no reference. -/
def Obligations.StartupSequence : Prop :=
  ∀ (env : StartEnv) (s : State), s.settled → s.mode = Mode.load → s.pwr.stage = .good →
    let cause := fun k x => s.attemptCause env k x
    let allFail := ∀ k x, (attempts env)[k]? = some x → cause k x ≠ 0
    let calm := s.vinBad = false ∧ s.plb.tj ≤ 1680 ∧ s.pins.safeN = true
    (s.firstBoard env = none → runs (.startupSequence env) s fun t => tookSafe s t 0x0C
      ∧ t.fget Addr.nvmBootStat Fld.nvmBootStatCause
          = ((List.range 4).map fun k => cause k ((attempts env).getD k ⟨0, 0⟩) * 16 ^ k).sum)
    ∧ ∀ r, s.firstBoard env = some r →
      let code := rdF (sec r 1) 0 7 0
      let e := 3072 * 2 ^ code
      let ok := code < 4 ∧ 94 * e ≤ 100 * env.count.toNat ∧ 100 * env.count.toNat ≤ 106 * e
      let codeOf := fun x => rdF (sec (s.imageAt x) 1) 0 7 0
      let sameUpTo := fun k => ∀ i y, i ≤ k → (attempts env)[i]? = some y → boardRead env s y = true → codeOf y = code
      let failBefore := fun k => ∀ i y, i < k → (attempts env)[i]? = some y → cause i y ≠ 0
      let policy := rdF (sec r 4) 0 5 4
      (policy = 0 → ¬ ok ∨ env.locks = false → runs (.startupSequence env) s fun t => tookSafe s t 3
        ∧ t.flag Addr.clkStat Fld.clkStatOnBkosc = true ∧ t.fget Addr.tuneDacCode Fld.tuneDacCodeCode = rdF (sec r 1) 4 19 0)
      ∧ (policy = 2 → env.statusWord = none → runs (.startupSequence env) s fun t => tookSafe s t 0x0D
        ∧ t.reg Addr.pwrPmbFailCnt = bump (s.reg Addr.pwrPmbFailCnt) 1)
      ∧ (policy = 0 → ok → env.locks = true → runs (.startupSequence env) s fun t =>
        (allFail → sameUpTo 3 → tookSafe s t 0x0C ∧ t.locked = true ∧ t.time.counting = true)
        ∧ (∀ k x, (attempts env)[k]? = some x → boardRead env s x = true → codeOf x ≠ code → failBefore k →
            (k ≠ 0 → sameUpTo (k - 1)) → tookSafe s t 3 ∧ t.time.counting = false
              ∧ t.fget Addr.nvmBootStat Fld.nvmBootStatCause / 16 ^ k % 16 = 8)
        ∧ ∀ k x, (attempts env)[k]? = some x → cause k x = 0 → failBefore k → sameUpTo k →
              t.time.counting = true ∧ t.img.present = true ∧ t.fget Addr.nvmBootStat Fld.nvmBootStatCs = x.cs
              ∧ t.fget Addr.nvmBootStat Fld.nvmBootStatSlot = x.slot
              ∧ t.fget Addr.nvmBootStat Fld.nvmBootStatCause / 16 ^ k % 16 = 0
              ∧ (calm → t.mode = Mode.run ∧ t.reg Addr.plbCause = 0 ∧ t.flag Addr.plbStat Fld.plbStatSafe = false))

/-- R375, R379, R380, R386 to R388: compaction erases the other area and at its end the copies lie in it and it is the active
one; JNL_CAL_SAVE in SERVICE appends a record with the item's USER; the rollback counter advances to the image's SEC_VER
and never back; the key hash and its LOCK are blown in SERVICE while LOCK is not; a flash command is carried out in
SERVICE and never on the booted slot, and its end is signalled. A command reaches no flash while the pads are held (R365). -/
def Obligations.JournalFusesAndFlash : Prop :=
  ∀ s : State, s.settled →
    let other := 1 - s.jnlActive
    let denied := fun (i : Instr) => runs i s fun t => oneReg s t Addr.devRwlDenyCnt (bump (s.reg Addr.devRwlDenyCnt) 1)
    let writes := [Mode.run, Mode.idle, Mode.safe, Mode.service].contains s.mode
    (s.jnlLow = false → gives .journalCompaction s s)
    ∧ (s.compacting = false → s.jnlLow = true → writes = true → SMap.wf erased s.nvm.flash = true →
      (s.maintConflict 5 0 = none → s.padsHeld = false → runs .journalCompaction s fun t => t.compacting = true
        ∧ t.plb.running = s.plb.running ++ [(5, 0)]
        ∧ ∀ cs a, a < 2 ^ 28 → t.flashByte cs a =
            if cs = 0 ∧ jnlArea other ≤ a ∧ a < jnlArea other + 0x800000 then 0xFF else s.flashByte cs a)
      ∧ ∀ m, s.maintConflict 5 0 = some m → runs .journalCompaction s fun t => t.compacting = false
          ∧ t.nvm = { s.nvm with compactDue := true } ∧ t.plb.running = s.plb.running
          ∧ t.fget (Addr.plbMaintStat 5) Fld.plbMaintStatStart = 1
          ∧ t.reg (Addr.plbMaintDenyCnt 5) = bump (s.reg (Addr.plbMaintDenyCnt 5)) 1)
    ∧ (s.compacting = true → s.nvm.wait = [] → s.padsHeld = false → s.plb.running.contains (5, 0) = true → s.compacted.length < 131072 →
      (∀ i, i < 0x800000 → s.flashByte 0 (jnlArea other + i) = 0xFF) → runs .journalCompactionDone s fun t =>
        t.compacting = false ∧ t.jnlActive = other ∧ t.jnlUsed = s.compacted.length + 1
        ∧ (∀ k r, s.compacted[k]? = some r → t.jnlAt other (k + 1) = r)
        ∧ t.nvm.seq = s.nvm.seq + 1 ∧ t.nvm.areaSeq = s.nvm.areaSeq + 1 ∧ t.plb.running = s.plb.running.erase (5, 0)
        ∧ t.reg Addr.jnlCompactCnt = bump (s.reg Addr.jnlCompactCnt) 1
        ∧ t.flag Addr.hxEvtCause (Fld.cause 13) = true)
    ∧ (∀ (item : BitVec 8) (idx : BitVec 16),
      (s.mode ≠ Mode.service → denied (.jnlCalSave item idx))
      ∧ ∀ x, s.mode = Mode.service → s.calItem item.toNat idx.toNat = some x → s.flag Addr.pwrVin Fld.pwrVinPfail = false →
          s.compacting = false → s.padsHeld = false → s.jnlUsed < 131072 →
          (∀ i, i < 64 → s.flashByte 0 (jnlArea s.jnlActive + 64 * s.jnlUsed + i) = 0xFF) →
          runs (.jnlCalSave item idx) s fun t => t.jnlUsed = s.jnlUsed + 1 ∧ t.nvm.seq = s.nvm.seq + 1
            ∧ t.reg Addr.jnlWriteCnt = bump (s.reg Addr.jnlWriteCnt) 1
            ∧ t.jnlAt s.jnlActive s.jnlUsed =
                s.jnlMake 3 (recP 0 0 item.toNat + recP 2 0 idx.toNat + recP 6 0 ((s.reg x.user).toNat % 65536)) % 2 ^ 512)
    ∧ (∀ who : Requester, (s.mode ≠ Mode.service ∨ isHostOrZelfa who = false) → ∀ i v,
        denied (.devRollbackAdv who) ∧ denied (.devKeyProg who i v) ∧ denied (.devKeyLock who))
    ∧ (∀ who : Requester, s.mode = Mode.service → isHostOrZelfa who = true →
      (runs (.devRollbackAdv who) s fun t =>
        let n := max s.nvm.rollback (min s.img.secVer 64)
        t.nvm = { s.nvm with rollback := n }
          ∧ oneReg { s with nvm := t.nvm } t Addr.devSecure (withField s Addr.devSecure Fld.devSecureRollback n))
      ∧ (s.nvm.locked = true → ∀ i v, denied (.devKeyProg who i v) ∧ denied (.devKeyLock who))
      ∧ (s.nvm.locked = false → ∀ (i : BitVec 6) (v : Byte),
        (runs (.devKeyProg who i v) s fun t => onlyRegs { s with nvm := t.nvm } t [Addr.devKeyProg]
          ∧ t.nvm = { s.nvm with keyHash := s.nvm.keyHash ||| (if i.toNat < 48 then BitVec.ofNat 384 (v.toNat * 256 ^ (47 - i.toNat)) else 0) })
        ∧ runs (.devKeyLock who) s fun t => onlyRegs { s with nvm := t.nvm } t [Addr.devKeyProg, Addr.devSecure]
            ∧ t.nvm = { s.nvm with locked := true } ∧ t.flag Addr.devSecure Fld.devSecureSecure = true))
    ∧ (∀ (cs : Fin 2) (addr : BitVec 28) (data : List Byte), addr.toNat + data.length ≤ 2 ^ 28 →
      (s.padsHeld = true → s.inBootedSlot cs addr.toNat data.length = false → s.mode = Mode.service →
        gives (.flashWriteCommand cs addr none data) s { s with nvm := { s.nvm with
          ops := s.nvm.ops ++ [⟨cs, addr.toNat, data.length⟩] } })
      ∧ (s.inBootedSlot cs addr.toNat data.length = true → runs (.flashWriteCommand cs addr none data) s fun t =>
        oneReg s t Addr.nvmWpDenyCnt (bump (s.reg Addr.nvmWpDenyCnt) 1))
      ∧ (s.inBootedSlot cs addr.toNat data.length = false → s.mode ≠ Mode.service →
          gives (.flashWriteCommand cs addr none data) s s)
      ∧ (s.inBootedSlot cs addr.toNat data.length = false → s.mode = Mode.service → s.padsHeld = false →
        runs (.flashWriteCommand cs addr none data) s fun t => t = { s with nvm := t.nvm }
          ∧ t.nvm.ops = s.nvm.ops ++ [⟨cs, addr.toNat, data.length⟩]
          ∧ ∀ c a, a < 2 ^ 28 → t.flashByte c a = if c = cs.val ∧ addr.toNat ≤ a ∧ a < addr.toNat + data.length then
              s.flashByte c a &&& data.getD (a - addr.toNat) 0xFF else s.flashByte c a)
      ∧ ∀ n : BitVec 28, addr.toNat + n.toNat ≤ 2 ^ 28 → s.inBootedSlot cs addr.toNat n.toNat = false →
          s.mode = Mode.service → s.padsHeld = false → SMap.wf erased s.nvm.flash = true →
          runs (.flashWriteCommand cs addr (some n) data) s fun t => t = { s with nvm := t.nvm }
            ∧ t.nvm.ops = s.nvm.ops ++ [⟨cs, addr.toNat, n.toNat⟩]
            ∧ ∀ c a, a < 2 ^ 28 → t.flashByte c a = if c = cs.val ∧ addr.toNat ≤ a ∧ a < addr.toNat + n.toNat then 0xFF
                else s.flashByte c a)
    ∧ ∀ (o : FlashOp) (l : List FlashOp), s.nvm.ops = o :: l → runs .flashOperationComplete s fun t =>
        t.nvm = { s.nvm with ops := l } ∧ t.plb.latch.getLsbD 10 = true ∧ t.flag Addr.hxEvtCause (Fld.cause 12) = true
        ∧ sameBytes s t

/-! ### Plumb and maintenance -/

/-- R404 to R411, R413: core k's watchdog is enabled once and kicked by that core, and its expiry is the doubt WDT; a lockstep
mismatch is LOCKSTEP; two readings above 105 °C are THERMAL, one at 100 °C and a falling THERM_ALERT_N are warnings; SAFE_N
low and not masked is SAFE_N. A doubt closes every job, empties the calendars and sets the safe outputs; in SAFE it only
counts. A clear is accepted when every reason is gone, and leaves for IDLE; a GPIO that reads back another level is kept. -/
def Obligations.PlumbGuardsTheDevice : Prop :=
  ∀ s : State, s.settled →
    let on := s.plumbPowered = true ∧ s.mode ≠ Mode.safe ∧ s.mode ≠ Mode.service
    let denied := fun (i : Instr) => runs i s fun t => oneReg s t Addr.plbWrDenyCnt (bump (s.reg Addr.plbWrDenyCnt) 1)
    (∀ (k : Fin 8) (who : Requester) (v : Byte),
      let restarted := SMap.set (fun _ => 0) s.plb.kicks k s.time.ticks
      (wdtWriter k who = false → denied (.wdtEnable k who) ∧ denied (.wdtKick k who v))
      ∧ (wdtWriter k who = true →
        (s.flag (Addr.plbWdt k) Fld.plbWdtEn = true → gives (.wdtEnable k who) s s)
        ∧ (s.flag (Addr.plbWdt k) Fld.plbWdtEn = false → runs (.wdtEnable k who) s fun t =>
            oneReg { s with plb := { s.plb with kicks := restarted } } t (Addr.plbWdt k)
              (withField s (Addr.plbWdt k) Fld.plbWdtEn 1))
        ∧ gives (.wdtKick k who 0x5A) s { s with plb := { s.plb with kicks := restarted } }
        ∧ (v ≠ 0x5A → gives (.wdtKick k who v) s s)))
    ∧ (∀ k : Fin 8,
      (s.flag (Addr.plbWdt k) Fld.plbWdtEn = false → gives (.watchdogExpiry (some k)) s s)
      ∧ (on → s.flag (Addr.plbWdt k) Fld.plbWdtEn = true → s.time.counting = true →
        runs (.watchdogExpiry (some k)) s fun t => tookSafe s t 6
          ∧ t.time.ticks = max s.time.ticks (SMap.get (fun _ => 0) s.plb.kicks k + 49152000)))
    ∧ (on → (runs (.watchdogExpiry none) s fun t => tookSafe s t 6)
      ∧ runs .lockstepMismatch s fun t => tookSafe s t 7 ∧ (∀ q b, calFill t.cmp.cal q b = 0) ∧ t.pwr.vote = none
          ∧ t.flag Addr.hxEvtCause (Fld.cause 0) = true ∧ t.pins.gpioSafe = s.img.present
          ∧ (∀ w, s.img.safeWord = some w → t.servo.dacOut = w ∧ t.flag Addr.tuneDacCode Fld.tuneDacCodeSafe = true)
          ∧ (SMap.wf noJob s.cmp.jobs = true → ∀ h j, t.job h = some j → j.closed = true ∨ j.recorded = true))
    ∧ (s.mode = Mode.safe → runs .lockstepMismatch s fun t => onlyRegs s t [Addr.plbCause, Addr.plbSafeCnt 7]
      ∧ bitOf (t.reg Addr.plbCause).toNat 7 = true
      ∧ t.reg (Addr.plbSafeCnt 7) = bump (s.reg (Addr.plbSafeCnt 7)) 1)
    ∧ (∀ raw : List (BitVec 16), s.plumbPowered = true →
      let tj := s.junction raw
      let off := fun k => s.reg16 (Addr.devTsensOffsEff k) true
      let warned := s.flag Addr.plbTherm Fld.plbThermWarn
      (∀ k, k < 20 → s.excluded k = false → (raw.getD k 0).toInt + off k ≤ tj)
      ∧ (tj < 1600 → runs (.thermalSensorRead raw) s fun t => onlyRegs { s with plb := t.plb } t [Addr.plbStat, Addr.plbTherm]
          ∧ t.plb = { s.plb with tj := tj, hot := 0 } ∧ t.flag Addr.plbTherm Fld.plbThermWarn = false
          ∧ t.fget Addr.plbStat Fld.plbStatTjMax = unsigned 8 (tj / 16))
      ∧ (1600 ≤ tj → ¬ (1680 < tj ∧ s.plb.hot = 1) → runs (.thermalSensorRead raw) s fun t => t.mode = s.mode
          ∧ t.flag Addr.plbTherm Fld.plbThermWarn = true ∧ t.plb.hot = (if 1680 < tj then s.plb.hot + 1 else 0)
          ∧ t.reg Addr.plbThermWarnCnt
              = if warned = true then s.reg Addr.plbThermWarnCnt else bump (s.reg Addr.plbThermWarnCnt) 1)
      ∧ (1680 < tj → s.plb.hot = 1 → on → runs (.thermalSensorRead raw) s fun t => tookSafe s t 2))
    ∧ (s.plumbPowered = true → s.pins.thermAlertN = true → runs (.thermAlert true) s fun t => t.mode = s.mode
      ∧ t.flag Addr.plbTherm Fld.plbThermAlert = true ∧ t.pins = { s.pins with thermAlertN := false }
      ∧ t.flag Addr.hxEvtCause (Fld.cause 3) = true
      ∧ t.reg Addr.plbThermAlertCnt = bump (s.reg Addr.plbThermAlertCnt) 1)
    ∧ (s.pins.thermAlertN = false → runs (.thermAlert true) s fun t => t.reg Addr.plbThermAlertCnt = s.reg Addr.plbThermAlertCnt
      ∧ t.pins = s.pins)
    ∧ (on → s.mode ≠ Mode.load → s.safeNMasked = false → runs (.safeNAssert true) s fun t =>
        tookSafe s t 0x10 ∧ t.pins.safeN = false)
    ∧ (s.safeNMasked = true ∨ s.mode = Mode.load →
        gives (.safeNAssert true) s { s with pins := { s.pins with safeN := false } })
    ∧ gives (.safeNAssert false) s { s with pins := { s.pins with safeN := true } }
    ∧ (∀ who : Requester,
      let cause := (s.reg Addr.plbCause).toNat
      let gone := ∀ r, r < 17 → bitOf cause r = true → s.reasonGone r = true
      let refused := fun (t : State) => t.mode = Mode.safe ∧ t.fget Addr.plbClear Fld.plbClearResult = 2
        ∧ t.reg Addr.plbClrDenyCnt = bump (s.reg Addr.plbClrDenyCnt) 1 ∧ t.cmp = s.cmp ∧ t.pins = s.pins
      (isHostOrZelfa who = false → denied (.plbClear who none))
      ∧ (isHostOrZelfa who = true → s.mode ≠ Mode.safe → gives (.plbClear who none) s s)
      ∧ (isHostOrZelfa who = true → s.mode = Mode.safe →
        (gone → runs (.plbClear who none) s fun t => modeIs s t Mode.idle ∧ t.reg Addr.plbCause = 0
          ∧ t.fget Addr.plbClear Fld.plbClearResult = 1 ∧ t.pins = { s.pins with faultN := true, gpioSafe := false }
          ∧ t.flag Addr.hxEvtCause (Fld.cause 0) = true ∧ t.flag Addr.plbStat Fld.plbStatSafe = false ∧ t.cmp = s.cmp)
        ∧ (¬ gone → runs (.plbClear who none) s refused)
        ∧ ∀ r : Fin 16, runs (.plbClear who (some r)) s fun t => refused t
            ∧ bitOf (t.reg Addr.plbCause).toNat (r.val + 1) = true)
      ∧ (isZelfa who = false ∨ s.img.safeNLock = true ∨ s.mode ≠ Mode.service → ∀ m, denied (.safeNMaskWrite who m))
      ∧ (isZelfa who = true → s.img.safeNLock = false → s.mode = Mode.service → ∀ m, m = true ∨ s.pins.safeN = true →
        runs (.safeNMaskWrite who m) s fun t =>
          oneReg s t Addr.plbMask (withField s Addr.plbMask Fld.plbMaskSafeNMask (if m then 1 else 0))))
    ∧ ∀ g : Fin 32,
      (s.gpioDrives g = true → s.plumbPowered = true → runs (.gpioFaultDetect g) s fun t =>
        regsBecome s t [(Addr.plbGpioStat, withField s Addr.plbGpioStat ⟨g, g⟩ 1),
          (Addr.plbGpioFaultCnt, bump (s.reg Addr.plbGpioFaultCnt) 1)])
      ∧ (s.gpioDrives g = false → gives (.gpioFaultDetect g) s s)

/-- The activities that PLB_MAINT_START starts, with the target each runs on and whether the target is valid (Table 17-6). -/
def Sys2Proof.Machine.maintRow (s : State) (i : Instr) (who : Requester) (id target : Nat) (ok : Bool) : Prop :=
  (∃ (b : Fin 25) (n : BitVec 8), i = .bankBist who b n ∧ id = 1 ∧ target = b.val * 256 + n.toNat
      ∧ ok = (bankValid target && (s.owner target).kind == 6))
    ∨ (∃ l : Fin 64, i = .tsLoopbackCal who l ∧ id = 3 ∧ target = l.val ∧ ok = s.laneUsed target)
    ∨ (i = .calendarAudit who ∧ id = 4 ∧ target = 0 ∧ ok = true)
    ∨ (i = .thermalSensorCheck who ∧ id = 7 ∧ target = 0 ∧ ok = true)

/-- R406, R415: a start is refused for the mode, then the target, then a conflict, and otherwise runs; EN of a scrubber starts
its activity in LOAD and SERVICE; each end writes RESULT and DETAIL and signals vector 77: BIST with its verdict, the
loopback calibration FAILED beyond 0.5 ns, an audit's mismatch as the doubt LEDGER, and the sensor check with the sensors
it excludes. -/
def Obligations.MaintenanceActivities : Prop :=
  ∀ s : State, s.settled →
    (∀ (i : Instr) (who : Requester) (id target : Nat) (ok : Bool), maintRow s i who id target ok →
      let st := Addr.plbMaintStat id
      let said := fun (t : State) (n : Nat) => t.plb = s.plb ∧ t.fget st Fld.plbMaintStatStart = n
        ∧ t.reg (Addr.plbMaintDenyCnt id) = bump (s.reg (Addr.plbMaintDenyCnt id)) 1
        ∧ onlyRegs s t [st, Addr.plbMaintStart, Addr.plbMaintDenyCnt id]
      let may := (maintModes id).contains s.mode
      (isHostOrZelfa who = false → runs i s fun t => oneReg s t Addr.plbWrDenyCnt (bump (s.reg Addr.plbWrDenyCnt) 1))
      ∧ (isHostOrZelfa who = true →
        (may = false → runs i s fun t => said t 2)
        ∧ (may = true → ok = false → runs i s fun t => said t 3)
        ∧ (∀ m, may = true → ok = true → s.maintConflict id target = some m → runs i s fun t => said t 1
            ∧ t.fget st Fld.plbMaintStatBy = m)
        ∧ (may = true → ok = true → s.maintConflict id target = none → runs i s fun t =>
            t = { s with regs := t.regs, plb := { s.plb with running := s.plb.running ++ [(id, target)] } }
            ∧ t.fget st Fld.plbMaintStatStart = 0 ∧ t.flag st Fld.plbMaintStatRunning = true
            ∧ ∀ a, a ≠ st → a ≠ Addr.plbMaintStart → t.reg a = s.reg a)))
    ∧ (∀ (c : Fin 25) (lap : BitVec 16), s.scrubEnabled c = false →
      (s.rwlOpen = true → runs (.scrubEnable c lap) s fun t => t.scrubEnabled c = true
        ∧ t.fget (Addr.memScrubCfg c) Fld.memScrubCfgMaxLap = lap.toNat
        ∧ t = { s with regs := t.regs, plb := { s.plb with running := s.plb.running ++ [(0, c.val)] } }
        ∧ ∀ a, a ≠ Addr.memScrubCfg c → a ≠ Addr.plbMaintStat 0 → t.reg a = s.reg a)
      ∧ (s.rwlOpen = false → runs (.scrubEnable c lap) s fun t => t.plb = s.plb
        ∧ t.fget (Addr.plbMaintStat 0) Fld.plbMaintStatStart = 2
        ∧ t.reg (Addr.memScrubCfg c) = s.reg (Addr.memScrubCfg c)))
    ∧ ∀ (id : Fin 8) (target : BitVec 13) (good : Bool) (vals : List (BitVec 16)),
      let tgt := if id.val = 1 ∨ id.val = 3 then target.toNat else 0
      let st := Addr.plbMaintStat id
      let ends := fun (t : State) (result detail : Nat) => t.fget st Fld.plbMaintStatResult = result
        ∧ t.fget st Fld.plbMaintStatDetail = detail ∧ t.flag Addr.hxEvtCause (Fld.cause 13) = true
        ∧ t.plb.running = s.plb.running.erase (id.val, tgt)
      (s.plb.running.contains (id.val, tgt) = false → gives (.maintActivityEnd id target good vals) s s)
      ∧ (s.plb.running.contains (id.val, tgt) = true →
        (id.val = 1 → runs (.maintActivityEnd id target good vals) s fun t =>
          if good then ends t 1 0 else ends t 2 target.toNat)
        ∧ (id.val = 3 → target.toNat < 64 →
          let d := ((vals.getD 0 0).toNat : Int) - s.reg16 (Addr.ptpRxdlyEff target.toNat) false
            - s.reg16 (Addr.ptpTxdlyEff target.toNat) false
          runs (.maintActivityEnd id target good vals) s fun t => ends t (if 128 < d.natAbs then 2 else 1) (unsigned 16 d))
        ∧ (id.val = 4 → s.nvm.compactDue = false → s.auditOk = true →
          runs (.maintActivityEnd id target good vals) s fun t => ends t 1 0 ∧ t.mode = s.mode)
        ∧ (id.val = 4 → s.nvm.compactDue = false → s.auditOk = false → s.mode = Mode.run ∨ s.mode = Mode.idle →
          runs (.maintActivityEnd id target good vals) s fun t => modeIs s t Mode.safe
            ∧ t.fget Addr.plbStat Fld.plbStatFirst = 8 ∧ (s.cmp.calBad = [] → tookSafe s t 8))
        ∧ (id.val = 7 → (s.strays vals).filter (fun k => !s.excluded k) = [] →
          runs (.maintActivityEnd id target good vals) s fun t => ends t 1 0)
        ∧ ∀ k l, id.val = 7 → (s.strays vals).filter (fun k => !s.excluded k) = k :: l →
          runs (.maintActivityEnd id target good vals) s fun t => ends t 2 k ∧ ∀ n, n < 20 →
            (t.excluded n = true ↔ s.excluded n = true ∨ n ∈ s.strays vals))

/-! ### The test access port -/

/-- R427 to R431: an instruction is selected and what it captures leaves on TDO: the identification code, one zero bit, the
boundary register; EXTEST drives the pins in SAFE and SERVICE only. DAP_ACC performs a read or write as the port's identity,
nothing while it is locked, and shows PENDING until the response has come; DAP_HALT stops a core between instructions and
DAP_RESUME lets it go on; the flash bridge passes bytes where it may act. Where another instruction was selected it is scanned in
first. In OFF the port's pads have no power (R365), and in DEEP an access and a halt reach nothing: the model's choice (log 54). -/
def Obligations.TestAccessPort : Prop :=
  ∀ s : State, s.settled →
    let j := s.jtag
    let scanned := fun ir : Byte => if j.ir = ir then s.out else .tdo 8 1 :: s.out
    let scans := fun (i : Instr) (ir : Byte) (n v : Nat) =>
      gives i s { s with jtag := { j with ir := ir }, out := .tdo n v :: scanned ir }
    (s.tapOn = false → gives .tapReset s s ∧ gives .idcode s s ∧ gives .bypass s s
      ∧ (∀ c d, gives (.samplePreload c d) s s ∧ gives (.extest c d) s s)
      ∧ (∀ dr arrived lost other, gives (.dapAcc dr arrived lost other) s s)
      ∧ (∀ t i, gives (.dapHalt t i) s s ∧ gives (.dapResume t i) s s) ∧ ∀ dr rx, gives (.flashBridge dr rx) s s)
    ∧ (s.tapOn = true → gives .tapReset s { s with jtag := { j with ir := 0x01 } }
    ∧ scans .idcode 0x01 32 0x19064A6B ∧ scans .bypass 0xFF 1 0
    ∧ (∀ captured shifted : BitVec 60,
      let out := fun ir => Output.tdo 60 captured.toNat :: scanned ir
      gives (.samplePreload captured shifted) s { s with jtag := { j with ir := 0x02, bsr := shifted }, out := out 0x02 }
      ∧ gives (.extest captured shifted) s { s with
          jtag := { j with ir := 0x00, bsr := shifted }
          out := if (s.mode = Mode.safe ∨ s.mode = Mode.service) ∧ s.padsHeld = false then .pinsDriven shifted :: out 0x00
            else out 0x00 })
    ∧ (∀ dr : BitVec 128,
      let out := Output.tdo 128 j.acc.toNat :: scanned 0x10
      let a := Acc.addr dr
      let n := if Acc.size dr = 0 then 4 else 8
      let held := fun (acc : BitVec 128) => { j with ir := 0x10, acc := acc, fresh := true }
      (j.fresh = true → runs (.dapAcc dr false false none) s fun t => t = { s with jtag := { j with ir := 0x10 }, out := t.out }
        ∧ t.out = .tdo 128 (Acc.withResult j.acc 5 (Acc.data j.acc)).toNat :: scanned 0x10)
      ∧ ∀ arrived, j.fresh = false ∨ arrived = true →
        (Acc.go dr = false → gives (.dapAcc dr arrived false none) s { s with
          jtag := { j with ir := 0x10, acc := Acc.withResult dr (j.acc.toNat % 16) (Acc.data j.acc), fresh := false }, out := out })
        ∧ (Acc.go dr = true →
          (s.dapLocked = true → ∀ lost other, gives (.dapAcc dr arrived lost other) s { s with
            jtag := held (Acc.withResult dr 4 (Acc.data dr)), out := out })
          ∧ (s.dapLocked = false → s.mode = Mode.deep → ∀ lost other, gives (.dapAcc dr arrived lost other) s { s with
            jtag := held (Acc.withResult dr 2 (Acc.data dr)), out := out })
          ∧ (s.dapLocked = false → s.mode ≠ Mode.deep → Acc.size dr ≤ 1 → a % n = 0 → cellsGood s → s.memReady [Ident.dap] a →
            (Acc.write dr = false → s.poisoned (a / 8) = false → gives (.dapAcc dr arrived false none) s { s with
              jtag := held (Acc.withResult dr 0 (s.memVal a n)), out := out })
            ∧ (Acc.write dr = true → runs (.dapAcc dr arrived false none) s fun t =>
              t = { s with jtag := held (Acc.withResult dr 0 (Acc.data dr)), out := out, banks := t.banks }
              ∧ ∀ x, t.byte x = if a ≤ x ∧ x < a + n then BitVec.ofNat 8 (Acc.data dr / 256 ^ (x - a)) else s.byte x))))
    ∧ (∀ (target : Fin 4) (index : Byte),
      let u := { s with jtag := { j with ir := 0x11 }, out := scanned 0x11 }
      (s.dapLocked = true ∨ s.mode = Mode.deep ∨ haltTarget target index.toNat = none →
        gives (.dapHalt target index) s u ∧ gives (.dapResume target index) s u)
      ∧ ∀ k, s.dapLocked = false → s.mode ≠ Mode.deep → haltTarget target index.toNat = some k →
        (target = 0 → k = index.toNat ∧ k < 192) ∧ (target = 1 → k = 192 + index.toNat ∧ k < 200)
        ∧ ((s.core k).state ≠ 3 → ¬ ((s.core k).state = 1 ∧ (s.core k).rep.isSome = true) →
          runs (.dapHalt target index) s fun t => (∀ m, m ≠ k → t.core m = s.core m)
            ∧ t.core k = { s.core k with state := 3, haltedFrom := (s.core k).state, haltPend := false } ∧ sameBytes s t)
        ∧ ((s.core k).state = 1 → (s.core k).rep.isSome = true → runs (.dapHalt target index) s fun t =>
          onlyCore u t k ∧ t.core k = { s.core k with haltPend := true })
        ∧ ((s.core k).state = 3 → gives (.dapHalt target index) s u ∧ runs (.dapResume target index) s fun t =>
          (∀ m, m ≠ k → t.core m = s.core m) ∧ t.core k = { s.core k with state := (s.core k).haltedFrom } ∧ sameBytes s t))
    ∧ ∀ (dr : BitVec 24) (rx : Byte),
      let cs := Bridge.cs dr
      let out := Output.tdo 24 j.bridge.toNat :: scanned 0x20
      (s.bridgeActs = false ∨ Bridge.go dr = false → runs (.flashBridge dr rx) s fun t =>
        t = { s with jtag := { j with ir := 0x20, bridge := t.jtag.bridge }, out := out })
      ∧ (s.bridgeActs = true → Bridge.go dr = true → Bridge.last dr = false → s.withheldOf cs = false →
        s.mode ≠ Mode.service → runs (.flashBridge dr rx) s fun t => t = { s with jtag := t.jtag, out := out }
          ∧ t.sentOf cs = s.sentOf cs ++ [Bridge.tx dr] ∧ t.withheldOf cs = false
          ∧ t.jtag.bridge.toNat = dr.toNat / 256 * 256 + rx.toNat))

/-- R407, at the end of every command: each doubt that has arisen sets its bit in PLB_CAUSE and is counted in PLB_SAFE_CNT. In
SAFE that is all it does; from any other powered mode the device goes to SAFE, and FIRST takes the lowest code among them. -/
def Obligations.DoubtsTakeSafe : Prop :=
  ∀ s : State, s.plumbPowered = true → s.plb.raised ≠ [] → (∀ r ∈ s.plb.raised, r ≤ 16) →
    let l := s.plb.raised
    ∃ t, s.done = .next t ∧ t.plb.raised = [] ∧ (∀ r ∈ l, bitOf (t.reg Addr.plbCause).toNat r = true)
      ∧ (s.mode = Mode.safe → onlyRegs { s with plb := { s.plb with raised := [] } } t (Addr.plbCause :: l.map Addr.plbSafeCnt)
        ∧ ∀ r ∈ l, t.reg (Addr.plbSafeCnt r) = bump (s.reg (Addr.plbSafeCnt r)) (l.count r))
      ∧ (s.mode ≠ Mode.safe → modeIs s t Mode.safe ∧ t.fget Addr.plbStat Fld.plbStatFirst ∈ l
        ∧ (∀ r ∈ l, t.fget Addr.plbStat Fld.plbStatFirst ≤ r)
        ∧ ∀ r ∈ l, (bump (s.reg (Addr.plbSafeCnt r)) (l.count r)).toNat ≤ (t.reg (Addr.plbSafeCnt r)).toNat)
end

