-- ==== Sys2Proof/Laws/Maps.lean ====
section
/-! SUPPORT. Laws of the sparse sorted map: a read after a write, other keys, and that writes keep the canonical form. -/

namespace Sys2Proof.Machine

variable {α : Type}

theorem SMap.get_above (d : Nat → α) (m : SMap α) {k j : Nat} (h : j ≤ k) : SMap.get d (SMap.above m k) j = d j := by
  induction m with
  | nil => rfl
  | cons e m ih =>
    obtain ⟨k', v⟩ := e
    by_cases hk : k' ≤ k
    · simp [SMap.above, hk, ih]
    · have h1 : j ≠ k' := by omega
      have h2 : j < k' := by omega
      simp [SMap.above, hk, SMap.get, h1, h2]

theorem SMap.get_above_high (d : Nat → α) (m : SMap α) {k j : Nat} (h : k < j) :
    SMap.get d (SMap.above m k) j = SMap.get d m j := by
  induction m with
  | nil => rfl
  | cons e m ih =>
    obtain ⟨k', v⟩ := e
    by_cases hk : k' ≤ k
    · have h1 : j ≠ k' := by omega
      have h2 : ¬ j < k' := by omega
      simp [SMap.above, hk, SMap.get, h1, h2, ih]
    · simp [SMap.above, hk]

theorem SMap.get_erase_self (d : Nat → α) (m : SMap α) (k : Nat) : SMap.get d (SMap.erase m k) k = d k := by
  induction m with
  | nil => rfl
  | cons e m ih =>
    obtain ⟨k', v⟩ := e
    by_cases h : k = k'
    · simp [SMap.erase, h, SMap.get_above d m (Nat.le_refl k')]
    · by_cases h' : k < k' <;> simp [SMap.erase, SMap.get, h, h', ih]

theorem SMap.get_erase_other (d : Nat → α) (m : SMap α) {k j : Nat} (hj : j ≠ k) :
    SMap.get d (SMap.erase m k) j = SMap.get d m j := by
  induction m with
  | nil => rfl
  | cons e m ih =>
    obtain ⟨k', v⟩ := e
    by_cases h : k = k'
    · subst h
      by_cases hlt : j < k
      · simp [SMap.erase, SMap.get, hj, hlt, SMap.get_above d m (Nat.le_of_lt hlt)]
      · have : k < j := by omega
        simp [SMap.erase, SMap.get, hj, hlt, SMap.get_above_high d m this]
    · by_cases h' : k < k' <;> simp [SMap.erase, SMap.get, h, h', ih]

theorem SMap.get_put_self (d : Nat → α) (m : SMap α) (k : Nat) (v : α) : SMap.get d (SMap.put m k v) k = v := by
  induction m with
  | nil => simp [SMap.put, SMap.get]
  | cons e m ih =>
    obtain ⟨k', w⟩ := e
    by_cases h : k = k'
    · simp [SMap.put, SMap.get, h]
    · by_cases h' : k < k' <;> simp [SMap.put, SMap.get, h, h', ih]

theorem SMap.get_put_other (d : Nat → α) (m : SMap α) {k j : Nat} (v : α) (hj : j ≠ k) :
    SMap.get d (SMap.put m k v) j = SMap.get d m j := by
  induction m with
  | nil => simp [SMap.put, SMap.get, hj]
  | cons e m ih =>
    obtain ⟨k', w⟩ := e
    by_cases h : k = k'
    · subst h; simp [SMap.put, SMap.get, hj]
    · by_cases h' : k < k'
      · by_cases h2 : j < k
        · have h3 : j ≠ k' := by omega
          have h4 : j < k' := by omega
          simp [SMap.put, SMap.get, h, h', hj, h2, h3, h4]
        · simp [SMap.put, SMap.get, h, h', hj, h2]
      · simp [SMap.put, SMap.get, h, h', ih]

variable [DecidableEq α]

/-- A read after a write to the same key gives the value written. -/
@[simp] theorem SMap.get_set_self (d : Nat → α) (m : SMap α) (k : Nat) (v : α) : SMap.get d (SMap.set d m k v) k = v := by
  by_cases h : v = d k
  · simp [SMap.set, h, SMap.get_erase_self]
  · simp [SMap.set, h, SMap.get_put_self]

/-- A write leaves every other key alone. -/
theorem SMap.get_set_other (d : Nat → α) (m : SMap α) {k j : Nat} (v : α) (hj : j ≠ k) :
    SMap.get d (SMap.set d m k v) j = SMap.get d m j := by
  by_cases h : v = d k
  · simp [SMap.set, h, SMap.get_erase_other d m hj]
  · simp [SMap.set, h, SMap.get_put_other d m v hj]

theorem SMap.get_set (d : Nat → α) (m : SMap α) (k j : Nat) (v : α) :
    SMap.get d (SMap.set d m k v) j = if j = k then v else SMap.get d m j := by
  by_cases h : j = k
  · subst h; simp
  · simp [h, SMap.get_set_other d m v h]

omit [DecidableEq α] in
@[simp] theorem SMap.get_nil (d : Nat → α) (k : Nat) : SMap.get d ([] : SMap α) k = d k := rfl

/-! ### The canonical form -/

/-- Every key of the map lies above `k`. -/
def SMap.allAbove (m : SMap α) (k : Nat) : Prop := ∀ e ∈ m, k < e.1

theorem SMap.wf_cons (d : Nat → α) (k : Nat) (v : α) (m : SMap α) :
    SMap.wf d ((k, v) :: m) = true ↔ v ≠ d k ∧ SMap.allAbove m k ∧ SMap.wf d m = true := by
  induction m generalizing k v with
  | nil => simp [SMap.wf, SMap.sorted, SMap.allAbove]
  | cons e m ih =>
    obtain ⟨k', v'⟩ := e
    have step : SMap.wf d ((k, v) :: (k', v') :: m) = true ↔ k < k' ∧ v ≠ d k ∧ SMap.wf d ((k', v') :: m) = true := by
      simp only [SMap.wf, SMap.sorted, List.all_cons, Bool.and_eq_true, decide_eq_true_eq]
      exact ⟨fun ⟨⟨a, b⟩, c, e, f⟩ => ⟨a, c, b, e, f⟩, fun ⟨a, c, b, e, f⟩ => ⟨⟨a, b⟩, c, e, f⟩⟩
    rw [step]
    constructor
    · rintro ⟨hk, hv, hw⟩
      refine ⟨hv, ?_, hw⟩
      intro e he
      rcases List.mem_cons.mp he with rfl | he
      · exact hk
      · exact Nat.lt_trans hk (((ih k' v').mp hw).2.1 e he)
    · rintro ⟨hv, ha, hw⟩
      exact ⟨ha (k', v') (List.mem_cons_self ..), hv, hw⟩

omit [DecidableEq α] in
theorem SMap.above_eq {m : SMap α} {k : Nat} (h : SMap.allAbove m k) : SMap.above m k = m := by
  cases m with
  | nil => rfl
  | cons e m =>
    obtain ⟨k', v⟩ := e
    have : k < k' := h (k', v) (List.mem_cons_self ..)
    simp [SMap.above, Nat.not_le.mpr this]

omit [DecidableEq α] in
theorem SMap.erase_subset (m : SMap α) (k : Nat) : ∀ e ∈ SMap.erase m k, e ∈ m := by
  have habove : ∀ (m : SMap α), ∀ e ∈ SMap.above m k, e ∈ m := by
    intro m
    induction m with
    | nil => simp [SMap.above]
    | cons x m ih =>
      obtain ⟨k', v⟩ := x
      intro e he
      by_cases h : k' ≤ k
      · simp only [SMap.above, h, if_true] at he
        exact List.mem_cons_of_mem _ (ih e he)
      · simpa [SMap.above, h] using he
  induction m with
  | nil => simp [SMap.erase]
  | cons x m ih =>
    obtain ⟨k', v⟩ := x
    intro e he
    by_cases h : k = k'
    · simp only [SMap.erase, h, if_true] at he
      exact List.mem_cons_of_mem _ (habove m e (h ▸ he))
    · by_cases h' : k < k'
      · simpa [SMap.erase, h, h'] using he
      · simp only [SMap.erase, h, h', if_false, List.mem_cons] at he
        rcases he with rfl | he
        · exact List.mem_cons_self ..
        · exact List.mem_cons_of_mem _ (ih e he)

omit [DecidableEq α] in
theorem SMap.put_subset (m : SMap α) (k : Nat) (v : α) : ∀ e ∈ SMap.put m k v, e = (k, v) ∨ e ∈ m := by
  induction m with
  | nil => simp [SMap.put]
  | cons x m ih =>
    obtain ⟨k', w⟩ := x
    intro e he
    by_cases h : k = k'
    · simp only [SMap.put, h, if_true, List.mem_cons] at he
      rcases he with rfl | he
      · exact Or.inl (by rw [h])
      · exact Or.inr (List.mem_cons_of_mem _ he)
    · by_cases h' : k < k'
      · simpa [SMap.put, h, h'] using he
      · simp only [SMap.put, h, h', if_false, List.mem_cons] at he
        rcases he with rfl | he
        · exact Or.inr (List.mem_cons_self ..)
        · rcases ih e he with h | h
          · exact Or.inl h
          · exact Or.inr (List.mem_cons_of_mem _ h)

theorem SMap.wf_erase (d : Nat → α) (m : SMap α) (k : Nat) (h : SMap.wf d m = true) : SMap.wf d (SMap.erase m k) = true := by
  induction m with
  | nil => exact h
  | cons x m ih =>
    obtain ⟨k', v⟩ := x
    obtain ⟨hv, ha, hw⟩ := (SMap.wf_cons d k' v m).mp h
    by_cases hk : k = k'
    · simpa [SMap.erase, hk, SMap.above_eq ha] using hw
    · by_cases hk' : k < k'
      · simpa [SMap.erase, hk, hk'] using h
      · simp only [SMap.erase, hk, hk', if_false]
        exact (SMap.wf_cons d k' v _).mpr ⟨hv, fun e he => ha e (SMap.erase_subset m k e he), ih hw⟩

theorem SMap.wf_put (d : Nat → α) (m : SMap α) (k : Nat) (v : α) (hv : v ≠ d k) (h : SMap.wf d m = true) :
    SMap.wf d (SMap.put m k v) = true := by
  induction m with
  | nil => simp [SMap.put, SMap.wf, SMap.sorted, hv]
  | cons x m ih =>
    obtain ⟨k', w⟩ := x
    obtain ⟨hw, ha, hm⟩ := (SMap.wf_cons d k' w m).mp h
    by_cases hk : k = k'
    · subst hk
      simp only [SMap.put, if_true]
      exact (SMap.wf_cons d k v m).mpr ⟨hv, ha, hm⟩
    · by_cases hk' : k < k'
      · simp only [SMap.put, hk, hk', if_true, if_false]
        refine (SMap.wf_cons d k v _).mpr ⟨hv, ?_, h⟩
        intro e he
        rcases List.mem_cons.mp he with rfl | he
        · exact hk'
        · exact Nat.lt_trans hk' (ha e he)
      · simp only [SMap.put, hk, hk', if_false]
        refine (SMap.wf_cons d k' w _).mpr ⟨hw, ?_, ih hm⟩
        intro e he
        rcases SMap.put_subset m k v e he with rfl | he
        · show k' < k
          omega
        · exact ha e he

/-- A write keeps the canonical form. -/
theorem SMap.wf_set (d : Nat → α) (m : SMap α) (k : Nat) (v : α) (h : SMap.wf d m = true) :
    SMap.wf d (SMap.set d m k v) = true := by
  by_cases hv : v = d k
  · simpa [SMap.set, hv] using SMap.wf_erase d m k h
  · simpa [SMap.set, hv] using SMap.wf_put d m k v hv h

/-- Clearing a range keeps the canonical form. -/
theorem SMap.wf_clearRange (d : Nat → α) (m : SMap α) (lo hi : Nat) (h : SMap.wf d m = true) :
    SMap.wf d (SMap.clearRange m lo hi) = true := by
  induction m with
  | nil => exact h
  | cons x m ih =>
    obtain ⟨k, v⟩ := x
    obtain ⟨hv, ha, hm⟩ := (SMap.wf_cons d k v m).mp h
    have ih := ih hm
    by_cases hk : (decide (k < lo) || decide (hi ≤ k)) = true
    · have e : SMap.clearRange ((k, v) :: m) lo hi = (k, v) :: SMap.clearRange m lo hi := by
        simp only [SMap.clearRange, List.filter_cons]
        rw [if_pos hk]
      rw [e]
      exact (SMap.wf_cons d k v _).mpr ⟨hv, fun e he => ha e ((List.mem_filter.mp he).1), ih⟩
    · have e : SMap.clearRange ((k, v) :: m) lo hi = SMap.clearRange m lo hi := by
        simp only [SMap.clearRange, List.filter_cons]
        rw [if_neg hk]
      rw [e]; exact ih

end Sys2Proof.Machine
end

