-- ==== Sys2Proof/Laws/State.lean ====
section
/-! SUPPORT. What each plain update of State leaves as it was: one lemma for each field and update, and what it changes. -/

namespace Sys2Proof.Machine

variable (s : State)

/-! ### setReg -/

@[simp] theorem State.setReg_pending (a : Nat) (v : DWord) : (s.setReg a v).pending = s.pending := by cases s; rfl
@[simp] theorem State.setReg_out (a : Nat) (v : DWord) : (s.setReg a v).out = s.out := by cases s; rfl
@[simp] theorem State.setReg_freeCtr (a : Nat) (v : DWord) : (s.setReg a v).freeCtr = s.freeCtr := by cases s; rfl
@[simp] theorem State.setReg_time (a : Nat) (v : DWord) : (s.setReg a v).time = s.time := by cases s; rfl
@[simp] theorem State.setReg_servo (a : Nat) (v : DWord) : (s.setReg a v).servo = s.servo := by cases s; rfl
@[simp] theorem State.setReg_banks (a : Nat) (v : DWord) : (s.setReg a v).banks = s.banks := by cases s; rfl
@[simp] theorem State.setReg_cores (a : Nat) (v : DWord) : (s.setReg a v).cores = s.cores := by cases s; rfl
@[simp] theorem State.setReg_cmp (a : Nat) (v : DWord) : (s.setReg a v).cmp = s.cmp := by cases s; rfl
@[simp] theorem State.setReg_img (a : Nat) (v : DWord) : (s.setReg a v).img = s.img := by cases s; rfl
@[simp] theorem State.setReg_eng (a : Nat) (v : DWord) : (s.setReg a v).eng = s.eng := by cases s; rfl
@[simp] theorem State.setReg_chains (a : Nat) (v : DWord) : (s.setReg a v).chains = s.chains := by cases s; rfl
@[simp] theorem State.setReg_coef (a : Nat) (v : DWord) : (s.setReg a v).coef = s.coef := by cases s; rfl
@[simp] theorem State.setReg_coefPoison (a : Nat) (v : DWord) : (s.setReg a v).coefPoison = s.coefPoison := by cases s; rfl
@[simp] theorem State.setReg_noc (a : Nat) (v : DWord) : (s.setReg a v).noc = s.noc := by cases s; rfl
@[simp] theorem State.setReg_dma (a : Nat) (v : DWord) : (s.setReg a v).dma = s.dma := by cases s; rfl
@[simp] theorem State.setReg_fh (a : Nat) (v : DWord) : (s.setReg a v).fh = s.fh := by cases s; rfl
@[simp] theorem State.setReg_host (a : Nat) (v : DWord) : (s.setReg a v).host = s.host := by cases s; rfl
@[simp] theorem State.setReg_pwr (a : Nat) (v : DWord) : (s.setReg a v).pwr = s.pwr := by cases s; rfl
@[simp] theorem State.setReg_nvm (a : Nat) (v : DWord) : (s.setReg a v).nvm = s.nvm := by cases s; rfl
@[simp] theorem State.setReg_plb (a : Nat) (v : DWord) : (s.setReg a v).plb = s.plb := by cases s; rfl
@[simp] theorem State.setReg_jtag (a : Nat) (v : DWord) : (s.setReg a v).jtag = s.jtag := by cases s; rfl
@[simp] theorem State.setReg_pins (a : Nat) (v : DWord) : (s.setReg a v).pins = s.pins := by cases s; rfl

/-! ### fset -/

@[simp] theorem State.fset_pending (a : Nat) (f : Fld) (x : Nat) : (s.fset a f x).pending = s.pending := by cases s; rfl
@[simp] theorem State.fset_out (a : Nat) (f : Fld) (x : Nat) : (s.fset a f x).out = s.out := by cases s; rfl
@[simp] theorem State.fset_freeCtr (a : Nat) (f : Fld) (x : Nat) : (s.fset a f x).freeCtr = s.freeCtr := by cases s; rfl
@[simp] theorem State.fset_time (a : Nat) (f : Fld) (x : Nat) : (s.fset a f x).time = s.time := by cases s; rfl
@[simp] theorem State.fset_servo (a : Nat) (f : Fld) (x : Nat) : (s.fset a f x).servo = s.servo := by cases s; rfl
@[simp] theorem State.fset_banks (a : Nat) (f : Fld) (x : Nat) : (s.fset a f x).banks = s.banks := by cases s; rfl
@[simp] theorem State.fset_cores (a : Nat) (f : Fld) (x : Nat) : (s.fset a f x).cores = s.cores := by cases s; rfl
@[simp] theorem State.fset_cmp (a : Nat) (f : Fld) (x : Nat) : (s.fset a f x).cmp = s.cmp := by cases s; rfl
@[simp] theorem State.fset_img (a : Nat) (f : Fld) (x : Nat) : (s.fset a f x).img = s.img := by cases s; rfl
@[simp] theorem State.fset_eng (a : Nat) (f : Fld) (x : Nat) : (s.fset a f x).eng = s.eng := by cases s; rfl
@[simp] theorem State.fset_chains (a : Nat) (f : Fld) (x : Nat) : (s.fset a f x).chains = s.chains := by cases s; rfl
@[simp] theorem State.fset_coef (a : Nat) (f : Fld) (x : Nat) : (s.fset a f x).coef = s.coef := by cases s; rfl
@[simp] theorem State.fset_coefPoison (a : Nat) (f : Fld) (x : Nat) : (s.fset a f x).coefPoison = s.coefPoison := by cases s; rfl
@[simp] theorem State.fset_noc (a : Nat) (f : Fld) (x : Nat) : (s.fset a f x).noc = s.noc := by cases s; rfl
@[simp] theorem State.fset_dma (a : Nat) (f : Fld) (x : Nat) : (s.fset a f x).dma = s.dma := by cases s; rfl
@[simp] theorem State.fset_fh (a : Nat) (f : Fld) (x : Nat) : (s.fset a f x).fh = s.fh := by cases s; rfl
@[simp] theorem State.fset_host (a : Nat) (f : Fld) (x : Nat) : (s.fset a f x).host = s.host := by cases s; rfl
@[simp] theorem State.fset_pwr (a : Nat) (f : Fld) (x : Nat) : (s.fset a f x).pwr = s.pwr := by cases s; rfl
@[simp] theorem State.fset_nvm (a : Nat) (f : Fld) (x : Nat) : (s.fset a f x).nvm = s.nvm := by cases s; rfl
@[simp] theorem State.fset_plb (a : Nat) (f : Fld) (x : Nat) : (s.fset a f x).plb = s.plb := by cases s; rfl
@[simp] theorem State.fset_jtag (a : Nat) (f : Fld) (x : Nat) : (s.fset a f x).jtag = s.jtag := by cases s; rfl
@[simp] theorem State.fset_pins (a : Nat) (f : Fld) (x : Nat) : (s.fset a f x).pins = s.pins := by cases s; rfl

/-! ### countBy -/

@[simp] theorem State.countBy_pending (a n : Nat) : (s.countBy a n).pending = s.pending := by cases s; rfl
@[simp] theorem State.countBy_out (a n : Nat) : (s.countBy a n).out = s.out := by cases s; rfl
@[simp] theorem State.countBy_freeCtr (a n : Nat) : (s.countBy a n).freeCtr = s.freeCtr := by cases s; rfl
@[simp] theorem State.countBy_time (a n : Nat) : (s.countBy a n).time = s.time := by cases s; rfl
@[simp] theorem State.countBy_servo (a n : Nat) : (s.countBy a n).servo = s.servo := by cases s; rfl
@[simp] theorem State.countBy_banks (a n : Nat) : (s.countBy a n).banks = s.banks := by cases s; rfl
@[simp] theorem State.countBy_cores (a n : Nat) : (s.countBy a n).cores = s.cores := by cases s; rfl
@[simp] theorem State.countBy_cmp (a n : Nat) : (s.countBy a n).cmp = s.cmp := by cases s; rfl
@[simp] theorem State.countBy_img (a n : Nat) : (s.countBy a n).img = s.img := by cases s; rfl
@[simp] theorem State.countBy_eng (a n : Nat) : (s.countBy a n).eng = s.eng := by cases s; rfl
@[simp] theorem State.countBy_chains (a n : Nat) : (s.countBy a n).chains = s.chains := by cases s; rfl
@[simp] theorem State.countBy_coef (a n : Nat) : (s.countBy a n).coef = s.coef := by cases s; rfl
@[simp] theorem State.countBy_coefPoison (a n : Nat) : (s.countBy a n).coefPoison = s.coefPoison := by cases s; rfl
@[simp] theorem State.countBy_noc (a n : Nat) : (s.countBy a n).noc = s.noc := by cases s; rfl
@[simp] theorem State.countBy_dma (a n : Nat) : (s.countBy a n).dma = s.dma := by cases s; rfl
@[simp] theorem State.countBy_fh (a n : Nat) : (s.countBy a n).fh = s.fh := by cases s; rfl
@[simp] theorem State.countBy_host (a n : Nat) : (s.countBy a n).host = s.host := by cases s; rfl
@[simp] theorem State.countBy_pwr (a n : Nat) : (s.countBy a n).pwr = s.pwr := by cases s; rfl
@[simp] theorem State.countBy_nvm (a n : Nat) : (s.countBy a n).nvm = s.nvm := by cases s; rfl
@[simp] theorem State.countBy_plb (a n : Nat) : (s.countBy a n).plb = s.plb := by cases s; rfl
@[simp] theorem State.countBy_jtag (a n : Nat) : (s.countBy a n).jtag = s.jtag := by cases s; rfl
@[simp] theorem State.countBy_pins (a n : Nat) : (s.countBy a n).pins = s.pins := by cases s; rfl

/-! ### count -/

@[simp] theorem State.count_pending (a : Nat) : (s.count a).pending = s.pending := by cases s; rfl
@[simp] theorem State.count_out (a : Nat) : (s.count a).out = s.out := by cases s; rfl
@[simp] theorem State.count_freeCtr (a : Nat) : (s.count a).freeCtr = s.freeCtr := by cases s; rfl
@[simp] theorem State.count_time (a : Nat) : (s.count a).time = s.time := by cases s; rfl
@[simp] theorem State.count_servo (a : Nat) : (s.count a).servo = s.servo := by cases s; rfl
@[simp] theorem State.count_banks (a : Nat) : (s.count a).banks = s.banks := by cases s; rfl
@[simp] theorem State.count_cores (a : Nat) : (s.count a).cores = s.cores := by cases s; rfl
@[simp] theorem State.count_cmp (a : Nat) : (s.count a).cmp = s.cmp := by cases s; rfl
@[simp] theorem State.count_img (a : Nat) : (s.count a).img = s.img := by cases s; rfl
@[simp] theorem State.count_eng (a : Nat) : (s.count a).eng = s.eng := by cases s; rfl
@[simp] theorem State.count_chains (a : Nat) : (s.count a).chains = s.chains := by cases s; rfl
@[simp] theorem State.count_coef (a : Nat) : (s.count a).coef = s.coef := by cases s; rfl
@[simp] theorem State.count_coefPoison (a : Nat) : (s.count a).coefPoison = s.coefPoison := by cases s; rfl
@[simp] theorem State.count_noc (a : Nat) : (s.count a).noc = s.noc := by cases s; rfl
@[simp] theorem State.count_dma (a : Nat) : (s.count a).dma = s.dma := by cases s; rfl
@[simp] theorem State.count_fh (a : Nat) : (s.count a).fh = s.fh := by cases s; rfl
@[simp] theorem State.count_host (a : Nat) : (s.count a).host = s.host := by cases s; rfl
@[simp] theorem State.count_pwr (a : Nat) : (s.count a).pwr = s.pwr := by cases s; rfl
@[simp] theorem State.count_nvm (a : Nat) : (s.count a).nvm = s.nvm := by cases s; rfl
@[simp] theorem State.count_plb (a : Nat) : (s.count a).plb = s.plb := by cases s; rfl
@[simp] theorem State.count_jtag (a : Nat) : (s.count a).jtag = s.jtag := by cases s; rfl
@[simp] theorem State.count_pins (a : Nat) : (s.count a).pins = s.pins := by cases s; rfl

/-! ### emit -/

@[simp] theorem State.emit_pending (o : Output) : (s.emit o).pending = s.pending := by cases s; rfl
@[simp] theorem State.emit_freeCtr (o : Output) : (s.emit o).freeCtr = s.freeCtr := by cases s; rfl
@[simp] theorem State.emit_regs (o : Output) : (s.emit o).regs = s.regs := by cases s; rfl
@[simp] theorem State.emit_time (o : Output) : (s.emit o).time = s.time := by cases s; rfl
@[simp] theorem State.emit_servo (o : Output) : (s.emit o).servo = s.servo := by cases s; rfl
@[simp] theorem State.emit_banks (o : Output) : (s.emit o).banks = s.banks := by cases s; rfl
@[simp] theorem State.emit_cores (o : Output) : (s.emit o).cores = s.cores := by cases s; rfl
@[simp] theorem State.emit_cmp (o : Output) : (s.emit o).cmp = s.cmp := by cases s; rfl
@[simp] theorem State.emit_img (o : Output) : (s.emit o).img = s.img := by cases s; rfl
@[simp] theorem State.emit_eng (o : Output) : (s.emit o).eng = s.eng := by cases s; rfl
@[simp] theorem State.emit_chains (o : Output) : (s.emit o).chains = s.chains := by cases s; rfl
@[simp] theorem State.emit_coef (o : Output) : (s.emit o).coef = s.coef := by cases s; rfl
@[simp] theorem State.emit_coefPoison (o : Output) : (s.emit o).coefPoison = s.coefPoison := by cases s; rfl
@[simp] theorem State.emit_noc (o : Output) : (s.emit o).noc = s.noc := by cases s; rfl
@[simp] theorem State.emit_dma (o : Output) : (s.emit o).dma = s.dma := by cases s; rfl
@[simp] theorem State.emit_fh (o : Output) : (s.emit o).fh = s.fh := by cases s; rfl
@[simp] theorem State.emit_host (o : Output) : (s.emit o).host = s.host := by cases s; rfl
@[simp] theorem State.emit_pwr (o : Output) : (s.emit o).pwr = s.pwr := by cases s; rfl
@[simp] theorem State.emit_nvm (o : Output) : (s.emit o).nvm = s.nvm := by cases s; rfl
@[simp] theorem State.emit_plb (o : Output) : (s.emit o).plb = s.plb := by cases s; rfl
@[simp] theorem State.emit_jtag (o : Output) : (s.emit o).jtag = s.jtag := by cases s; rfl
@[simp] theorem State.emit_pins (o : Output) : (s.emit o).pins = s.pins := by cases s; rfl

/-! ### setCore -/

@[simp] theorem State.setCore_pending (k : Nat) (c : Core) : (s.setCore k c).pending = s.pending := by cases s; rfl
@[simp] theorem State.setCore_out (k : Nat) (c : Core) : (s.setCore k c).out = s.out := by cases s; rfl
@[simp] theorem State.setCore_freeCtr (k : Nat) (c : Core) : (s.setCore k c).freeCtr = s.freeCtr := by cases s; rfl
@[simp] theorem State.setCore_regs (k : Nat) (c : Core) : (s.setCore k c).regs = s.regs := by cases s; rfl
@[simp] theorem State.setCore_time (k : Nat) (c : Core) : (s.setCore k c).time = s.time := by cases s; rfl
@[simp] theorem State.setCore_servo (k : Nat) (c : Core) : (s.setCore k c).servo = s.servo := by cases s; rfl
@[simp] theorem State.setCore_banks (k : Nat) (c : Core) : (s.setCore k c).banks = s.banks := by cases s; rfl
@[simp] theorem State.setCore_cmp (k : Nat) (c : Core) : (s.setCore k c).cmp = s.cmp := by cases s; rfl
@[simp] theorem State.setCore_img (k : Nat) (c : Core) : (s.setCore k c).img = s.img := by cases s; rfl
@[simp] theorem State.setCore_eng (k : Nat) (c : Core) : (s.setCore k c).eng = s.eng := by cases s; rfl
@[simp] theorem State.setCore_chains (k : Nat) (c : Core) : (s.setCore k c).chains = s.chains := by cases s; rfl
@[simp] theorem State.setCore_coef (k : Nat) (c : Core) : (s.setCore k c).coef = s.coef := by cases s; rfl
@[simp] theorem State.setCore_coefPoison (k : Nat) (c : Core) : (s.setCore k c).coefPoison = s.coefPoison := by cases s; rfl
@[simp] theorem State.setCore_noc (k : Nat) (c : Core) : (s.setCore k c).noc = s.noc := by cases s; rfl
@[simp] theorem State.setCore_dma (k : Nat) (c : Core) : (s.setCore k c).dma = s.dma := by cases s; rfl
@[simp] theorem State.setCore_fh (k : Nat) (c : Core) : (s.setCore k c).fh = s.fh := by cases s; rfl
@[simp] theorem State.setCore_host (k : Nat) (c : Core) : (s.setCore k c).host = s.host := by cases s; rfl
@[simp] theorem State.setCore_pwr (k : Nat) (c : Core) : (s.setCore k c).pwr = s.pwr := by cases s; rfl
@[simp] theorem State.setCore_nvm (k : Nat) (c : Core) : (s.setCore k c).nvm = s.nvm := by cases s; rfl
@[simp] theorem State.setCore_plb (k : Nat) (c : Core) : (s.setCore k c).plb = s.plb := by cases s; rfl
@[simp] theorem State.setCore_jtag (k : Nat) (c : Core) : (s.setCore k c).jtag = s.jtag := by cases s; rfl
@[simp] theorem State.setCore_pins (k : Nat) (c : Core) : (s.setCore k c).pins = s.pins := by cases s; rfl

/-! ### modCore -/

@[simp] theorem State.modCore_pending (k : Nat) (f : Core → Core) : (s.modCore k f).pending = s.pending := by cases s; rfl
@[simp] theorem State.modCore_out (k : Nat) (f : Core → Core) : (s.modCore k f).out = s.out := by cases s; rfl
@[simp] theorem State.modCore_freeCtr (k : Nat) (f : Core → Core) : (s.modCore k f).freeCtr = s.freeCtr := by cases s; rfl
@[simp] theorem State.modCore_regs (k : Nat) (f : Core → Core) : (s.modCore k f).regs = s.regs := by cases s; rfl
@[simp] theorem State.modCore_time (k : Nat) (f : Core → Core) : (s.modCore k f).time = s.time := by cases s; rfl
@[simp] theorem State.modCore_servo (k : Nat) (f : Core → Core) : (s.modCore k f).servo = s.servo := by cases s; rfl
@[simp] theorem State.modCore_banks (k : Nat) (f : Core → Core) : (s.modCore k f).banks = s.banks := by cases s; rfl
@[simp] theorem State.modCore_cmp (k : Nat) (f : Core → Core) : (s.modCore k f).cmp = s.cmp := by cases s; rfl
@[simp] theorem State.modCore_img (k : Nat) (f : Core → Core) : (s.modCore k f).img = s.img := by cases s; rfl
@[simp] theorem State.modCore_eng (k : Nat) (f : Core → Core) : (s.modCore k f).eng = s.eng := by cases s; rfl
@[simp] theorem State.modCore_chains (k : Nat) (f : Core → Core) : (s.modCore k f).chains = s.chains := by cases s; rfl
@[simp] theorem State.modCore_coef (k : Nat) (f : Core → Core) : (s.modCore k f).coef = s.coef := by cases s; rfl
@[simp] theorem State.modCore_coefPoison (k : Nat) (f : Core → Core) : (s.modCore k f).coefPoison = s.coefPoison := by cases s; rfl
@[simp] theorem State.modCore_noc (k : Nat) (f : Core → Core) : (s.modCore k f).noc = s.noc := by cases s; rfl
@[simp] theorem State.modCore_dma (k : Nat) (f : Core → Core) : (s.modCore k f).dma = s.dma := by cases s; rfl
@[simp] theorem State.modCore_fh (k : Nat) (f : Core → Core) : (s.modCore k f).fh = s.fh := by cases s; rfl
@[simp] theorem State.modCore_host (k : Nat) (f : Core → Core) : (s.modCore k f).host = s.host := by cases s; rfl
@[simp] theorem State.modCore_pwr (k : Nat) (f : Core → Core) : (s.modCore k f).pwr = s.pwr := by cases s; rfl
@[simp] theorem State.modCore_nvm (k : Nat) (f : Core → Core) : (s.modCore k f).nvm = s.nvm := by cases s; rfl
@[simp] theorem State.modCore_plb (k : Nat) (f : Core → Core) : (s.modCore k f).plb = s.plb := by cases s; rfl
@[simp] theorem State.modCore_jtag (k : Nat) (f : Core → Core) : (s.modCore k f).jtag = s.jtag := by cases s; rfl
@[simp] theorem State.modCore_pins (k : Nat) (f : Core → Core) : (s.modCore k f).pins = s.pins := by cases s; rfl

/-! ### setG -/

@[simp] theorem State.setG_pending (k r : Nat) (v : Word) (p : Bool) : (s.setG k r v p).pending = s.pending := by cases s; rfl
@[simp] theorem State.setG_out (k r : Nat) (v : Word) (p : Bool) : (s.setG k r v p).out = s.out := by cases s; rfl
@[simp] theorem State.setG_freeCtr (k r : Nat) (v : Word) (p : Bool) : (s.setG k r v p).freeCtr = s.freeCtr := by cases s; rfl
@[simp] theorem State.setG_regs (k r : Nat) (v : Word) (p : Bool) : (s.setG k r v p).regs = s.regs := by cases s; rfl
@[simp] theorem State.setG_time (k r : Nat) (v : Word) (p : Bool) : (s.setG k r v p).time = s.time := by cases s; rfl
@[simp] theorem State.setG_servo (k r : Nat) (v : Word) (p : Bool) : (s.setG k r v p).servo = s.servo := by cases s; rfl
@[simp] theorem State.setG_banks (k r : Nat) (v : Word) (p : Bool) : (s.setG k r v p).banks = s.banks := by cases s; rfl
@[simp] theorem State.setG_cmp (k r : Nat) (v : Word) (p : Bool) : (s.setG k r v p).cmp = s.cmp := by cases s; rfl
@[simp] theorem State.setG_img (k r : Nat) (v : Word) (p : Bool) : (s.setG k r v p).img = s.img := by cases s; rfl
@[simp] theorem State.setG_eng (k r : Nat) (v : Word) (p : Bool) : (s.setG k r v p).eng = s.eng := by cases s; rfl
@[simp] theorem State.setG_chains (k r : Nat) (v : Word) (p : Bool) : (s.setG k r v p).chains = s.chains := by cases s; rfl
@[simp] theorem State.setG_coef (k r : Nat) (v : Word) (p : Bool) : (s.setG k r v p).coef = s.coef := by cases s; rfl
@[simp] theorem State.setG_coefPoison (k r : Nat) (v : Word) (p : Bool) : (s.setG k r v p).coefPoison = s.coefPoison := by cases s; rfl
@[simp] theorem State.setG_noc (k r : Nat) (v : Word) (p : Bool) : (s.setG k r v p).noc = s.noc := by cases s; rfl
@[simp] theorem State.setG_dma (k r : Nat) (v : Word) (p : Bool) : (s.setG k r v p).dma = s.dma := by cases s; rfl
@[simp] theorem State.setG_fh (k r : Nat) (v : Word) (p : Bool) : (s.setG k r v p).fh = s.fh := by cases s; rfl
@[simp] theorem State.setG_host (k r : Nat) (v : Word) (p : Bool) : (s.setG k r v p).host = s.host := by cases s; rfl
@[simp] theorem State.setG_pwr (k r : Nat) (v : Word) (p : Bool) : (s.setG k r v p).pwr = s.pwr := by cases s; rfl
@[simp] theorem State.setG_nvm (k r : Nat) (v : Word) (p : Bool) : (s.setG k r v p).nvm = s.nvm := by cases s; rfl
@[simp] theorem State.setG_plb (k r : Nat) (v : Word) (p : Bool) : (s.setG k r v p).plb = s.plb := by cases s; rfl
@[simp] theorem State.setG_jtag (k r : Nat) (v : Word) (p : Bool) : (s.setG k r v p).jtag = s.jtag := by cases s; rfl
@[simp] theorem State.setG_pins (k r : Nat) (v : Word) (p : Bool) : (s.setG k r v p).pins = s.pins := by cases s; rfl

/-! ### setNoc -/

@[simp] theorem State.setNoc_pending (n : Noc) : (s.setNoc n).pending = s.pending := by cases s; rfl
@[simp] theorem State.setNoc_out (n : Noc) : (s.setNoc n).out = s.out := by cases s; rfl
@[simp] theorem State.setNoc_freeCtr (n : Noc) : (s.setNoc n).freeCtr = s.freeCtr := by cases s; rfl
@[simp] theorem State.setNoc_regs (n : Noc) : (s.setNoc n).regs = s.regs := by cases s; rfl
@[simp] theorem State.setNoc_time (n : Noc) : (s.setNoc n).time = s.time := by cases s; rfl
@[simp] theorem State.setNoc_servo (n : Noc) : (s.setNoc n).servo = s.servo := by cases s; rfl
@[simp] theorem State.setNoc_banks (n : Noc) : (s.setNoc n).banks = s.banks := by cases s; rfl
@[simp] theorem State.setNoc_cores (n : Noc) : (s.setNoc n).cores = s.cores := by cases s; rfl
@[simp] theorem State.setNoc_cmp (n : Noc) : (s.setNoc n).cmp = s.cmp := by cases s; rfl
@[simp] theorem State.setNoc_img (n : Noc) : (s.setNoc n).img = s.img := by cases s; rfl
@[simp] theorem State.setNoc_eng (n : Noc) : (s.setNoc n).eng = s.eng := by cases s; rfl
@[simp] theorem State.setNoc_chains (n : Noc) : (s.setNoc n).chains = s.chains := by cases s; rfl
@[simp] theorem State.setNoc_coef (n : Noc) : (s.setNoc n).coef = s.coef := by cases s; rfl
@[simp] theorem State.setNoc_coefPoison (n : Noc) : (s.setNoc n).coefPoison = s.coefPoison := by cases s; rfl
@[simp] theorem State.setNoc_dma (n : Noc) : (s.setNoc n).dma = s.dma := by cases s; rfl
@[simp] theorem State.setNoc_fh (n : Noc) : (s.setNoc n).fh = s.fh := by cases s; rfl
@[simp] theorem State.setNoc_host (n : Noc) : (s.setNoc n).host = s.host := by cases s; rfl
@[simp] theorem State.setNoc_pwr (n : Noc) : (s.setNoc n).pwr = s.pwr := by cases s; rfl
@[simp] theorem State.setNoc_nvm (n : Noc) : (s.setNoc n).nvm = s.nvm := by cases s; rfl
@[simp] theorem State.setNoc_plb (n : Noc) : (s.setNoc n).plb = s.plb := by cases s; rfl
@[simp] theorem State.setNoc_jtag (n : Noc) : (s.setNoc n).jtag = s.jtag := by cases s; rfl
@[simp] theorem State.setNoc_pins (n : Noc) : (s.setNoc n).pins = s.pins := by cases s; rfl

/-! ### setJtag -/

@[simp] theorem State.setJtag_pending (j : Jtag) : (s.setJtag j).pending = s.pending := by cases s; rfl
@[simp] theorem State.setJtag_out (j : Jtag) : (s.setJtag j).out = s.out := by cases s; rfl
@[simp] theorem State.setJtag_freeCtr (j : Jtag) : (s.setJtag j).freeCtr = s.freeCtr := by cases s; rfl
@[simp] theorem State.setJtag_regs (j : Jtag) : (s.setJtag j).regs = s.regs := by cases s; rfl
@[simp] theorem State.setJtag_time (j : Jtag) : (s.setJtag j).time = s.time := by cases s; rfl
@[simp] theorem State.setJtag_servo (j : Jtag) : (s.setJtag j).servo = s.servo := by cases s; rfl
@[simp] theorem State.setJtag_banks (j : Jtag) : (s.setJtag j).banks = s.banks := by cases s; rfl
@[simp] theorem State.setJtag_cores (j : Jtag) : (s.setJtag j).cores = s.cores := by cases s; rfl
@[simp] theorem State.setJtag_cmp (j : Jtag) : (s.setJtag j).cmp = s.cmp := by cases s; rfl
@[simp] theorem State.setJtag_img (j : Jtag) : (s.setJtag j).img = s.img := by cases s; rfl
@[simp] theorem State.setJtag_eng (j : Jtag) : (s.setJtag j).eng = s.eng := by cases s; rfl
@[simp] theorem State.setJtag_chains (j : Jtag) : (s.setJtag j).chains = s.chains := by cases s; rfl
@[simp] theorem State.setJtag_coef (j : Jtag) : (s.setJtag j).coef = s.coef := by cases s; rfl
@[simp] theorem State.setJtag_coefPoison (j : Jtag) : (s.setJtag j).coefPoison = s.coefPoison := by cases s; rfl
@[simp] theorem State.setJtag_noc (j : Jtag) : (s.setJtag j).noc = s.noc := by cases s; rfl
@[simp] theorem State.setJtag_dma (j : Jtag) : (s.setJtag j).dma = s.dma := by cases s; rfl
@[simp] theorem State.setJtag_fh (j : Jtag) : (s.setJtag j).fh = s.fh := by cases s; rfl
@[simp] theorem State.setJtag_host (j : Jtag) : (s.setJtag j).host = s.host := by cases s; rfl
@[simp] theorem State.setJtag_pwr (j : Jtag) : (s.setJtag j).pwr = s.pwr := by cases s; rfl
@[simp] theorem State.setJtag_nvm (j : Jtag) : (s.setJtag j).nvm = s.nvm := by cases s; rfl
@[simp] theorem State.setJtag_plb (j : Jtag) : (s.setJtag j).plb = s.plb := by cases s; rfl
@[simp] theorem State.setJtag_pins (j : Jtag) : (s.setJtag j).pins = s.pins := by cases s; rfl

/-! ### What the updates change -/

@[simp] theorem State.emit_out (o : Output) : (s.emit o).out = o :: s.out := rfl
@[simp] theorem State.setNoc_noc (n : Noc) : (s.setNoc n).noc = n := rfl
@[simp] theorem State.setJtag_jtag (j : Jtag) : (s.setJtag j).jtag = j := rfl

@[simp] theorem State.reg_setReg_self (a : Nat) (v : DWord) : (s.setReg a v).reg a = v := by
  simp [State.reg, State.setReg]

theorem State.reg_setReg_other {a b : Nat} (v : DWord) (h : b ≠ a) : (s.setReg a v).reg b = s.reg b :=
  SMap.get_set_other regDflt s.regs v h

/-- The registers alone decide what a register reads as. -/
theorem State.reg_congr {s t : State} (h : s.regs = t.regs) (a : Nat) : s.reg a = t.reg a := by
  simp [State.reg, h]

@[simp] theorem State.reg_emit (o : Output) (a : Nat) : (s.emit o).reg a = s.reg a := by cases s; rfl
@[simp] theorem State.reg_setCore (k : Nat) (c : Core) (a : Nat) : (s.setCore k c).reg a = s.reg a := by cases s; rfl
@[simp] theorem State.reg_modCore (k : Nat) (f : Core → Core) (a : Nat) : (s.modCore k f).reg a = s.reg a := by cases s; rfl
@[simp] theorem State.reg_setNoc (n : Noc) (a : Nat) : (s.setNoc n).reg a = s.reg a := by cases s; rfl
@[simp] theorem State.reg_setJtag (j : Jtag) (a : Nat) : (s.setJtag j).reg a = s.reg a := by cases s; rfl

@[simp] theorem State.core_setCore_self (k : Nat) (c : Core) : (s.setCore k c).core k = c := by
  simp [State.core, State.setCore]

theorem State.core_setCore_other {k j : Nat} (c : Core) (h : j ≠ k) : (s.setCore k c).core j = s.core j :=
  SMap.get_set_other (fun _ => Core.init) s.cores c h

@[simp] theorem State.core_modCore_self (k : Nat) (f : Core → Core) : (s.modCore k f).core k = f (s.core k) := by
  simp [State.modCore]

theorem State.core_modCore_other {k j : Nat} (f : Core → Core) (h : j ≠ k) : (s.modCore k f).core j = s.core j :=
  State.core_setCore_other s (f (s.core k)) h

@[simp] theorem State.core_setReg (a : Nat) (v : DWord) (k : Nat) : (s.setReg a v).core k = s.core k := by cases s; rfl
@[simp] theorem State.core_fset (a : Nat) (f : Fld) (x : Nat) (k : Nat) : (s.fset a f x).core k = s.core k := by cases s; rfl
@[simp] theorem State.core_countBy (a n k : Nat) : (s.countBy a n).core k = s.core k := by cases s; rfl
@[simp] theorem State.core_count (a k : Nat) : (s.count a).core k = s.core k := by cases s; rfl
@[simp] theorem State.core_emit (o : Output) (k : Nat) : (s.emit o).core k = s.core k := by cases s; rfl

@[simp] theorem State.fget_fset_reg {a b : Nat} (f g : Fld) (x : Nat) (h : b ≠ a) : (s.fset a f x).fget b g = s.fget b g := by
  simp [State.fget, State.fset, State.reg_setReg_other s _ h]

/-- A counter that has not saturated rises. -/
theorem State.reg_countBy_self (a n : Nat) :
    (s.countBy a n).reg a = BitVec.ofNat 64 (min ((s.reg a).toNat + n) 0xFFFFFFFF) := by
  simp [State.countBy]

theorem State.reg_countBy_other {a b : Nat} (n : Nat) (h : b ≠ a) : (s.countBy a n).reg b = s.reg b :=
  State.reg_setReg_other s _ h

/-! ### The end of a command -/

/-- With no doubt raised the end of a command changes nothing. -/
@[simp] theorem State.settle_of_settled {s : State} (h : s.plb.raised = []) : s.settle = s := by
  simp [State.settle, h]

theorem State.done_of_settled {s : State} (h : s.plb.raised = []) : s.done = .next s := by
  simp [State.done, State.settle_of_settled h]

/-! ### The canonical form of the registers -/

theorem State.setReg_wf (a : Nat) (v : DWord) (h : SMap.wf regDflt s.regs = true) :
    SMap.wf regDflt (s.setReg a v).regs = true := SMap.wf_set regDflt s.regs a v h

theorem State.fset_wf (a : Nat) (f : Fld) (x : Nat) (h : SMap.wf regDflt s.regs = true) :
    SMap.wf regDflt (s.fset a f x).regs = true := State.setReg_wf s a _ h

theorem State.countBy_wf (a n : Nat) (h : SMap.wf regDflt s.regs = true) :
    SMap.wf regDflt (s.countBy a n).regs = true := State.setReg_wf s a _ h

end Sys2Proof.Machine
end

