-- ==== Sys2Proof/Laws/Memory.lean ====
section
/-! SUPPORT. Laws of the banks: reads after writes of bytes and words, and that every memory operation keeps the canonical
form. -/

namespace Sys2Proof.Machine

/-! ### Bytes and words -/

theorem Banks.wf_iff (b : Banks) : b.wf = true ↔
    SMap.wf noByte b.bytes = true ∧ SMap.wf noFlag b.poison = true ∧ SMap.wf noFlips b.flips = true := by
  simp [Banks.wf, and_assoc]

/-- The canonical form looks at the bytes, the poison and the flips alone. -/
theorem Banks.wf_congr {b c : Banks} (h1 : c.bytes = b.bytes) (h2 : c.poison = b.poison) (h3 : c.flips = b.flips)
    (h : b.wf = true) : c.wf = true := by
  simpa [Banks.wf, h1, h2, h3] using h

theorem Banks.reset_wf : Banks.reset.wf = true := rfl

theorem Banks.setByte_wf (b : Banks) (a : Nat) (v : Byte) (h : b.wf = true) : (b.setByte a v).wf = true := by
  rw [Banks.wf_iff] at *
  exact ⟨SMap.wf_set noByte b.bytes a v h.1, h.2.1, h.2.2⟩

theorem Banks.setPoison_wf (b : Banks) (w : Nat) (p : Bool) (h : b.wf = true) : (b.setPoison w p).wf = true := by
  rw [Banks.wf_iff] at *
  exact ⟨h.1, SMap.wf_set noFlag b.poison w p h.2.1, h.2.2⟩

theorem Banks.setFlips_wf (b : Banks) (w : Nat) (f : BitVec 80) (h : b.wf = true) : (b.setFlips w f).wf = true := by
  rw [Banks.wf_iff] at *
  exact ⟨h.1, h.2.1, SMap.wf_set noFlips b.flips w f h.2.2⟩

theorem foldl_keeps {α β : Type} (P : β → Prop) (f : β → α → β) (hf : ∀ b a, P b → P (f b a)) (l : List α) :
    ∀ b, P b → P (l.foldl f b) := by
  induction l with
  | nil => exact fun _ h => h
  | cons a l ih => exact fun b h => ih (f b a) (hf b a h)

theorem Banks.setWord_wf (b : Banks) (w : Nat) (v : DWord) (h : b.wf = true) : (b.setWord w v).wf = true :=
  foldl_keeps (fun b : Banks => b.wf = true) _ (fun b k hb => Banks.setByte_wf b (8 * w + k) _ hb) (List.range 8) b h

theorem State.putWord_wf (s : State) (w : Nat) (v : DWord) (p : Bool) (h : s.banks.wf = true) :
    (s.putWord w v p).banks.wf = true :=
  Banks.setFlips_wf _ w 0 (Banks.setPoison_wf _ w p (Banks.setWord_wf _ w v h))

theorem State.initBank_wf (s : State) (key : Nat) (h : s.banks.wf = true) : (s.initBank key).banks.wf = true := by
  rw [Banks.wf_iff] at *
  exact ⟨SMap.wf_clearRange _ _ _ _ h.1, SMap.wf_clearRange _ _ _ _ h.2.1, SMap.wf_clearRange _ _ _ _ h.2.2⟩

/-! ### What a stored word reads as -/

theorem Banks.setBytes_get (b : Banks) (w v n a : Nat) :
    SMap.get noByte ((List.range n).foldl (fun b k => b.setByte (8 * w + k) (BitVec.ofNat 8 (v / 256 ^ k))) b).bytes a
      = if 8 * w ≤ a ∧ a < 8 * w + n then BitVec.ofNat 8 (v / 256 ^ (a - 8 * w)) else SMap.get noByte b.bytes a := by
  induction n with
  | zero =>
    rw [if_neg (by omega)]
    rfl
  | succ n ih =>
    rw [List.range_succ, List.foldl_append]
    simp only [List.foldl_cons, List.foldl_nil, Banks.setByte, SMap.get_set]
    by_cases h : a = 8 * w + n
    · have h2 : 8 * w ≤ a ∧ a < 8 * w + (n + 1) := by omega
      have h3 : a - 8 * w = n := by omega
      rw [if_pos h, if_pos h2, h3]
    · rw [if_neg h]
      refine Eq.trans ih ?_
      by_cases h2 : 8 * w ≤ a ∧ a < 8 * w + n
      · have h3 : 8 * w ≤ a ∧ a < 8 * w + (n + 1) := by omega
        rw [if_pos h2, if_pos h3]
      · have h3 : ¬ (8 * w ≤ a ∧ a < 8 * w + (n + 1)) := by omega
        rw [if_neg h2, if_neg h3]

/-- A byte after a word is stored: the word's byte, or what it was. -/
theorem State.byte_putWord (s : State) (w : Nat) (v : DWord) (p : Bool) (a : Nat) :
    (s.putWord w v p).byte a = if a / 8 = w then BitVec.ofNat 8 (v.toNat / 256 ^ (a % 8)) else s.byte a := by
  have h := Banks.setBytes_get s.banks w v.toNat 8 a
  have e : (8 * w ≤ a ∧ a < 8 * w + 8) ↔ a / 8 = w := by omega
  have g : (s.putWord w v p).byte a = SMap.get noByte (s.banks.setWord w v).bytes a := rfl
  rw [g]
  refine h.trans ?_
  by_cases hw : a / 8 = w
  · have : a - 8 * w = a % 8 := by omega
    rw [if_pos (e.mpr hw), if_pos hw, this]
  · rw [if_neg (fun x => hw (e.mp x)), if_neg hw]
    rfl

theorem State.poisoned_putWord (s : State) (w j : Nat) (v : DWord) (p : Bool) :
    (s.putWord w v p).poisoned j = if j = w then p else s.poisoned j := by
  have h : (s.banks.setWord w v).poison = s.banks.poison :=
    foldl_keeps (fun b : Banks => b.poison = s.banks.poison) _ (fun b k hb => hb) (List.range 8) s.banks rfl
  have g : (s.putWord w v p).poisoned j = SMap.get noFlag (SMap.set noFlag (s.banks.setWord w v).poison w p) j := rfl
  rw [g, h, SMap.get_set]
  rfl

/-! ### Events and counters leave the banks alone -/

@[simp] theorem State.countIf_banks (s : State) (b : Bool) (a : Nat) : (s.countIf b a).banks = s.banks := by
  cases b <;> rfl

@[simp] theorem State.sendMsix_banks (s : State) (v : Nat) : (s.sendMsix v).banks = s.banks := by
  unfold State.sendMsix
  repeat' split
  all_goals rfl

@[simp] theorem State.hostEvent_banks (s : State) (e : Nat) : (s.hostEvent e).banks = s.banks := by
  simp only [State.hostEvent]
  split
  · rfl
  · split
    · rw [State.sendMsix_banks]; rfl
    · rfl

@[simp] theorem State.doubt_banks (s : State) (d : Nat) : (s.doubt d).banks = s.banks := by cases s; rfl

/-! ### Reads -/

/-- What a read may change of the banks: the correction tracker and the scrubber's queue. -/
def Banks.sameData (b c : Banks) : Prop := c.bytes = b.bytes ∧ c.poison = b.poison ∧ c.flips = b.flips

theorem Banks.sameData_wf {b c : Banks} (h : b.sameData c) (hb : b.wf = true) : c.wf = true :=
  Banks.wf_congr h.1 h.2.1 h.2.2 hb

theorem Banks.sameData_rfl (b : Banks) : b.sameData b := ⟨rfl, rfl, rfl⟩

theorem Banks.sameData_of_eq {b c : Banks} (h : c = b) : b.sameData c := h ▸ Banks.sameData_rfl b

theorem Banks.sameData_trans {a b c : Banks} (h : a.sameData b) (g : b.sameData c) : a.sameData c :=
  ⟨g.1.trans h.1, g.2.1.trans h.2.1, g.2.2.trans h.2.2⟩

theorem State.setTrk_sameData (s : State) (c n : Nat) (e : Option TrkEntry) : s.banks.sameData (s.setTrk c n e).banks :=
  ⟨rfl, rfl, rfl⟩

theorem State.setScrub_sameData (s : State) (c : Nat) (x : Scrub) : s.banks.sameData (s.setScrub c x).banks := ⟨rfl, rfl, rfl⟩

theorem State.trkPlace_banks (s : State) (c : Nat) : (s.trkPlace c).2.banks = s.banks := by
  unfold State.trkPlace
  split
  · rfl
  · exact State.count_banks s _

theorem State.trackCorrection_sameData (s : State) (key w : Nat) : s.banks.sameData (s.trackCorrection key w).banks := by
  unfold State.trackCorrection
  dsimp only
  split
  · have h := State.setTrk_sameData (s.trkPlace (key / 256)).2 (key / 256) (s.trkPlace (key / 256)).1 (some ⟨w, 1, false⟩)
    rw [State.trkPlace_banks] at h
    exact h
  · rename_i n hn
    split
    · exact Banks.sameData_rfl _
    · split
      · refine Banks.sameData_trans (State.setTrk_sameData s (key / 256) n none) (Banks.sameData_of_eq ?_)
        rw [State.hostEvent_banks]
        split <;> simp only [State.fset_banks, State.count_banks]
      · split
        · exact State.setTrk_sameData s _ _ _
        · split
          · exact State.setTrk_sameData s _ _ _
          · exact Banks.sameData_trans (State.setTrk_sameData s _ _ _) (State.setScrub_sameData _ _ _)

theorem State.noteCorrected_sameData (s : State) (key w : Nat) : s.banks.sameData (s.noteCorrected key w).banks := by
  have h := State.trackCorrection_sameData (s.count (Addr.memCeCnt (key / 256))) key w
  rw [State.count_banks] at h
  exact h

theorem State.noteUncorrectable_banks (s : State) (key w : Nat) (who : Ident) :
    (s.noteUncorrectable key w who).banks = s.banks := by
  unfold State.noteUncorrectable
  simp only [apply_ite State.banks, State.doubt_banks, State.hostEvent_banks, State.fset_banks, State.setReg_banks,
    State.count_banks, ite_self]

theorem State.readWord_sameData (s : State) (key w : Nat) (who : Ident) : s.banks.sameData (s.readWord key w who).2.banks := by
  unfold State.readWord
  split
  · exact Banks.sameData_rfl _
  · split
    · exact Banks.sameData_rfl _
    · exact State.noteCorrected_sameData s key w
    · exact Banks.sameData_of_eq (State.noteUncorrectable_banks s key w who)
    · dsimp only [State.freeBelow, State.free]
      by_cases h0 : Config.freeNat s.freeCtr % 3 = 0
      · simp only [h0, if_true]
        exact Banks.sameData_rfl _
      · by_cases h1 : Config.freeNat s.freeCtr % 3 = 1
        · simp only [h1, if_true]
          exact State.noteCorrected_sameData { s with freeCtr := s.freeCtr + 1 + 1 } key w
        · simp only [h0, h1, if_false]
          exact Banks.sameData_of_eq (State.noteUncorrectable_banks { s with freeCtr := s.freeCtr + 1 } key w who)

/-- A write-back that waits for the word is dropped. -/
theorem State.dropWriteBack_sameData (s : State) (c w : Nat) :
    s.banks.sameData (if (s.scrub c).writeBacks.any fun p => p.1 == w then
      s.setScrub c { s.scrub c with writeBacks := (s.scrub c).writeBacks.filter fun p => p.1 != w } else s).banks := by
  split
  · exact State.setScrub_sameData _ _ _
  · exact Banks.sameData_rfl _

theorem State.noteWrite_sameData (s : State) (key w : Nat) : s.banks.sameData (s.noteWrite key w).banks := by
  unfold State.noteWrite
  cases h : s.trkFind (key / 256) w with
  | none => simpa only [h] using State.dropWriteBack_sameData s (key / 256) w
  | some n =>
    have := Banks.sameData_trans (State.setTrk_sameData s (key / 256) n none)
      (State.dropWriteBack_sameData (s.setTrk (key / 256) n none) (key / 256) w)
    simpa only [h] using this

/-! ### Every memory operation keeps the canonical form -/

theorem State.readWord_wf (s : State) (key w : Nat) (who : Ident) (h : s.banks.wf = true) :
    (s.readWord key w who).2.banks.wf = true := Banks.sameData_wf (State.readWord_sameData s key w who) h

theorem State.noteWrite_wf (s : State) (key w : Nat) (h : s.banks.wf = true) : (s.noteWrite key w).banks.wf = true :=
  Banks.sameData_wf (State.noteWrite_sameData s key w) h

theorem State.writeWord_wf (s : State) (key w : Nat) (who : Ident) (new : DWord) (mask : BitVec 8) (p : Bool)
    (h : s.banks.wf = true) : (s.writeWord key w who new mask p).banks.wf = true := by
  unfold State.writeWord
  split
  · exact h
  · dsimp only
    split
    · exact State.noteWrite_wf _ key w (State.putWord_wf s w new p h)
    · split
      · exact State.noteWrite_wf _ key w (Banks.setFlips_wf _ w _ (State.putWord_wf s w _ _ h))
      · exact State.noteWrite_wf _ key w (State.putWord_wf _ w _ _ (State.readWord_wf s key w who h))

theorem State.aliasWord_wf (s : State) (key w : Nat) (who : Ident) (set : Bool) (new : DWord) (mask : BitVec 8) (p : Bool)
    (h : s.banks.wf = true) : (s.aliasWord key w who set new mask p).banks.wf = true :=
  State.noteWrite_wf _ key w (State.putWord_wf _ w _ _ (State.readWord_wf s key w who h))

theorem State.writeMem_wf (s : State) (who : Ident) (a : Nat) (data : List (Byte × Bool)) (h : s.banks.wf = true) :
    (s.writeMem who a data).banks.wf = true := by
  refine foldl_keeps (fun s : State => s.banks.wf = true) _ (fun s w hs => ?_) (wordsOf a data.length) s h
  dsimp only
  split
  · exact hs
  · exact State.writeWord_wf s _ w who _ _ _ hs

theorem State.aliasMem_wf (s : State) (who : Ident) (set : Bool) (a : Nat) (data : List (Byte × Bool))
    (h : s.banks.wf = true) : (s.aliasMem who set a data).banks.wf = true := by
  refine foldl_keeps (fun s : State => s.banks.wf = true) _ (fun s w hs => ?_) (wordsOf a data.length) s h
  dsimp only
  split
  · exact hs
  · exact State.aliasWord_wf s _ w who set _ _ _ hs

theorem State.readMem_wf (s : State) (who : Ident) (a n : Nat) (h : s.banks.wf = true) :
    (s.readMem who a n).2.banks.wf = true := by
  refine foldl_keeps (fun x : List (Byte × Bool) × State => x.2.banks.wf = true) _ (fun x w hx => ?_) (wordsOf a n) ([], s) h
  dsimp only
  split
  · exact hx
  · exact State.readWord_wf x.2 _ w who hx

theorem State.completeHandover_wf (s : State) (key : Nat) (h : s.banks.wf = true) :
    (s.completeHandover key).banks.wf = true := by
  unfold State.completeHandover
  split
  · exact h
  · simp only [State.count_banks, State.fset_banks]
    split
    · exact Banks.wf_congr rfl rfl rfl (State.initBank_wf s key h)
    · exact Banks.wf_congr rfl rfl rfl h

theorem State.letIn_wf (s : State) (key : Nat) (ids : List Ident) (write : Bool) (h : s.banks.wf = true) :
    (s.letIn key ids write).2.banks.wf = true := by
  have ho : (s.noteOwnErr key ids write).banks = s.banks := by
    unfold State.noteOwnErr
    simp only [apply_ite State.banks, State.setReg_banks, State.count_banks, ite_self]
  unfold State.letIn
  split
  · exact h
  · split
    · split
      · exact State.completeHandover_wf s key h
      · exact h
    · exact Banks.wf_congr (congrArg _ ho) (congrArg _ ho) (congrArg _ ho) h

theorem State.admitRange_wf (s : State) (ids : List Ident) (write : Bool) (a n : Nat) (h : s.banks.wf = true) :
    (s.admitRange ids write a n).2.banks.wf = true := by
  refine foldl_keeps (fun x : Bool × State => x.2.banks.wf = true) _ (fun x b hx => ?_) (banksOf a n) (true, s) h
  split
  · exact hx
  · split
    · simpa only [State.errDecode, State.count_banks] using hx
    · exact State.letIn_wf x.2 _ ids write hx

theorem State.readBank_wf (s : State) (ids : List Ident) (a n : Nat) (h : s.banks.wf = true) :
    (s.readBank ids a n).2.banks.wf = true := by
  simp only [State.readBank]
  split
  · exact State.readMem_wf _ _ a n (State.admitRange_wf s ids false a n h)
  · exact State.admitRange_wf s ids false a n h

theorem State.writeBank_wf (s : State) (ids : List Ident) (a : Nat) (data : List (Byte × Bool)) (h : s.banks.wf = true) :
    (s.writeBank ids a data).2.banks.wf = true := by
  simp only [State.writeBank]
  split
  · exact State.writeMem_wf _ _ a data (State.admitRange_wf s ids true a data.length h)
  · exact State.admitRange_wf s ids true a data.length h

end Sys2Proof.Machine
end

