-- ==== Sys2Proof/Laws/Core.lean ====
section
/-! SUPPORT. Laws of the cores: the G registers, and what issuing an instruction does once, under REP, and on a core that
does not run. -/

namespace Sys2Proof.Machine

/-! ### G registers -/

/-- Reading Gr' after Gr is written: G0 discards writes and reads as zero. -/
theorem Core.gv_setG (c : Core) (r j : Nat) (v : Word) (p : Bool) :
    (c.setG r v p).gv j = if j = r ∧ r ≠ 0 then v else c.gv j := by
  unfold Core.setG Core.gv
  by_cases hr : r = 0
  · simp [hr]
  · by_cases hj : j = 0
    · subst hj
      have : ¬ (0 = r) := fun e => hr e.symm
      simp [hr, this]
    · simp only [hr, hj, if_false, SMap.get_set, ne_eq, not_false_eq_true, and_true]

/-- The poison bits after Gr is written: G0 carries none. -/
theorem Core.gp_setG (c : Core) (r j : Nat) (v : Word) (p : Bool) (hj : j < 32) :
    (c.setG r v p).gp j = if j = r ∧ r ≠ 0 then p else c.gp j := by
  have hb : (BitVec.ofNat 32 (2 ^ r)).getLsbD j = decide (j = r) := by
    rw [BitVec.getLsbD_ofNat, Nat.testBit_two_pow]
    simp [hj, eq_comm]
  unfold Core.setG Core.gp
  by_cases hr0 : r = 0
  · simp [hr0]
  · by_cases hj0 : j = 0
    · subst hj0
      have : ¬ (0 = r) := fun e => hr0 e.symm
      simp [this]
    · have hj1 : (j != 0) = true := by simp [hj0]
      cases p
      · simp only [hr0, if_false, Bool.false_eq_true, BitVec.getLsbD_and, BitVec.getLsbD_not, hb, hj1, hj]
        by_cases e : j = r <;> simp [e, hr0]
      · simp only [hr0, if_false, if_true, BitVec.getLsbD_or, hb, hj1]
        by_cases e : j = r <;> simp [e, hr0]

@[simp] theorem Core.setG_zero (c : Core) (v : Word) (p : Bool) : c.setG 0 v p = c := by
  simp [Core.setG]

@[simp] theorem Core.gv_zero (c : Core) : c.gv 0 = 0 := by simp [Core.gv]
@[simp] theorem Core.gp_zero (c : Core) : c.gp 0 = false := by simp [Core.gp]

/-- Writing Gr leaves the rest of the core alone. -/
theorem Core.setG_rest (c : Core) (r : Nat) (v : Word) (p : Bool) :
    c.setG r v p = { c with g := (c.setG r v p).g, gPoison := (c.setG r v p).gPoison } := by
  unfold Core.setG
  split <;> rfl

@[simp] theorem Core.setG_pc (c : Core) (r : Nat) (v : Word) (p : Bool) : (c.setG r v p).pc = c.pc := by
  rw [Core.setG_rest]

@[simp] theorem Core.setG_state (c : Core) (r : Nat) (v : Word) (p : Bool) : (c.setG r v p).state = c.state := by
  rw [Core.setG_rest]

@[simp] theorem Core.setG_lc (c : Core) (r : Nat) (v : Word) (p : Bool) : (c.setG r v p).lc = c.lc := by
  rw [Core.setG_rest]

@[simp] theorem Core.setG_mtc (c : Core) (r : Nat) (v : Word) (p : Bool) : (c.setG r v p).mtc = c.mtc := by
  rw [Core.setG_rest]

@[simp] theorem Core.setG_rep (c : Core) (r : Nat) (v : Word) (p : Bool) : (c.setG r v p).rep = c.rep := by
  rw [Core.setG_rest]

/-! ### The pc -/

/-- With no loop running the pc passes the instruction. -/
theorem Core.advance_of_no_loop (c : Core) (size : Nat) (h : c.lc = 0) :
    c.advance size = { c with pc := c.pc + BitVec.ofNat 32 size } := by
  simp [Core.advance, Core.inLoop, h]

theorem Core.branch_of_no_loop (c : Core) (a : Word) (h : c.lc = 0) : c.branch a = { c with pc := a } := by
  simp [Core.branch, Core.inLoop, h]

/-! ### Issue -/

/-- A core that does not run executes nothing. -/
theorem State.issue_of_stopped (s : State) (k size : Nat) (mayRep : Bool) (body : State → Next × State)
    (h : (s.core k).state ≠ 1) : s.issue k size mayRep body = s := by
  simp [State.issue, h]

/-- With no MTC under way an execution is the body. -/
theorem State.once_of_no_mtc (s : State) (k : Nat) (body : State → Next × State) (hm : (s.core k).mtc = none) :
    s.once k body = body s := by
  simp [State.once, hm]

/-- A running core with no REP and no MTC under way executes the instruction once. -/
theorem State.issue_once (s : State) (k size : Nat) (mayRep : Bool) (body : State → Next × State)
    (hs : (s.core k).state = 1) (hr : (s.core k).rep = none) (hm : (s.core k).mtc = none) :
    s.issue k size mayRep body = State.follow (body s).2 k size (s.core k).pc (body s).1 := by
  simp [State.issue, State.once, hs, hr, hm]

/-- Under REP an instruction that REP may not repeat is ILLEGAL at the REP (R86). -/
theorem State.issue_bad_rep (s : State) (k size n : Nat) (at' : Word) (body : State → Next × State)
    (hs : (s.core k).state = 1) (hr : (s.core k).rep = some (n, at')) :
    s.issue k size false body = ((s.modCore k fun c => { c with rep := none, repPart := 0 }).raise k Exc.illegal at' none).takeHalt k := by
  simp [State.issue, hs, hr]

/-- Where the words fetched encode the command's instruction, it is issued. -/
theorem State.fetched_of_encoded (s : State) (c : CoreId) (size : Nat) (mayRep : Bool) (body : State → Next × State)
    (h : coreEncoded c = true) : s.fetched c size mayRep body = s.issue (coreKey c) size mayRep body := by
  simp [State.fetched, h]

/-- An instruction whose one effect is to write Grd. -/
theorem State.scalar_writesG (s : State) (c : CoreId) (size rd : Nat) (v : Word) (p mayRep : Bool) (body : State → Next × State)
    (hs : s.settled) (hp : s.ready c) (hb : body s = (.next, s.setG (coreKey c) rd v p)) :
    ∃ t, s.scalar c size mayRep body = .next t ∧ writesG s t (coreKey c) size rd v p := by
  obtain ⟨h0, h1, h2, h3, -, h4, h5⟩ := hp
  unfold State.scalar
  rw [State.fetched_of_encoded s c _ _ _ h0, State.issue_once s _ _ _ _ h1 h2 h3, hb]
  simp only [State.follow]
  refine ⟨_, State.done_of_settled hs, ⟨⟨rfl, ?_⟩, ?_, ?_, ?_⟩⟩
  · intro j hj
    rw [State.core_modCore_other _ _ hj, State.setG, State.core_modCore_other _ _ hj]
  all_goals
    rw [State.core_modCore_self, State.setG, State.core_modCore_self]
    rw [Core.advance_of_no_loop _ _ (by rw [Core.setG_lc]; exact h4)]
  · intro r; exact Core.gv_setG _ _ _ _ _
  · intro r hr; exact Core.gp_setG _ _ _ _ _ hr
  · rw [Core.setG_rest]

end Sys2Proof.Machine
end

