-- ==== Sys2Proof/Laws/Updates.lean ====
section
/-! SUPPORT. What the updates of jobs, flows, channels, chains, queues, the servo and the vote leave as they were: one lemma for
each field and update, and what each reads back as. -/

namespace Sys2Proof.Machine

variable (s : State)

/-! ### setJob -/

@[simp] theorem State.setJob_pending (h : Nat) (j : Option Job) : (s.setJob h j).pending = s.pending := by cases s; rfl
@[simp] theorem State.setJob_out (h : Nat) (j : Option Job) : (s.setJob h j).out = s.out := by cases s; rfl
@[simp] theorem State.setJob_freeCtr (h : Nat) (j : Option Job) : (s.setJob h j).freeCtr = s.freeCtr := by cases s; rfl
@[simp] theorem State.setJob_regs (h : Nat) (j : Option Job) : (s.setJob h j).regs = s.regs := by cases s; rfl
@[simp] theorem State.setJob_time (h : Nat) (j : Option Job) : (s.setJob h j).time = s.time := by cases s; rfl
@[simp] theorem State.setJob_servo (h : Nat) (j : Option Job) : (s.setJob h j).servo = s.servo := by cases s; rfl
@[simp] theorem State.setJob_banks (h : Nat) (j : Option Job) : (s.setJob h j).banks = s.banks := by cases s; rfl
@[simp] theorem State.setJob_cores (h : Nat) (j : Option Job) : (s.setJob h j).cores = s.cores := by cases s; rfl
@[simp] theorem State.setJob_img (h : Nat) (j : Option Job) : (s.setJob h j).img = s.img := by cases s; rfl
@[simp] theorem State.setJob_eng (h : Nat) (j : Option Job) : (s.setJob h j).eng = s.eng := by cases s; rfl
@[simp] theorem State.setJob_chains (h : Nat) (j : Option Job) : (s.setJob h j).chains = s.chains := by cases s; rfl
@[simp] theorem State.setJob_coef (h : Nat) (j : Option Job) : (s.setJob h j).coef = s.coef := by cases s; rfl
@[simp] theorem State.setJob_coefPoison (h : Nat) (j : Option Job) : (s.setJob h j).coefPoison = s.coefPoison := by cases s; rfl
@[simp] theorem State.setJob_noc (h : Nat) (j : Option Job) : (s.setJob h j).noc = s.noc := by cases s; rfl
@[simp] theorem State.setJob_dma (h : Nat) (j : Option Job) : (s.setJob h j).dma = s.dma := by cases s; rfl
@[simp] theorem State.setJob_fh (h : Nat) (j : Option Job) : (s.setJob h j).fh = s.fh := by cases s; rfl
@[simp] theorem State.setJob_host (h : Nat) (j : Option Job) : (s.setJob h j).host = s.host := by cases s; rfl
@[simp] theorem State.setJob_pwr (h : Nat) (j : Option Job) : (s.setJob h j).pwr = s.pwr := by cases s; rfl
@[simp] theorem State.setJob_nvm (h : Nat) (j : Option Job) : (s.setJob h j).nvm = s.nvm := by cases s; rfl
@[simp] theorem State.setJob_plb (h : Nat) (j : Option Job) : (s.setJob h j).plb = s.plb := by cases s; rfl
@[simp] theorem State.setJob_jtag (h : Nat) (j : Option Job) : (s.setJob h j).jtag = s.jtag := by cases s; rfl
@[simp] theorem State.setJob_pins (h : Nat) (j : Option Job) : (s.setJob h j).pins = s.pins := by cases s; rfl

/-! ### setFlow -/

@[simp] theorem State.setFlow_pending (f : Nat) (x : Flow) : (s.setFlow f x).pending = s.pending := by cases s; rfl
@[simp] theorem State.setFlow_out (f : Nat) (x : Flow) : (s.setFlow f x).out = s.out := by cases s; rfl
@[simp] theorem State.setFlow_freeCtr (f : Nat) (x : Flow) : (s.setFlow f x).freeCtr = s.freeCtr := by cases s; rfl
@[simp] theorem State.setFlow_regs (f : Nat) (x : Flow) : (s.setFlow f x).regs = s.regs := by cases s; rfl
@[simp] theorem State.setFlow_time (f : Nat) (x : Flow) : (s.setFlow f x).time = s.time := by cases s; rfl
@[simp] theorem State.setFlow_servo (f : Nat) (x : Flow) : (s.setFlow f x).servo = s.servo := by cases s; rfl
@[simp] theorem State.setFlow_banks (f : Nat) (x : Flow) : (s.setFlow f x).banks = s.banks := by cases s; rfl
@[simp] theorem State.setFlow_cores (f : Nat) (x : Flow) : (s.setFlow f x).cores = s.cores := by cases s; rfl
@[simp] theorem State.setFlow_img (f : Nat) (x : Flow) : (s.setFlow f x).img = s.img := by cases s; rfl
@[simp] theorem State.setFlow_eng (f : Nat) (x : Flow) : (s.setFlow f x).eng = s.eng := by cases s; rfl
@[simp] theorem State.setFlow_chains (f : Nat) (x : Flow) : (s.setFlow f x).chains = s.chains := by cases s; rfl
@[simp] theorem State.setFlow_coef (f : Nat) (x : Flow) : (s.setFlow f x).coef = s.coef := by cases s; rfl
@[simp] theorem State.setFlow_coefPoison (f : Nat) (x : Flow) : (s.setFlow f x).coefPoison = s.coefPoison := by cases s; rfl
@[simp] theorem State.setFlow_noc (f : Nat) (x : Flow) : (s.setFlow f x).noc = s.noc := by cases s; rfl
@[simp] theorem State.setFlow_dma (f : Nat) (x : Flow) : (s.setFlow f x).dma = s.dma := by cases s; rfl
@[simp] theorem State.setFlow_fh (f : Nat) (x : Flow) : (s.setFlow f x).fh = s.fh := by cases s; rfl
@[simp] theorem State.setFlow_host (f : Nat) (x : Flow) : (s.setFlow f x).host = s.host := by cases s; rfl
@[simp] theorem State.setFlow_pwr (f : Nat) (x : Flow) : (s.setFlow f x).pwr = s.pwr := by cases s; rfl
@[simp] theorem State.setFlow_nvm (f : Nat) (x : Flow) : (s.setFlow f x).nvm = s.nvm := by cases s; rfl
@[simp] theorem State.setFlow_plb (f : Nat) (x : Flow) : (s.setFlow f x).plb = s.plb := by cases s; rfl
@[simp] theorem State.setFlow_jtag (f : Nat) (x : Flow) : (s.setFlow f x).jtag = s.jtag := by cases s; rfl
@[simp] theorem State.setFlow_pins (f : Nat) (x : Flow) : (s.setFlow f x).pins = s.pins := by cases s; rfl

/-! ### setRunning -/

@[simp] theorem State.setRunning_pending (q : Nat) (x : Option (Nat × Nat)) : (s.setRunning q x).pending = s.pending := by cases s; rfl
@[simp] theorem State.setRunning_out (q : Nat) (x : Option (Nat × Nat)) : (s.setRunning q x).out = s.out := by cases s; rfl
@[simp] theorem State.setRunning_freeCtr (q : Nat) (x : Option (Nat × Nat)) : (s.setRunning q x).freeCtr = s.freeCtr := by cases s; rfl
@[simp] theorem State.setRunning_regs (q : Nat) (x : Option (Nat × Nat)) : (s.setRunning q x).regs = s.regs := by cases s; rfl
@[simp] theorem State.setRunning_time (q : Nat) (x : Option (Nat × Nat)) : (s.setRunning q x).time = s.time := by cases s; rfl
@[simp] theorem State.setRunning_servo (q : Nat) (x : Option (Nat × Nat)) : (s.setRunning q x).servo = s.servo := by cases s; rfl
@[simp] theorem State.setRunning_banks (q : Nat) (x : Option (Nat × Nat)) : (s.setRunning q x).banks = s.banks := by cases s; rfl
@[simp] theorem State.setRunning_cores (q : Nat) (x : Option (Nat × Nat)) : (s.setRunning q x).cores = s.cores := by cases s; rfl
@[simp] theorem State.setRunning_img (q : Nat) (x : Option (Nat × Nat)) : (s.setRunning q x).img = s.img := by cases s; rfl
@[simp] theorem State.setRunning_eng (q : Nat) (x : Option (Nat × Nat)) : (s.setRunning q x).eng = s.eng := by cases s; rfl
@[simp] theorem State.setRunning_chains (q : Nat) (x : Option (Nat × Nat)) : (s.setRunning q x).chains = s.chains := by cases s; rfl
@[simp] theorem State.setRunning_coef (q : Nat) (x : Option (Nat × Nat)) : (s.setRunning q x).coef = s.coef := by cases s; rfl
@[simp] theorem State.setRunning_coefPoison (q : Nat) (x : Option (Nat × Nat)) : (s.setRunning q x).coefPoison = s.coefPoison := by cases s; rfl
@[simp] theorem State.setRunning_noc (q : Nat) (x : Option (Nat × Nat)) : (s.setRunning q x).noc = s.noc := by cases s; rfl
@[simp] theorem State.setRunning_dma (q : Nat) (x : Option (Nat × Nat)) : (s.setRunning q x).dma = s.dma := by cases s; rfl
@[simp] theorem State.setRunning_fh (q : Nat) (x : Option (Nat × Nat)) : (s.setRunning q x).fh = s.fh := by cases s; rfl
@[simp] theorem State.setRunning_host (q : Nat) (x : Option (Nat × Nat)) : (s.setRunning q x).host = s.host := by cases s; rfl
@[simp] theorem State.setRunning_pwr (q : Nat) (x : Option (Nat × Nat)) : (s.setRunning q x).pwr = s.pwr := by cases s; rfl
@[simp] theorem State.setRunning_nvm (q : Nat) (x : Option (Nat × Nat)) : (s.setRunning q x).nvm = s.nvm := by cases s; rfl
@[simp] theorem State.setRunning_plb (q : Nat) (x : Option (Nat × Nat)) : (s.setRunning q x).plb = s.plb := by cases s; rfl
@[simp] theorem State.setRunning_jtag (q : Nat) (x : Option (Nat × Nat)) : (s.setRunning q x).jtag = s.jtag := by cases s; rfl
@[simp] theorem State.setRunning_pins (q : Nat) (x : Option (Nat × Nat)) : (s.setRunning q x).pins = s.pins := by cases s; rfl

/-! ### setDmaCh -/

@[simp] theorem State.setDmaCh_pending (c ch : Nat) (x : DmaCh) : (s.setDmaCh c ch x).pending = s.pending := by cases s; rfl
@[simp] theorem State.setDmaCh_out (c ch : Nat) (x : DmaCh) : (s.setDmaCh c ch x).out = s.out := by cases s; rfl
@[simp] theorem State.setDmaCh_freeCtr (c ch : Nat) (x : DmaCh) : (s.setDmaCh c ch x).freeCtr = s.freeCtr := by cases s; rfl
@[simp] theorem State.setDmaCh_regs (c ch : Nat) (x : DmaCh) : (s.setDmaCh c ch x).regs = s.regs := by cases s; rfl
@[simp] theorem State.setDmaCh_time (c ch : Nat) (x : DmaCh) : (s.setDmaCh c ch x).time = s.time := by cases s; rfl
@[simp] theorem State.setDmaCh_servo (c ch : Nat) (x : DmaCh) : (s.setDmaCh c ch x).servo = s.servo := by cases s; rfl
@[simp] theorem State.setDmaCh_banks (c ch : Nat) (x : DmaCh) : (s.setDmaCh c ch x).banks = s.banks := by cases s; rfl
@[simp] theorem State.setDmaCh_cores (c ch : Nat) (x : DmaCh) : (s.setDmaCh c ch x).cores = s.cores := by cases s; rfl
@[simp] theorem State.setDmaCh_cmp (c ch : Nat) (x : DmaCh) : (s.setDmaCh c ch x).cmp = s.cmp := by cases s; rfl
@[simp] theorem State.setDmaCh_img (c ch : Nat) (x : DmaCh) : (s.setDmaCh c ch x).img = s.img := by cases s; rfl
@[simp] theorem State.setDmaCh_eng (c ch : Nat) (x : DmaCh) : (s.setDmaCh c ch x).eng = s.eng := by cases s; rfl
@[simp] theorem State.setDmaCh_chains (c ch : Nat) (x : DmaCh) : (s.setDmaCh c ch x).chains = s.chains := by cases s; rfl
@[simp] theorem State.setDmaCh_coef (c ch : Nat) (x : DmaCh) : (s.setDmaCh c ch x).coef = s.coef := by cases s; rfl
@[simp] theorem State.setDmaCh_coefPoison (c ch : Nat) (x : DmaCh) : (s.setDmaCh c ch x).coefPoison = s.coefPoison := by cases s; rfl
@[simp] theorem State.setDmaCh_noc (c ch : Nat) (x : DmaCh) : (s.setDmaCh c ch x).noc = s.noc := by cases s; rfl
@[simp] theorem State.setDmaCh_fh (c ch : Nat) (x : DmaCh) : (s.setDmaCh c ch x).fh = s.fh := by cases s; rfl
@[simp] theorem State.setDmaCh_host (c ch : Nat) (x : DmaCh) : (s.setDmaCh c ch x).host = s.host := by cases s; rfl
@[simp] theorem State.setDmaCh_pwr (c ch : Nat) (x : DmaCh) : (s.setDmaCh c ch x).pwr = s.pwr := by cases s; rfl
@[simp] theorem State.setDmaCh_nvm (c ch : Nat) (x : DmaCh) : (s.setDmaCh c ch x).nvm = s.nvm := by cases s; rfl
@[simp] theorem State.setDmaCh_plb (c ch : Nat) (x : DmaCh) : (s.setDmaCh c ch x).plb = s.plb := by cases s; rfl
@[simp] theorem State.setDmaCh_jtag (c ch : Nat) (x : DmaCh) : (s.setDmaCh c ch x).jtag = s.jtag := by cases s; rfl
@[simp] theorem State.setDmaCh_pins (c ch : Nat) (x : DmaCh) : (s.setDmaCh c ch x).pins = s.pins := by cases s; rfl

/-! ### setChain -/

@[simp] theorem State.setChain_pending (n : Nat) (c : Chain) : (s.setChain n c).pending = s.pending := by cases s; rfl
@[simp] theorem State.setChain_out (n : Nat) (c : Chain) : (s.setChain n c).out = s.out := by cases s; rfl
@[simp] theorem State.setChain_freeCtr (n : Nat) (c : Chain) : (s.setChain n c).freeCtr = s.freeCtr := by cases s; rfl
@[simp] theorem State.setChain_regs (n : Nat) (c : Chain) : (s.setChain n c).regs = s.regs := by cases s; rfl
@[simp] theorem State.setChain_time (n : Nat) (c : Chain) : (s.setChain n c).time = s.time := by cases s; rfl
@[simp] theorem State.setChain_servo (n : Nat) (c : Chain) : (s.setChain n c).servo = s.servo := by cases s; rfl
@[simp] theorem State.setChain_banks (n : Nat) (c : Chain) : (s.setChain n c).banks = s.banks := by cases s; rfl
@[simp] theorem State.setChain_cores (n : Nat) (c : Chain) : (s.setChain n c).cores = s.cores := by cases s; rfl
@[simp] theorem State.setChain_cmp (n : Nat) (c : Chain) : (s.setChain n c).cmp = s.cmp := by cases s; rfl
@[simp] theorem State.setChain_img (n : Nat) (c : Chain) : (s.setChain n c).img = s.img := by cases s; rfl
@[simp] theorem State.setChain_eng (n : Nat) (c : Chain) : (s.setChain n c).eng = s.eng := by cases s; rfl
@[simp] theorem State.setChain_coef (n : Nat) (c : Chain) : (s.setChain n c).coef = s.coef := by cases s; rfl
@[simp] theorem State.setChain_coefPoison (n : Nat) (c : Chain) : (s.setChain n c).coefPoison = s.coefPoison := by cases s; rfl
@[simp] theorem State.setChain_noc (n : Nat) (c : Chain) : (s.setChain n c).noc = s.noc := by cases s; rfl
@[simp] theorem State.setChain_dma (n : Nat) (c : Chain) : (s.setChain n c).dma = s.dma := by cases s; rfl
@[simp] theorem State.setChain_fh (n : Nat) (c : Chain) : (s.setChain n c).fh = s.fh := by cases s; rfl
@[simp] theorem State.setChain_host (n : Nat) (c : Chain) : (s.setChain n c).host = s.host := by cases s; rfl
@[simp] theorem State.setChain_pwr (n : Nat) (c : Chain) : (s.setChain n c).pwr = s.pwr := by cases s; rfl
@[simp] theorem State.setChain_nvm (n : Nat) (c : Chain) : (s.setChain n c).nvm = s.nvm := by cases s; rfl
@[simp] theorem State.setChain_plb (n : Nat) (c : Chain) : (s.setChain n c).plb = s.plb := by cases s; rfl
@[simp] theorem State.setChain_jtag (n : Nat) (c : Chain) : (s.setChain n c).jtag = s.jtag := by cases s; rfl
@[simp] theorem State.setChain_pins (n : Nat) (c : Chain) : (s.setChain n c).pins = s.pins := by cases s; rfl

/-! ### setRxSym -/

@[simp] theorem State.setRxSym_pending (i n : Nat) (x : RxSym) : (s.setRxSym i n x).pending = s.pending := by cases s; rfl
@[simp] theorem State.setRxSym_out (i n : Nat) (x : RxSym) : (s.setRxSym i n x).out = s.out := by cases s; rfl
@[simp] theorem State.setRxSym_freeCtr (i n : Nat) (x : RxSym) : (s.setRxSym i n x).freeCtr = s.freeCtr := by cases s; rfl
@[simp] theorem State.setRxSym_regs (i n : Nat) (x : RxSym) : (s.setRxSym i n x).regs = s.regs := by cases s; rfl
@[simp] theorem State.setRxSym_time (i n : Nat) (x : RxSym) : (s.setRxSym i n x).time = s.time := by cases s; rfl
@[simp] theorem State.setRxSym_servo (i n : Nat) (x : RxSym) : (s.setRxSym i n x).servo = s.servo := by cases s; rfl
@[simp] theorem State.setRxSym_banks (i n : Nat) (x : RxSym) : (s.setRxSym i n x).banks = s.banks := by cases s; rfl
@[simp] theorem State.setRxSym_cores (i n : Nat) (x : RxSym) : (s.setRxSym i n x).cores = s.cores := by cases s; rfl
@[simp] theorem State.setRxSym_cmp (i n : Nat) (x : RxSym) : (s.setRxSym i n x).cmp = s.cmp := by cases s; rfl
@[simp] theorem State.setRxSym_img (i n : Nat) (x : RxSym) : (s.setRxSym i n x).img = s.img := by cases s; rfl
@[simp] theorem State.setRxSym_eng (i n : Nat) (x : RxSym) : (s.setRxSym i n x).eng = s.eng := by cases s; rfl
@[simp] theorem State.setRxSym_chains (i n : Nat) (x : RxSym) : (s.setRxSym i n x).chains = s.chains := by cases s; rfl
@[simp] theorem State.setRxSym_coef (i n : Nat) (x : RxSym) : (s.setRxSym i n x).coef = s.coef := by cases s; rfl
@[simp] theorem State.setRxSym_coefPoison (i n : Nat) (x : RxSym) : (s.setRxSym i n x).coefPoison = s.coefPoison := by cases s; rfl
@[simp] theorem State.setRxSym_noc (i n : Nat) (x : RxSym) : (s.setRxSym i n x).noc = s.noc := by cases s; rfl
@[simp] theorem State.setRxSym_dma (i n : Nat) (x : RxSym) : (s.setRxSym i n x).dma = s.dma := by cases s; rfl
@[simp] theorem State.setRxSym_host (i n : Nat) (x : RxSym) : (s.setRxSym i n x).host = s.host := by cases s; rfl
@[simp] theorem State.setRxSym_pwr (i n : Nat) (x : RxSym) : (s.setRxSym i n x).pwr = s.pwr := by cases s; rfl
@[simp] theorem State.setRxSym_nvm (i n : Nat) (x : RxSym) : (s.setRxSym i n x).nvm = s.nvm := by cases s; rfl
@[simp] theorem State.setRxSym_plb (i n : Nat) (x : RxSym) : (s.setRxSym i n x).plb = s.plb := by cases s; rfl
@[simp] theorem State.setRxSym_jtag (i n : Nat) (x : RxSym) : (s.setRxSym i n x).jtag = s.jtag := by cases s; rfl
@[simp] theorem State.setRxSym_pins (i n : Nat) (x : RxSym) : (s.setRxSym i n x).pins = s.pins := by cases s; rfl

/-! ### setLq -/

@[simp] theorem State.setLq_pending (p : Nat) (l : List LqEntry) : (s.setLq p l).pending = s.pending := by cases s; rfl
@[simp] theorem State.setLq_out (p : Nat) (l : List LqEntry) : (s.setLq p l).out = s.out := by cases s; rfl
@[simp] theorem State.setLq_freeCtr (p : Nat) (l : List LqEntry) : (s.setLq p l).freeCtr = s.freeCtr := by cases s; rfl
@[simp] theorem State.setLq_time (p : Nat) (l : List LqEntry) : (s.setLq p l).time = s.time := by cases s; rfl
@[simp] theorem State.setLq_servo (p : Nat) (l : List LqEntry) : (s.setLq p l).servo = s.servo := by cases s; rfl
@[simp] theorem State.setLq_banks (p : Nat) (l : List LqEntry) : (s.setLq p l).banks = s.banks := by cases s; rfl
@[simp] theorem State.setLq_cores (p : Nat) (l : List LqEntry) : (s.setLq p l).cores = s.cores := by cases s; rfl
@[simp] theorem State.setLq_cmp (p : Nat) (l : List LqEntry) : (s.setLq p l).cmp = s.cmp := by cases s; rfl
@[simp] theorem State.setLq_img (p : Nat) (l : List LqEntry) : (s.setLq p l).img = s.img := by cases s; rfl
@[simp] theorem State.setLq_eng (p : Nat) (l : List LqEntry) : (s.setLq p l).eng = s.eng := by cases s; rfl
@[simp] theorem State.setLq_chains (p : Nat) (l : List LqEntry) : (s.setLq p l).chains = s.chains := by cases s; rfl
@[simp] theorem State.setLq_coef (p : Nat) (l : List LqEntry) : (s.setLq p l).coef = s.coef := by cases s; rfl
@[simp] theorem State.setLq_coefPoison (p : Nat) (l : List LqEntry) : (s.setLq p l).coefPoison = s.coefPoison := by cases s; rfl
@[simp] theorem State.setLq_noc (p : Nat) (l : List LqEntry) : (s.setLq p l).noc = s.noc := by cases s; rfl
@[simp] theorem State.setLq_dma (p : Nat) (l : List LqEntry) : (s.setLq p l).dma = s.dma := by cases s; rfl
@[simp] theorem State.setLq_host (p : Nat) (l : List LqEntry) : (s.setLq p l).host = s.host := by cases s; rfl
@[simp] theorem State.setLq_pwr (p : Nat) (l : List LqEntry) : (s.setLq p l).pwr = s.pwr := by cases s; rfl
@[simp] theorem State.setLq_nvm (p : Nat) (l : List LqEntry) : (s.setLq p l).nvm = s.nvm := by cases s; rfl
@[simp] theorem State.setLq_plb (p : Nat) (l : List LqEntry) : (s.setLq p l).plb = s.plb := by cases s; rfl
@[simp] theorem State.setLq_jtag (p : Nat) (l : List LqEntry) : (s.setLq p l).jtag = s.jtag := by cases s; rfl
@[simp] theorem State.setLq_pins (p : Nat) (l : List LqEntry) : (s.setLq p l).pins = s.pins := by cases s; rfl

/-! ### takeWire -/

@[simp] theorem State.takeWire_pending (p n : Nat) : (s.takeWire p n).pending = s.pending := by cases s; rfl
@[simp] theorem State.takeWire_out (p n : Nat) : (s.takeWire p n).out = s.out := by cases s; rfl
@[simp] theorem State.takeWire_freeCtr (p n : Nat) : (s.takeWire p n).freeCtr = s.freeCtr := by cases s; rfl
@[simp] theorem State.takeWire_regs (p n : Nat) : (s.takeWire p n).regs = s.regs := by cases s; rfl
@[simp] theorem State.takeWire_time (p n : Nat) : (s.takeWire p n).time = s.time := by cases s; rfl
@[simp] theorem State.takeWire_servo (p n : Nat) : (s.takeWire p n).servo = s.servo := by cases s; rfl
@[simp] theorem State.takeWire_banks (p n : Nat) : (s.takeWire p n).banks = s.banks := by cases s; rfl
@[simp] theorem State.takeWire_cores (p n : Nat) : (s.takeWire p n).cores = s.cores := by cases s; rfl
@[simp] theorem State.takeWire_cmp (p n : Nat) : (s.takeWire p n).cmp = s.cmp := by cases s; rfl
@[simp] theorem State.takeWire_img (p n : Nat) : (s.takeWire p n).img = s.img := by cases s; rfl
@[simp] theorem State.takeWire_eng (p n : Nat) : (s.takeWire p n).eng = s.eng := by cases s; rfl
@[simp] theorem State.takeWire_chains (p n : Nat) : (s.takeWire p n).chains = s.chains := by cases s; rfl
@[simp] theorem State.takeWire_coef (p n : Nat) : (s.takeWire p n).coef = s.coef := by cases s; rfl
@[simp] theorem State.takeWire_coefPoison (p n : Nat) : (s.takeWire p n).coefPoison = s.coefPoison := by cases s; rfl
@[simp] theorem State.takeWire_noc (p n : Nat) : (s.takeWire p n).noc = s.noc := by cases s; rfl
@[simp] theorem State.takeWire_dma (p n : Nat) : (s.takeWire p n).dma = s.dma := by cases s; rfl
@[simp] theorem State.takeWire_host (p n : Nat) : (s.takeWire p n).host = s.host := by cases s; rfl
@[simp] theorem State.takeWire_pwr (p n : Nat) : (s.takeWire p n).pwr = s.pwr := by cases s; rfl
@[simp] theorem State.takeWire_nvm (p n : Nat) : (s.takeWire p n).nvm = s.nvm := by cases s; rfl
@[simp] theorem State.takeWire_plb (p n : Nat) : (s.takeWire p n).plb = s.plb := by cases s; rfl
@[simp] theorem State.takeWire_jtag (p n : Nat) : (s.takeWire p n).jtag = s.jtag := by cases s; rfl
@[simp] theorem State.takeWire_pins (p n : Nat) : (s.takeWire p n).pins = s.pins := by cases s; rfl

/-! ### modServo -/

@[simp] theorem State.modServo_pending (f : Servo → Servo) : (s.modServo f).pending = s.pending := by cases s; rfl
@[simp] theorem State.modServo_out (f : Servo → Servo) : (s.modServo f).out = s.out := by cases s; rfl
@[simp] theorem State.modServo_freeCtr (f : Servo → Servo) : (s.modServo f).freeCtr = s.freeCtr := by cases s; rfl
@[simp] theorem State.modServo_regs (f : Servo → Servo) : (s.modServo f).regs = s.regs := by cases s; rfl
@[simp] theorem State.modServo_time (f : Servo → Servo) : (s.modServo f).time = s.time := by cases s; rfl
@[simp] theorem State.modServo_banks (f : Servo → Servo) : (s.modServo f).banks = s.banks := by cases s; rfl
@[simp] theorem State.modServo_cores (f : Servo → Servo) : (s.modServo f).cores = s.cores := by cases s; rfl
@[simp] theorem State.modServo_cmp (f : Servo → Servo) : (s.modServo f).cmp = s.cmp := by cases s; rfl
@[simp] theorem State.modServo_img (f : Servo → Servo) : (s.modServo f).img = s.img := by cases s; rfl
@[simp] theorem State.modServo_eng (f : Servo → Servo) : (s.modServo f).eng = s.eng := by cases s; rfl
@[simp] theorem State.modServo_chains (f : Servo → Servo) : (s.modServo f).chains = s.chains := by cases s; rfl
@[simp] theorem State.modServo_coef (f : Servo → Servo) : (s.modServo f).coef = s.coef := by cases s; rfl
@[simp] theorem State.modServo_coefPoison (f : Servo → Servo) : (s.modServo f).coefPoison = s.coefPoison := by cases s; rfl
@[simp] theorem State.modServo_noc (f : Servo → Servo) : (s.modServo f).noc = s.noc := by cases s; rfl
@[simp] theorem State.modServo_dma (f : Servo → Servo) : (s.modServo f).dma = s.dma := by cases s; rfl
@[simp] theorem State.modServo_fh (f : Servo → Servo) : (s.modServo f).fh = s.fh := by cases s; rfl
@[simp] theorem State.modServo_host (f : Servo → Servo) : (s.modServo f).host = s.host := by cases s; rfl
@[simp] theorem State.modServo_pwr (f : Servo → Servo) : (s.modServo f).pwr = s.pwr := by cases s; rfl
@[simp] theorem State.modServo_nvm (f : Servo → Servo) : (s.modServo f).nvm = s.nvm := by cases s; rfl
@[simp] theorem State.modServo_plb (f : Servo → Servo) : (s.modServo f).plb = s.plb := by cases s; rfl
@[simp] theorem State.modServo_jtag (f : Servo → Servo) : (s.modServo f).jtag = s.jtag := by cases s; rfl
@[simp] theorem State.modServo_pins (f : Servo → Servo) : (s.modServo f).pins = s.pins := by cases s; rfl

/-! ### setVote -/

@[simp] theorem State.setVote_pending (v : Option Vote) : (s.setVote v).pending = s.pending := by cases s; rfl
@[simp] theorem State.setVote_out (v : Option Vote) : (s.setVote v).out = s.out := by cases s; rfl
@[simp] theorem State.setVote_freeCtr (v : Option Vote) : (s.setVote v).freeCtr = s.freeCtr := by cases s; rfl
@[simp] theorem State.setVote_regs (v : Option Vote) : (s.setVote v).regs = s.regs := by cases s; rfl
@[simp] theorem State.setVote_time (v : Option Vote) : (s.setVote v).time = s.time := by cases s; rfl
@[simp] theorem State.setVote_servo (v : Option Vote) : (s.setVote v).servo = s.servo := by cases s; rfl
@[simp] theorem State.setVote_banks (v : Option Vote) : (s.setVote v).banks = s.banks := by cases s; rfl
@[simp] theorem State.setVote_cores (v : Option Vote) : (s.setVote v).cores = s.cores := by cases s; rfl
@[simp] theorem State.setVote_cmp (v : Option Vote) : (s.setVote v).cmp = s.cmp := by cases s; rfl
@[simp] theorem State.setVote_img (v : Option Vote) : (s.setVote v).img = s.img := by cases s; rfl
@[simp] theorem State.setVote_eng (v : Option Vote) : (s.setVote v).eng = s.eng := by cases s; rfl
@[simp] theorem State.setVote_chains (v : Option Vote) : (s.setVote v).chains = s.chains := by cases s; rfl
@[simp] theorem State.setVote_coef (v : Option Vote) : (s.setVote v).coef = s.coef := by cases s; rfl
@[simp] theorem State.setVote_coefPoison (v : Option Vote) : (s.setVote v).coefPoison = s.coefPoison := by cases s; rfl
@[simp] theorem State.setVote_noc (v : Option Vote) : (s.setVote v).noc = s.noc := by cases s; rfl
@[simp] theorem State.setVote_dma (v : Option Vote) : (s.setVote v).dma = s.dma := by cases s; rfl
@[simp] theorem State.setVote_fh (v : Option Vote) : (s.setVote v).fh = s.fh := by cases s; rfl
@[simp] theorem State.setVote_host (v : Option Vote) : (s.setVote v).host = s.host := by cases s; rfl
@[simp] theorem State.setVote_nvm (v : Option Vote) : (s.setVote v).nvm = s.nvm := by cases s; rfl
@[simp] theorem State.setVote_plb (v : Option Vote) : (s.setVote v).plb = s.plb := by cases s; rfl
@[simp] theorem State.setVote_jtag (v : Option Vote) : (s.setVote v).jtag = s.jtag := by cases s; rfl
@[simp] theorem State.setVote_pins (v : Option Vote) : (s.setVote v).pins = s.pins := by cases s; rfl

/-! ### emitPad -/

@[simp] theorem State.emitPad_pending (o : Output) : (s.emitPad o).pending = s.pending := by unfold State.emitPad; split <;> rfl
@[simp] theorem State.emitPad_freeCtr (o : Output) : (s.emitPad o).freeCtr = s.freeCtr := by unfold State.emitPad; split <;> rfl
@[simp] theorem State.emitPad_regs (o : Output) : (s.emitPad o).regs = s.regs := by unfold State.emitPad; split <;> rfl
@[simp] theorem State.emitPad_time (o : Output) : (s.emitPad o).time = s.time := by unfold State.emitPad; split <;> rfl
@[simp] theorem State.emitPad_servo (o : Output) : (s.emitPad o).servo = s.servo := by unfold State.emitPad; split <;> rfl
@[simp] theorem State.emitPad_banks (o : Output) : (s.emitPad o).banks = s.banks := by unfold State.emitPad; split <;> rfl
@[simp] theorem State.emitPad_cores (o : Output) : (s.emitPad o).cores = s.cores := by unfold State.emitPad; split <;> rfl
@[simp] theorem State.emitPad_cmp (o : Output) : (s.emitPad o).cmp = s.cmp := by unfold State.emitPad; split <;> rfl
@[simp] theorem State.emitPad_img (o : Output) : (s.emitPad o).img = s.img := by unfold State.emitPad; split <;> rfl
@[simp] theorem State.emitPad_eng (o : Output) : (s.emitPad o).eng = s.eng := by unfold State.emitPad; split <;> rfl
@[simp] theorem State.emitPad_chains (o : Output) : (s.emitPad o).chains = s.chains := by unfold State.emitPad; split <;> rfl
@[simp] theorem State.emitPad_coef (o : Output) : (s.emitPad o).coef = s.coef := by unfold State.emitPad; split <;> rfl
@[simp] theorem State.emitPad_coefPoison (o : Output) : (s.emitPad o).coefPoison = s.coefPoison := by unfold State.emitPad; split <;> rfl
@[simp] theorem State.emitPad_noc (o : Output) : (s.emitPad o).noc = s.noc := by unfold State.emitPad; split <;> rfl
@[simp] theorem State.emitPad_dma (o : Output) : (s.emitPad o).dma = s.dma := by unfold State.emitPad; split <;> rfl
@[simp] theorem State.emitPad_fh (o : Output) : (s.emitPad o).fh = s.fh := by unfold State.emitPad; split <;> rfl
@[simp] theorem State.emitPad_host (o : Output) : (s.emitPad o).host = s.host := by unfold State.emitPad; split <;> rfl
@[simp] theorem State.emitPad_pwr (o : Output) : (s.emitPad o).pwr = s.pwr := by unfold State.emitPad; split <;> rfl
@[simp] theorem State.emitPad_nvm (o : Output) : (s.emitPad o).nvm = s.nvm := by unfold State.emitPad; split <;> rfl
@[simp] theorem State.emitPad_plb (o : Output) : (s.emitPad o).plb = s.plb := by unfold State.emitPad; split <;> rfl
@[simp] theorem State.emitPad_jtag (o : Output) : (s.emitPad o).jtag = s.jtag := by unfold State.emitPad; split <;> rfl
@[simp] theorem State.emitPad_pins (o : Output) : (s.emitPad o).pins = s.pins := by unfold State.emitPad; split <;> rfl

/-! ### What they read back as -/

@[simp] theorem State.job_setJob_self (h : Nat) (j : Option Job) : (s.setJob h j).job h = j := by
  simp [State.job, State.setJob]

theorem State.job_setJob_other {h g : Nat} (j : Option Job) (ne : g ≠ h) : (s.setJob h j).job g = s.job g :=
  SMap.get_set_other noJob s.cmp.jobs j ne

/-- A flow reads back with the parity of what was written. -/
@[simp] theorem State.flow_setFlow_self (f : Nat) (x : Flow) : (s.setFlow f x).flow f = { x with parity := x.parityOf } := by
  simp [State.flow, State.setFlow]

theorem State.flow_setFlow_other {f g : Nat} (x : Flow) (ne : g ≠ f) : (s.setFlow f x).flow g = s.flow g :=
  SMap.get_set_other (fun _ => Flow.init) s.cmp.flows _ ne

@[simp] theorem State.running_setRunning_self (q : Nat) (x : Option (Nat × Nat)) : (s.setRunning q x).running q = x := by
  simp [State.running, State.setRunning]

theorem State.running_setRunning_other {q r : Nat} (x : Option (Nat × Nat)) (ne : r ≠ q) :
    (s.setRunning q x).running r = s.running r := SMap.get_set_other notRunning s.cmp.running x ne

@[simp] theorem State.dmaCh_setDmaCh_self (c ch : Nat) (x : DmaCh) : (s.setDmaCh c ch x).dmaCh c ch = x := by
  simp [State.dmaCh, State.setDmaCh]

@[simp] theorem State.chain_setChain_self (n : Nat) (c : Chain) : (s.setChain n c).chain n = c := by
  simp [State.chain, State.setChain]

@[simp] theorem State.rxSym_setRxSym_self (i n : Nat) (x : RxSym) : (s.setRxSym i n x).rxSym i n = x := by
  simp [State.rxSym, State.setRxSym]

@[simp] theorem State.wireFree_takeWire_self (p n : Nat) : (s.takeWire p n).wireFree p = s.now + n := by
  simp [State.wireFree, State.takeWire]

@[simp] theorem State.modServo_servo (f : Servo → Servo) : (s.modServo f).servo = f s.servo := rfl
@[simp] theorem State.setVote_vote (v : Option Vote) : (s.setVote v).pwr.vote = v := rfl

/-- While the pads are held nothing leaves by them (R365). -/
theorem State.emitPad_held (o : Output) (h : s.padsHeld = true) : s.emitPad o = s := by
  simp [State.emitPad, h]

theorem State.emitPad_free (o : Output) (h : s.padsHeld = false) : s.emitPad o = s.emit o := by
  simp [State.emitPad, h]

theorem State.emitPad_out (o : Output) : (s.emitPad o).out = if s.padsHeld then s.out else o :: s.out := by
  unfold State.emitPad
  split <;> rfl

/-! ### What an operation that guards another one does -/

/-- A command of the test access port: in DEEP and OFF nothing, else its effect (R427). -/
theorem State.tap_off (f : State → State) (h : s.tapOn = false) : s.tap f = s.done := by simp [State.tap, h]
theorem State.tap_on (f : State → State) (h : s.tapOn = true) : s.tap f = (f s).done := by simp [State.tap, h]

/-- An instruction that is selected already is not scanned in again. -/
theorem State.selectIr_same (ir : Byte) (h : s.jtag.ir = ir) : s.selectIr ir = s := by simp [State.selectIr, h]
theorem State.selectIr_other (ir : Byte) (h : s.jtag.ir ≠ ir) :
    s.selectIr ir = (s.setJtag { s.jtag with ir := ir }).emit (.tdo 8 1) := by simp [State.selectIr, h]

end Sys2Proof.Machine
end

