-- ==== Sys2Proof/Machine/Package.lean ====
section
/-! DEFINITION. The ball grid and what each ball is for (R432 to R434), the pins of the boundary-scan register (R427), and the
package's marking (R447). Rows and columns count from 1. -/

namespace Sys2Proof.Machine

/-- The sequence S of R432. -/
def rowLetters : List String := ["A", "B", "C", "D", "E", "F", "G", "H", "J", "K", "L", "M", "N", "P", "T", "U", "V", "W", "Y"]

/-- The letters of row i, 1 to 72. -/
def rowName (i : Nat) : String :=
  let s := fun k => rowLetters.getD (k - 1) ""
  if i ≤ 19 then s i else if i ≤ 38 then "A" ++ s (i - 19) else if i ≤ 57 then "B" ++ s (i - 38) else "C" ++ s (i - 57)

/-- A ball's name: row letters, then the column. -/
def ballName (i c : Nat) : String := rowName i ++ toString c

/-! ### Signals (Tables 19-2 and 19-3) -/

inductive Signal where
  /-- fronthaul lane l or host lane n: transmit or receive, positive or negative leg -/
  | fh (l : Nat) (tx pos : Bool)
  | hx (n : Nat) (tx pos : Bool)
  /-- a signal of Table 19-3 -/
  | pin (name : String)
  deriving DecidableEq, Repr

/-- The single pins of column 4, from row 21. -/
def columnFour : List String :=
  ["NVM_CS0_N", "NVM_CS1_N", "NVM_SCK", "NVM_DQS", "NVM_DQ[0]", "NVM_DQ[1]", "NVM_DQ[2]", "NVM_DQ[3]", "NVM_DQ[4]", "NVM_DQ[5]",
   "NVM_DQ[6]", "NVM_DQ[7]", "PMB_SCL", "PMB_SDA", "PMB_ALERT_N", "WAKE_N", "SAFE_N", "FAULT_N", "BOOTSEL[0]", "BOOTSEL[1]",
   "BOOTSEL[2]", "TCK", "TMS", "TDI", "TDO", "TRST_N", "THERM_ALERT_N", "VIO_REF", "PPS_IN", "PPS_OUT", "SYNC_CLK_OUT",
   "TOD_TX", "TOD_RX", "TUNE_OUT", "TUNE_VREF"]

/-- The lane whose balls stand at a column of the fronthaul rows: its number among the 32 of the row, and its leg. -/
def laneColumn (c : Nat) : Option (Nat × Bool) :=
  if 5 ≤ c ∧ c < 69 then some ((c - 5) / 2, (c - 5) % 2 == 0) else none

/-- The host lane whose balls stand at a row. -/
def hostRow (i : Nat) : Option (Nat × Bool) := if 21 ≤ i ∧ i < 53 then some ((i - 21) / 2, (i - 21) % 2 == 0) else none

/-- The signal of a position. -/
def signalAt (i c : Nat) : Option Signal :=
  let fh := fun (base : Nat) (tx : Bool) => (laneColumn c).map fun x => Signal.fh (base + x.1) tx x.2
  let hx := fun (tx : Bool) => (hostRow i).map fun x => Signal.hx x.1 tx x.2
  if i = 2 then fh 0 true
  else if i = 6 then fh 0 false
  else if i = 71 then fh 32 true
  else if i = 67 then fh 32 false
  else match c with
    | 71 => hx true
    | 67 => hx false
    | 2 => if 21 ≤ i ∧ i < 53 then some (.pin ("GPIO[" ++ toString (i - 21) ++ "]")) else none
    | 4 => if 21 ≤ i ∧ i < 56 then some (.pin (columnFour.getD (i - 21) "")) else none
    | 6 => if i = 35 then some (.pin "REFCLK_P") else if i = 36 then some (.pin "REFCLK_N") else none
    | 69 =>
      if i = 19 then some (.pin "HXREF_P") else if i = 20 then some (.pin "HXREF_N")
      else if i = 53 then some (.pin "HX_PERST_N") else none
    | _ => none

/-! ### Allocation (Table 19-1) -/

inductive BallUse where
  | signal (s : Signal)
  | vin | gnd | mech | unpopulated
  deriving DecidableEq, Repr

/-- What a grid position holds. -/
def ballUse (i c : Nat) : BallUse :=
  if 43 ≤ i ∧ i ≤ 58 ∧ 27 ≤ c ∧ c ≤ 46 then .unpopulated
  else match signalAt i c with
    | some s => .signal s
    | none =>
      if 31 ≤ i ∧ i ≤ 42 ∧ 27 ≤ c ∧ c ≤ 46 then .vin
      else if i ≤ 9 ∨ 64 ≤ i ∨ c ≤ 9 ∨ 64 ≤ c ∨ (31 ≤ i ∧ i ≤ 42 ∧ (c = 26 ∨ c = 47)) then .gnd
      else .mech

/-- The pins of Table 19-3 that the boundary-scan register leaves out (R427). -/
def notScanned : List String :=
  ["TCK", "TMS", "TDI", "TDO", "TRST_N", "TUNE_OUT", "TUNE_VREF", "VIO_REF", "REFCLK_P", "REFCLK_N", "HXREF_P", "HXREF_N"]

/-- The pins of the boundary-scan register, in the order of Table 19-3. -/
def scanPins : List String :=
  ((List.range 32).map fun n => "GPIO[" ++ toString n ++ "]") ++ columnFour.filter (fun p => !notScanned.contains p)
    ++ ["HX_PERST_N"]

/-! ### Marking (R447, R448) -/

/-- Twelve hexadecimal digits of the package serial. -/
def serialDigits (serial : Nat) : String :=
  String.ofList ((List.range 12).map fun k => Nat.digitChar (serial / 16 ^ (11 - k) % 16))

/-- The four lines of text; the fifth is a Data Matrix code of lines 2 to 4, separated by semicolons. -/
def State.marking (s : State) (dateCode lot : String) : List String :=
  ["KELRAK", "SX9064-B1-XT", dateCode ++ " " ++ lot, serialDigits (s.reg Addr.devSerial).toNat]

def State.dataMatrix (s : State) (dateCode lot : String) : String := String.intercalate ";" ((s.marking dateCode lot).drop 1)

end Sys2Proof.Machine
end

