-- ==== Sys2Proof/Machine/Rails.lean ====
section
/-! DEFINITION. The internal rails (R353, Table 15-2), and the body bias, array rail and memory assist that follow the state
of each domain (R362, Table 15-8). -/

namespace Sys2Proof.Machine

inductive Rail where
  | vaon | io18 | iod | mi | m0 | m1 | c0 | c1 | sds | sdsh
  deriving DecidableEq, Repr

/-- The order in which the stage starts the rails; those of one step start together. -/
def railStart : List (List Rail) := [[.vaon], [.io18], [.iod], [.mi], [.m0, .m1], [.c0, .c1], [.sds], [.sdsh]]

/-- It stops them in the reverse order. -/
def railStop : List (List Rail) := railStart.reverse

/-- Phases of the 40-phase converter that a rail has for itself; VAON is a linear regulator outside them. -/
def Rail.phases : Rail → Nat
  | .vaon => 0
  | .io18 | .mi | .sds | .sdsh => 1
  | .m0 | .m1 => 2
  | .iod => 4
  | .c0 | .c1 => 14

/-- Nominal set point in mV. -/
def Rail.nominal : Rail → Nat
  | .vaon | .m0 | .m1 | .mi => 800
  | .io18 => 1800
  | .iod | .c0 | .c1 => 750
  | .sds => 900
  | .sdsh => 1200

/-- The rail is powered in a mode (Table 15-2). -/
def Rail.poweredIn (m : Nat) : Rail → Bool
  | .vaon => true
  | .io18 | .m0 | .m1 | .mi => m != Mode.off
  | .iod | .sds | .sdsh | .c0 | .c1 => m != Mode.off && m != Mode.deep

/-- The rails that the stage starts for a mode, in order. -/
def railsFor (m : Nat) : List Rail := (railStart.flatten).filter (Rail.poweredIn m)

/-- Power-good: a rail reading in mV is within 3 % of its set point. -/
def railGood (set mv : Nat) : Bool := decide (97 * set ≤ 100 * mv ∧ 100 * mv ≤ 103 * set)

/-- The states of Table 15-8. -/
inductive DomainState where
  | run | idle | sleep | deep | off
  deriving DecidableEq, Repr

/-- The state of the domain whose fence is d (R255): a cluster has its own while the device is in RUN or IDLE. -/
def State.domainState (s : State) (d : Nat) : DomainState :=
  let m := s.mode
  if m = Mode.off then .off
  else if m = Mode.deep then .deep
  else if m = Mode.sleep then .sleep
  else if d < 24 && s.clusterAsleep d then .sleep
  else if m = Mode.run ∧ (24 ≤ d ∨ !s.clusterIdle d) then .run
  else .idle

/-- Logic body bias in mV, forward positive; none for a domain whose logic is unpowered and holds no retained bank's rail. -/
def DomainState.bias : DomainState → Option Int
  | .run => some 200
  | .idle => some 0
  | .sleep => some (-300)
  | .deep | .off => none

def State.retained (s : State) (key : Nat) : Bool := s.flag (Addr.memBankCfg (key / 256) (key % 256)) Fld.memBankCfgRetain

/-- The rail of a bank's array, in mV; none where it is unpowered. -/
def State.arrayMv (s : State) (key : Nat) : Option Nat :=
  match s.domainState (bankDomain key) with
  | .run | .idle => some 800
  | .sleep => if s.retained key then some 800 else none
  | .deep => if s.retained key then some 550 else none
  | .off => none

/-- Memory assist is on for retained banks in DEEP. -/
def State.assist (s : State) (key : Nat) : Bool := s.domainState (bankDomain key) == .deep && s.retained key

end Sys2Proof.Machine
end

