-- ==== Sys2Proof/WellFormed.lean ====
section
/-! DEFINITION. Well-formed commands. Operands are typed to the ranges the spec gives; what the types leave open is checked
here: identities within the fields that carry them, lists of the length the unit has, and a received frame that fits. -/

namespace Sys2Proof

/-- An identity fits the KIND and INDEX fields that carry it (Table 09-2). -/
def Ident.wf (i : Ident) : Bool := decide (i.kind < 8) && decide (i.index < 4096)

/-- The other port's access writes some byte, or reads, as an identity that exists (R215). -/
def PortAccess.wf (o : PortAccess) : Bool := o.who.wf && (!o.write || o.bytes != 0)

def otherWf (o : Option PortAccess) : Bool := o.all PortAccess.wf

/-- Bytes that a message brings. -/
def RxMessage.bytes (x : RxMessage) : Nat := x.data.length + (x.sections.map fun y => y.data.length).sum

/-- The messages of a frame are no longer than the frame (R278); a CPRI link may bring a hyperframe alone. -/
def RxFrame.wf (x : RxFrame) : Bool :=
  (!x.messages.isEmpty || x.hyper.isSome) && decide ((x.messages.map RxMessage.bytes).sum ≤ x.len.toNat)
    && x.messages.all fun m => m.sections.all fun y => otherWf y.other

/-- A link trains at ×16, ×8 or ×4; in CXL mode at 8 GT/s or more (R330). -/
def HxLink.wf (x : HxLink) : Bool := [4, 8, 16].contains x.width.val && (!x.cxl || decide (2 ≤ x.rate.val))

/-- A command that the device can be given. -/
def Instr.wellFormed : Instr → Bool
  | .registerWrite ws _ => !ws.isEmpty
  | .memOwnerWrite _ _ ws => !ws.isEmpty && ws.all fun w => w.owner.wf
  | .ldw _ _ _ _ o | .ldh _ _ _ _ o | .ldhu _ _ _ _ o | .ldb _ _ _ _ o | .ldbu _ _ _ _ o | .stw _ _ _ _ o
  | .sth _ _ _ _ o | .stb _ _ _ _ o | .stws _ _ _ _ o | .stwc _ _ _ _ o | .ldwl _ _ _ _ o | .stwl _ _ _ _ o => otherWf o
  | .vld _ _ o | .vst _ _ o | .vstn _ _ o | .vldm _ _ o | .vstm _ _ o => otherWf o
  | .vadd _ x | .vsub _ x | .vrsub _ x | .vmin _ x | .vmax _ x | .vand _ x | .vor _ x | .vxor _ x | .vshl _ x | .vshr _ x
  | .vsra _ x | .vsrar _ x | .vmerge _ x | .vmul _ x | .vmulq _ x | .vmacw _ x | .vmscw _ x | .vcmulq _ x | .vcmulcq _ x
  | .vcmacw _ x | .vcmaccw _ x | .vcmpeq _ x | .vcmplt _ x | .vcmple _ x | .vshrs _ x => otherWf x.other
  | .vabs _ x | .vclr _ x | .vconj _ x | .vnrw _ x | .vwcvt _ x | .vnorm _ x | .vexp _ x | .vslideup _ x
  | .vslidedn _ x | .vzip _ x | .vunzip _ x | .vrev _ x | .vredsum _ x | .vredmax _ x | .vmvxv _ x | .vmvvx _ x =>
    x.other.isNone
  | .ldpcDecode _ o | .ldpcEncode _ o | .polarDecode _ o | .polarEncode _ o | .turboDecode _ o | .fftUl _ o | .fftDl _ o
  | .scale _ o | .cef _ o | .weights _ o | .chol _ o | .qr _ o | .apply _ o | .sicw _ o | .sic _ o | .praDetect _ o
  | .sdcRun _ o | .coefLoad _ o => otherWf o
  | .bar2Access _ _ _ _ _ o => otherWf o
  | .dapAcc _ _ _ o => otherWf o
  | .reservationTimeout who _ _ => who.wf
  | .orthogonFlitHop _ ins _ _ => (ins.map (·.port)).Nodup
  | .chordPacket _ _ flits _ => !flits.isEmpty && flits.length ≤ 4
  | .orthogonPacketDelivery _ _ _ _ _ _ o => otherWf o
  | .dmaBlockComplete _ _ _ _ o => otherWf o
  | .hostLinkLoss c x => c != 2 || x.wf
  | .hostLinkReturn x | .hxPortReady x => x.wf
  | .fhRxMessage _ x => x.wf
  | .fhFrameLaunch _ o => otherWf o
  | .dmaStopComplete _ progress _ => progress.length == 16
  | .thermalSensorRead raw => raw.length == 20
  | .flashWriteCommand _ _ erase data => erase.isNone || data.isEmpty
  | _ => true

end Sys2Proof
end

