-- ==== Sys2Proof/Tests/Slice0.lean ====
section
/-! SUPPORT. Tests: ill-formed commands that WellFormed refuses, small single steps whose expected result the spec gives, and
for each statement with hypotheses a concrete state and operands that meet them. -/

namespace Sys2Proof.Tests

set_option Elab.async false

open Sys2Proof Sys2Proof.Machine

/-! ### Ill-formed commands -/

theorem test_wf_registerWrite : (Instr.registerWrite [] 0).wellFormed = false := by decide
theorem test_wf_memOwnerWrite : (Instr.memOwnerWrite 0 0 []).wellFormed = false := by decide
theorem test_wf_memOwnerWrite_ident :
    (Instr.memOwnerWrite 0 0 [⟨none, ⟨8, 0⟩⟩]).wellFormed = false := by decide
theorem test_wf_load_other :
    (Instr.ldw (.tile 0) 1 2 0 (some ⟨true, ⟨1, 0⟩, 0, 0, 0⟩)).wellFormed = false := by decide
theorem test_wf_vld_other :
    (Instr.vld (.tile 0) ⟨0, 0, false, 0, 0, false, 0⟩ (some ⟨false, ⟨9, 0⟩, 0, 0, 0⟩)).wellFormed = false := by decide
theorem test_wf_bar2_other :
    (Instr.bar2Access false 0 8 0 false (some ⟨true, ⟨1, 0⟩, 0, 0, 0⟩)).wellFormed = false := by decide
theorem test_wf_dapAcc_other : (Instr.dapAcc 0 true false (some ⟨true, ⟨1, 5000⟩, 0, 0, 1⟩)).wellFormed = false := by decide
theorem test_wf_reservation : (Instr.reservationTimeout ⟨9, 0⟩ 0 0).wellFormed = false := by decide
theorem test_wf_rxFrame : (Instr.fhRxMessage 0 ⟨true, 100, [], none⟩).wellFormed = false := by decide
theorem test_wf_engine_other : (Instr.ldpcDecode 0 (some ⟨true, ⟨1, 0⟩, 0, 0, 0⟩)).wellFormed = false := by decide
theorem test_wf_vadd_other :
    (Instr.vadd (.tile 0) ⟨1, 2, 3, 2, false, false, false, 0, some ⟨false, ⟨9, 0⟩, 0, 0, 0⟩⟩).wellFormed = false := by decide
theorem test_wf_hop : (Instr.orthogonFlitHop 0 [⟨4, 0, 0, 0, 0, 0⟩, ⟨4, 0, 0, 0, 0, 0⟩] 0 0).wellFormed = false := by decide
theorem test_wf_chord : (Instr.chordPacket 0 1 [] []).wellFormed = false := by decide
theorem test_wf_link : (Instr.hxPortReady ⟨1, 16, true, false⟩).wellFormed = false := by decide
theorem test_wf_dmaStop (c : Fin 25) : (Instr.dmaStopComplete c [] []).wellFormed = false := by
  simp [Instr.wellFormed]
theorem test_wf_thermal : (Instr.thermalSensorRead [0]).wellFormed = false := by decide
theorem test_wf_flash : (Instr.flashWriteCommand 0 0 (some 4096) [1]).wellFormed = false := by decide
theorem test_wf_add : (Instr.add (.tile 0) 1 2 3).wellFormed = true := by decide

/-! ### Scalar instructions -/

/-- Tile 0 runs at 0x100 with a handler at 0x40, ×1 elements of 8 bits and vl 1; it owns bank 0, the first of its scratchpad. -/
def core0 : Core := { Core.init with
  state := 1, pc := 0x100, tvec := 0x40, vl := 1, vseg := 1, g := [(1, 16), (2, 0x11223344)] }

def tile : State := (State.reset.setReg (ownerReg 0) 0x1000).setCore 0 core0

/-- A word that encodes nothing, fetched by tile 0 in an instruction's place: op 0x3F of format SR (R83). -/
def bad : CoreId := ⟨.tile 0, some (0x1F800000, 0)⟩

theorem tile_ready : tile.settled ∧ tile.plain 0 ∧ tile.handles 0 ∧ tile.gp 0 1 = false ∧ tile.gp 0 2 = false := by
  unfold State.settled State.plain State.handles; decide +kernel

theorem tile_mem : tile.memReady [Ident.tile 0] 16 := Exists.intro 0 (by decide +kernel)

/-- AluOperations, BranchesAndJumps, ControlInstructions (its first clauses). -/
theorem witness_scalar : tile.settled ∧ tile.ready (.tile 0) ∧ tile.plain (coreKey bad) ∧ coreEncoded bad = false
    ∧ tile.hasHandler (coreKey bad) ∧ tile.gp 0 1 = false ∧ tile.gp 0 2 = false
    ∧ isZelfaCore (.tile 0) = false ∧ (tile.core 0).cpBusy = none ∧ (tile.gv 0 1).toNat % 4 = 0 := by
  unfold State.settled State.ready State.plain State.hasHandler; decide +kernel

/-- LoadsReadMemory and StoresWriteMemory, at an offset and at a 32-bit immediate. -/
theorem witness_loads : tile.settled ∧ tile.ready (.tile 0) ∧ tile.gp 0 1 = false ∧ tile.gp 0 2 = false
    ∧ (tile.gv 0 1 + (0 : BitVec 15).signExtend 32).toNat % 4 = 0
    ∧ tile.memReady [coreIdent (.tile 0)] (tile.gv 0 1 + (0 : BitVec 15).signExtend 32).toNat
    ∧ (tile.gv 0 1 + (-8 : Word)).toNat % 4 = 0 ∧ tile.memReady [coreIdent (.tile 0)] (tile.gv 0 1 + (-8 : Word)).toNat :=
  ⟨tile_ready.1, ⟨rfl, tile_ready.2.1⟩, tile_ready.2.2.2.1, tile_ready.2.2.2.2, by decide +kernel,
    Exists.intro 0 (by decide +kernel), by decide +kernel, Exists.intro 0 (by decide +kernel)⟩

/-- RefusedStoreTakesAccess: bank 1 is SYSTEM's. -/
theorem witness_refused : tile.settled ∧ tile.plain 0 ∧ tile.handles 0 ∧ tile.gp 0 1 = false ∧ tile.gp 0 2 = false
    ∧ (0x10000 : Word).toNat % 4 = 0 ∧ bankOf 0x10000 = some 1 ∧ tile.bankFenced 1 = false
    ∧ (tile.setCore 0 { core0 with g := [(1, 0x10000)] }).gv 0 1 = 0x10000
    ∧ (tile.setCore 0 { core0 with g := [(1, 0x10000)] }).accepts 1 [Ident.tile 0] = false := by
  unfold State.settled State.plain State.handles; decide +kernel

/-- RepAndLoop: counts at the ends of their ranges, an ADD under REP, and the last instruction of a body. -/
theorem witness_repLoop : tile.settled ∧ tile.ready (.tile 0)
    ∧ (let s := tile.setCore 0 { core0 with g := [(1, 65535), (2, 16777215)] }
       s.ready (.tile 0) ∧ s.gp 0 1 = false ∧ (s.gv 0 1).toNat ≤ 65535 ∧ (s.gv 0 2).toNat ≤ 16777215)
    ∧ (let s := tile.setCore 0 { core0 with rep := some (3, 0xFC) }
       coreEncoded (.tile 0) = true ∧ (s.core 0).state = 1 ∧ (s.core 0).rep = some (3, 0xFC) ∧ (s.core 0).mtc = none ∧ (s.core 0).lc = 0
        ∧ (s.core 0).haltPend = false ∧ (1 : Fin 32).val ≠ 0 ∧ (1 : Fin 32) ≠ 2)
    ∧ (let x := ({ core0 with lc := 2, ls := 0x100, le := 0x104 } : Core)
       x.state = 1 ∧ x.rep = none ∧ x.mtc = none ∧ x.lc ≠ 0 ∧ x.ls.toNat ≤ x.pc.toNat ∧ x.pc.toNat < x.le.toNat
        ∧ x.pc + 4 = x.le) := by
  unfold State.settled State.ready State.plain; decide +kernel

/-- A Zelfa core with a handler. -/
def zelfa : State := State.reset.setCore 192 { Core.init with state := 1, pc := 0x20000000, tvec := 0x20000040, zien := 0x040 }

/-- CsrsReadAndWrite: a writable number, a readable one, and an unlisted one on a Zelfa core. -/
theorem witness_csrs : tile.settled ∧ tile.ready (.tile 0) ∧ tile.gp 0 1 = false
    ∧ ((tile.core 0).putCsr 0 0x001 (tile.gv 0 1)).isSome = true ∧ (0x001 : Nat) ∈ sharedCsrs
    ∧ (tile.csr 0 0x001 false).isSome = true ∧ zelfa.settled ∧ zelfa.ready (.zelfa 0) ∧ zelfa.csr 192 0xFFF true = none
    ∧ (zelfa.csr 192 0x00A false).isSome = true ∧ ((zelfa.core 192).putCsr 192 0x00A 0).isNone = true
    ∧ zelfa.hasHandler 192 := by
  unfold State.settled State.ready State.plain State.hasHandler sharedCsrs; decide +kernel

/-- A template of one DSP stage, and a job of it with that stage running on tile 0. -/
def tpl0 : Template := { dl := false, extraPasses := 0, profileMask := 255, jobDlOff := 1000000, pMin := [], pMax := [],
                         carrierSet := 0, cands := [[0]], stages := [{ StageT.none with cls := 0, dlOff := 900000 }] }

def stage0 : Stage := { Stage.none with st := .running, cost := 100, lo := 4, hi := 8, frags := [(8, 100)] }

def job0 : Job :=
  { tag := 0x12345678, jq := 0, cq := 0, irq := false, templateNo := 0, t := tpl0, w := 50000, carrier := 0, params := []
    args := [], inAddr := 0, inLen := 0, outAddr := 0, outLen := 0, flowEn := false, flow := 0, seq := 0, tg := 0, order := 0
    stages := [stage0], recorded := false, closed := false, begun := false, faultSeen := false, overrunSeen := false
    cancelSeen := false, missingSeen := false, missStage := 0, missFlags := 0, missTick := 0, results := [], resultBy := [], outWritten := 0
    clipped := false, cancelId := none, reached := 0, recBin := none, moved := [] }

/-- Tile 0 runs stage 0 of job 0. -/
def jobTile : State := tile.setJob 0 (some job0)

/-- ControlInstructions: SETRES in a job. -/
theorem witness_control : jobTile.settled ∧ jobTile.ready (.tile 0) ∧ isZelfaCore (.tile 0) = false ∧ jobTile.gp 0 1 = false
    ∧ jobTile.job (jobTile.core 0).job = some job0 := by
  unfold State.settled State.ready State.plain; decide +kernel

/-- CoreExceptions: BRK with and without a handler, CPDONE, and source 6 of a Zelfa core. -/
theorem witness_exceptions : tile.settled ∧ tile.plain 0 ∧ tile.handles 0
    ∧ ((tile.setCore 0 { core0 with tvec := 0 }).core 0).tvec = 0
    ∧ (let s := tile.setCore 0 { core0 with cpDonePend := true, ien := 1 }
       s.settled ∧ s.plain 0 ∧ s.handles 0 ∧ (s.core 0).cpDonePend = true ∧ (s.core 0).ien.getLsbD 0 = true)
    ∧ (let s := zelfa.setReg Addr.hxEvtCause 1
       s.settled ∧ s.plain 192 ∧ s.handles 192 ∧ (s.core 192).zien.getLsbD 6 = true ∧ bitOf s.zPending 6 = true) := by
  unfold State.settled State.plain State.handles; decide +kernel

/-- Memory that nothing has disturbed. -/
theorem good (s : State) (h1 : s.banks.flips = []) (h2 : s.banks.stuckMask = []) : cellsGood s := by
  intro w; rw [h1, h2]; exact ⟨rfl, rfl⟩

/-- CoprocessorOperations: an idle coprocessor, and an operation under way, one of them failed. -/
theorem witness_coprocessor : tile.settled ∧ tile.plain 0 ∧ tile.gp 0 1 = false ∧ (tile.core 0).cpBusy = none
    ∧ cellsGood tile ∧ (∀ n, n < 8 → tile.pendingHandover ((0 : Fin 192).val / 8 * 256 + 8 * ((0 : Fin 192).val % 8) + n) = false)
    ∧ (let s := tile.setCore 0 { core0 with cpBusy := some ⟨1, 1, 0, [], false⟩ }
       s.settled ∧ cellsGood s ∧ (s.core 0).cpBusy = some ⟨1, 1, 0, [], false⟩) :=
  ⟨tile_ready.1, tile_ready.2.1, tile_ready.2.2.2.1, by decide +kernel, good _ rfl rfl, by decide +kernel, by
    unfold State.settled; decide +kernel, good _ rfl rfl, by decide +kernel⟩

/-! ### Vector instructions -/

def op (vd vs1 vs2 : Fin 32) (k : Fin 4) (men : Bool) : VArith := ⟨vd, vs1, vs2, k, true, false, men, 0, none⟩

theorem tile_vec : vecReady tile (.tile 0) := by
  unfold vecReady State.settled State.ready State.plain; decide +kernel

/-- VectorElements and VectorAccumulates: operands in registers, in G1 and in memory, plain and under a mask. -/
theorem witness_vecElements : vecReady tile (.tile 0) ∧ op2Ready tile (.tile 0) (op 3 1 2 0 false) core0.vt
    ∧ op2Ready tile (.tile 0) (op 3 1 1 1 true) core0.vt ∧ op2Ready tile (.tile 0) (op 3 1 1 3 false) core0.vt
    ∧ (3 : Fin 32).val % core0.vt.g = 0 ∧ core0.vt.g ≠ 8 ∧ (4 : Fin 32).val % (2 * core0.vt.g) = 0 ∧ (!core0.vt.int32) = true := by
  refine ⟨tile_vec, ?_, ?_, ?_, by decide +kernel⟩
  · unfold op2Ready; exact ⟨by decide +kernel, by decide +kernel, by decide +kernel, fun h => absurd h (by decide +kernel)⟩
  · unfold op2Ready; exact ⟨by decide +kernel, by decide +kernel, by decide +kernel, fun h => absurd h (by decide +kernel)⟩
  · unfold op2Ready
    exact ⟨by decide +kernel, by decide +kernel, by decide +kernel, fun _ => ⟨rfl, by decide +kernel, by decide +kernel,
      Exists.intro 0 (by decide +kernel)⟩⟩

/-- A tile whose elements are complex: VCMULQ and VCONJ. -/
theorem witness_complex : vecReady (tile.setCore 0 { core0 with vtype := 3 }) (.tile 0)
    ∧ ({ core0 with vtype := 3 } : Core).vt.cplx = true := by
  unfold vecReady State.settled State.ready State.plain; decide +kernel

/-- VectorOneOperand: VABS, VWCVT and VNRW. -/
theorem witness_oneOperand : vecReady tile (.tile 0) ∧ (op 3 1 0 0 false).k = 0 ∧ (op 3 1 0 0 false).vs2 = 0
    ∧ (3 : Fin 32).val % core0.vt.g = 0 ∧ core0.vt.g ≠ 8 ∧ core0.vt.int32 = false ∧ (4 : Fin 32).val % (2 * core0.vt.g) = 0
    ∧ (4 + 2 * core0.vt.g ≤ 6) ∧ (15 : Fin 32).val < 2 * core0.vt.pw :=
  ⟨tile_vec, by decide +kernel⟩

/-- MaskResults: clean operands, a set bit below vl, and none. -/
theorem witness_masks : vecReady tile (.tile 0) ∧ op2Ready tile (.tile 0) (op 3 1 2 0 false) core0.vt
    ∧ (∀ i ∈ core0.vt.indices, core0.active false 0 i = true →
        core0.vpois 1 core0.vt.w i = false ∧ (op2Val tile 0 (op 3 1 2 0 false) core0.vt.w i).2 = false)
    ∧ (∀ j, (decide (core0.vstart.toNat ≤ j) && decide (j < core0.vl.toNat) && (core0.mreg 0).getLsbD j) = false)
    ∧ core0.vstart = 0 ∧ (let co := ({ core0 with vstart := 1 } : Core); co.vstart ≠ 0 ∧ co.vl.toNat ≤ co.vstart.toNat)
    ∧ (let co := ({ core0 with masks := [(0, 1)] } : Core)
       (decide (co.vstart.toNat ≤ 0) && decide (0 < co.vl.toNat) && (co.mreg 0).getLsbD 0) = true) := by
  refine ⟨tile_vec, ?_, by decide +kernel, ?_, by decide +kernel⟩
  · unfold op2Ready; exact ⟨by decide +kernel, by decide +kernel, by decide +kernel, fun h => absurd h (by decide +kernel)⟩
  · intro j
    have h : core0.mreg 0 = 0 := by decide +kernel
    rw [h]; simp

/-- VectorLengthAndClear. -/
theorem witness_length : vecReady tile (.tile 0) ∧ core0.vstart = 0 ∧ tile.gp 0 1 = false ∧ (3 : Fin 32).val % core0.vt.g = 0
    ∧ (8 : Fin 32).val ∈ [1, 2, 4, 8] ∧ (24 : Fin 32).val % 8 = 0 :=
  ⟨tile_vec, by decide +kernel⟩

/-- BlockFloatingPoint: all elements zero, so the smallest EXP is w − 1. -/
theorem witness_blocks : vecReady tile (.tile 0) ∧ wholeSegments core0 ∧ op2Ready tile (.tile 0) (op 3 1 2 0 false) core0.vt
    ∧ isBlockMin core0.vt (((List.range core0.vt.vl).filter (core0.active false 0)).map fun i => core0.velem 1 core0.vt.w i) 7
    ∧ (∀ j, isBlockMin core0.vt ((segOf core0.vseg.toNat j).map fun i => core0.velem 1 core0.vt.w i) 7)
    ∧ (8 : BitVec 6).toNat ≤ core0.vt.pw := by
  refine ⟨tile_vec, by unfold wholeSegments; decide +kernel, witness_vecElements.2.1, by unfold isBlockMin; decide +kernel, ?_,
    by decide +kernel⟩
  intro j
  have hv : ∀ i, core0.velem 1 core0.vt.w i = 0 := by
    intro i
    have : core0.vreg (1 + i * core0.vt.w / 1024) = 0 := rfl
    unfold Core.velem; rw [this]; simp
  unfold isBlockMin
  refine ⟨by decide +kernel, ?_, Or.inl (by decide +kernel)⟩
  intro v hm
  obtain ⟨i, -, rfl⟩ := List.mem_map.1 hm
  rw [hv]
  decide +kernel

/-- PackAndUnpack: one segment of one element, fields of 8 bits, with and without elements. -/
theorem witness_pack : vecReady tile (.tile 0) ∧ wholeSegments core0 ∧ (7 : Fin 32).val + 1 ≤ core0.vt.pw
    ∧ core0.vt.vl / core0.vseg.toNat * segBytes core0.vt true 8 core0.vseg.toNat ≤ 128 * core0.vt.g ∧ core0.vt.vl ≠ 0
    ∧ (∀ b, b < 8 → streamBit core0 1 (fieldAt core0.vt 1 true 8 0 0 + b) = (0 : Nat).testBit (7 - b))
    ∧ ({ core0 with vl := 0 } : Core).vt.vl = 0 ∧ wholeSegments { core0 with vl := 0 } :=
  ⟨tile_vec, by unfold wholeSegments; decide +kernel⟩

/-- VectorPermutesAndReductions: slides by G3 = 1, ZIP of two elements, UNZIP, REV, the reductions and the moves. -/
def pair : Core := { core0 with vl := 2, g := [(3, 1)] }

theorem witness_permutes : vecReady (tile.setCore 0 pair) (.tile 0) ∧ pair.vstart = 0 ∧ (4 : Fin 32).val % pair.vt.g = 0
    ∧ (tile.setCore 0 pair).gp 0 3 = false ∧ pair.vt.vl % 2 = 0 ∧ (4 + pair.vt.g ≤ 6) ∧ (1 : Fin 32).val < 2 ∧ pair.vt.cplx = false
    ∧ (∀ v ∈ ((List.range pair.vt.vl).filter (pair.active false 0)).map fun i => toSigned pair.vt.w (pair.velem 6 pair.vt.w i),
        v ≤ (0 : Int))
    ∧ (0 : Int) ∈ ((List.range pair.vt.vl).filter (pair.active false 0)).map fun i => toSigned pair.vt.w (pair.velem 6 pair.vt.w i) := by
  unfold vecReady State.settled State.ready State.plain; decide +kernel

/-- Through G1 without post-update, and through generator AG2 with it. -/
def byG1 : VMem := ⟨3, 3, false, 1, 0, false, 0⟩
def byAg2 : VMem := ⟨3, 2, true, 1, 0, false, 0⟩

theorem tile_reach (c : VMem) (store : Bool) (hit : Nat → Prop) (n : Nat) (hn : ∀ j, hit j → j < n)
    (h : ∀ j, j < n → bankOf (tile.vmAddr 0 c j) = some 0 ∧ isLocal (.tile 0) (tile.vmAddr 0 c j) 1 = true
      ∧ tile.errMask (tile.vmAddr 0 c j / 8) = 0) : vmReach tile (.tile 0) c store hit := by
  intro j hj
  obtain ⟨h1, h2, h3⟩ := h j (hn j hj)
  exact ⟨Exists.intro 0 ⟨h1, by decide +kernel, by decide +kernel, by decide +kernel, h3⟩, fun _ _ => h2⟩

/-- VectorLoads and VectorStores, with G1 and with a generator, of elements and of a whole mask register. -/
theorem witness_vecMemory : vecReady tile (.tile 0) ∧ vmFields byG1 false ∧ vmFields byG1 true ∧ vmFields byAg2 true
    ∧ vmUsable tile 0 byG1 ∧ vmUsable tile 0 byAg2
    ∧ vmReach tile (.tile 0) byG1 false (fun j => j / (core0.vt.w / 8) ∈ core0.vt.indices.filter (core0.active false 0))
    ∧ vmReach tile (.tile 0) byG1 true (fun j => core0.vstart.toNat ≤ j ∧ j < 128)
    ∧ vmReach tile (.tile 0) byAg2 true (fun j => j < 16) ∧ (tile.gv 0 byAg2.g).toNat = 16 ∧ 16 ≤ 128 * core0.vt.g
    ∧ core0.vt.vl ≠ 0 ∧ core0.vstart = 0 ∧ (∀ j, j < 16 → core0.vpois 3 8 j = false) := by
  refine ⟨tile_vec, by unfold vmFields; decide +kernel, by unfold vmFields; decide +kernel, by unfold vmFields; decide +kernel,
    by unfold vmUsable; decide +kernel, by unfold vmUsable; decide +kernel, ?_, ?_, ?_, by decide +kernel⟩
  · refine tile_reach _ _ _ 1 (fun j hj => ?_) (by decide +kernel)
    have h : core0.vt.indices.filter (core0.active false 0) = [0] := by decide +kernel
    have hw : core0.vt.w / 8 = 1 := by decide +kernel
    rw [h, hw] at hj; simp at hj; omega
  · exact tile_reach _ _ _ 128 (fun j hj => hj.2) (by decide +kernel)
  · exact tile_reach _ _ _ 16 (fun j hj => hj) (by decide +kernel)

/-- VectorLengthAndClear, VectorPermutesAndReductions, VectorLoads and VectorStores in a restart at the end, and with vl = 0. -/
theorem witness_restart : vecReady (tile.setCore 0 { core0 with vstart := 1 }) (.tile 0)
    ∧ (let co := ({ core0 with vstart := 1 } : Core)
       co.vstart ≠ 0 ∧ co.vl.toNat ≤ co.vstart.toNat)
    ∧ vecReady (tile.setCore 0 { core0 with vl := 0 }) (.tile 0) ∧ ({ core0 with vl := 0 } : Core).vt.vl = 0 := by
  unfold vecReady State.settled State.ready State.plain; decide +kernel

/-! ### The block over time, and its registers -/

/-- RUN, with the root PLL locked and Meridian counting. -/
def run : State :=
  let s := (State.reset.fset Addr.pwrMode Fld.pwrModeMode Mode.run).fset Addr.clkStat Fld.clkStatLocked 1
  { s with time := { s.time with counting := true } }

/-- EmptyQueueCountsAnEdge, in both conditions, and StepRunsFront. -/
theorem witness_queue : State.reset.settled ∧ State.reset.pending = [] ∧ State.reset.time.counting = false ∧ run.settled
    ∧ run.pending = [] ∧ run.time.counting = true
    ∧ ({ run with pending := [.fence (.tile 0)] } : State).pending = .fence (.tile 0) :: [] := by
  unfold State.settled; decide +kernel

theorem register_exists (a : Nat) (p : RegSpec → Bool) (h : (regAt a).any p = true) : ∃ r, regAt a = some r ∧ p r = true := by
  cases hr : regAt a with
  | none => rw [hr] at h; cases h
  | some r => rw [hr] at h; exact ⟨r, rfl, h⟩

/-- RegisterAccess: a counter that a Zelfa core, the debug access port and the host reach. -/
theorem witness_registers : ∃ r, State.reset.settled ∧ plainReg State.reset r Addr.tbExpiredCnt 4 ∧ storedReg r
    ∧ (∀ f ∈ r.fields, f.hi < r.width) ∧ (r.mask fun x => x == .rc) = 0xFFFFFFFF
    ∧ r.counter = some ⟨31, 0⟩ ∧ (State.reset.reg Addr.tbExpiredCnt).toNat < 2 ^ 32 ∧ Requester.tile 0 ≠ .host ∧ Requester.host ≠ .dap := by
  obtain ⟨r, hr, h⟩ := register_exists Addr.tbExpiredCnt (fun r => decide (r.width = 32
    ∧ (regWrites.find? fun e => e.1 == r.base) = none ∧ (regViews.find? fun e => e.1 == r.base) = none
    ∧ (regPeaks.find? fun e => e.1 == r.base) = none ∧ (regReads.find? fun e => e.1 == r.base) = none
    ∧ (∀ f ∈ r.fields, f.hi < r.width) ∧ (r.mask fun x => x == .rc) = 0xFFFFFFFF ∧ r.counter = some ⟨31, 0⟩)) (by decide +kernel)
  obtain ⟨h1, h2, h3, h4, h5, h6, h7, h8⟩ := of_decide_eq_true h
  exact ⟨r, rfl, ⟨hr, h1, Or.inl rfl, by decide +kernel, by decide +kernel, h2, by decide +kernel, by decide +kernel⟩,
    ⟨h3, h4, h5⟩, h6, h7, h8, by decide +kernel, by decide, by decide⟩

/-- The link of the host port is up and its memory space is open. -/
def hosted : State :=
  let s := run.fset Addr.hxLinkStat Fld.hxLinkStatUp 1
  { s with host := { s.host with dlActive := true, ready := true, cfg := [(4, 6)] } }

theorem witness_hostReaches : hosted.settled ∧ hosted.hostReaches = true := by
  unfold State.settled; decide +kernel

/-! ### Compass -/

theorem witness_booking : (4096 : Nat) ≤ 4096 ∧ (bookDown 13824 0 4 5 0 200 []).1 = [(8, 200)] := by decide +kernel

/-- Job queue 3 and completion queue 0 are open, a window lies over their rings, and a record waits to be fetched. -/
def queued : State :=
  let s := (hosted.fset (Addr.hxJqCfg 3) Fld.hxJqCfgEn 1).fset (Addr.hxJqCfg 3) Fld.hxJqCfgSize 4
  let s := (s.fset (Addr.hxJqTail 3) Fld.hxJqTailIndex 1).fset (Addr.hxCqCfg 0) Fld.hxCqCfgEn 1
  let s := (s.fset (Addr.hxWinBase 0) Fld.hxWinBaseEn 1).fset (Addr.hxWinBase 0) Fld.hxWinBaseRd 1
  s.fset (Addr.hxWinLimit 0) Fld.hxWinLimitAddr 15

theorem witness_fetch : queued.settled ∧ queued.atsEnable = false ∧ queued.flag (Addr.hxJqCfg 3) Fld.hxJqCfgEn = true ∧ queued.linkUp = true
    ∧ queued.fget (Addr.hxJqHead 3) Fld.hxJqHeadIndex ≠ queued.fget (Addr.hxJqTail 3) Fld.hxJqTailIndex
    ∧ queued.windowOk false (queued.fget (Addr.hxJqBase 3) Fld.hxJqBaseAddr + 128 * 0) 128 = true := by
  unfold State.settled; decide +kernel

/-- A job record for template 1 with its window at 100,000 ns, and the state in which it is served next. -/
def jobRecord (template window : Nat) : Nat := 1 + 256 + template * 2 ^ 16 + 0xABCD * 2 ^ 32 + window * 2 ^ 64
def cancelRecord : Nat := 2 + 256 + 0xABCD * 2 ^ 32 + 0xFFFF * 2 ^ 64

def inbox (r : Nat) : State :=
  { queued with
    cmp := { queued.cmp with inbox := [(3, BitVec.ofNat 1024 r)] }
    img := { queued.img with templates := [(1, some { tpl0 with carrierSet := 1, pMin := [0, 0, 0], pMax := [0, 0, 0] })]
                             classB := List.replicate 12 60000, classF := List.replicate 12 90 } }

/-- The record in the intake is queue 3's, and is served next whatever the powered mode. -/
theorem serves (r m : Nat) (hm : m ∈ [Mode.run, Mode.load, Mode.safe]) :
    let s := (inbox r).fset Addr.pwrMode Fld.pwrModeMode m
    servesNext s 3 (BitVec.ofNat 1024 r) { s with cmp := { s.cmp with inbox := [], lastJq := 3 } } := by
  have e : ((inbox r).fset Addr.pwrMode Fld.pwrModeMode m).cmp.lastJq = 63 := rfl
  refine ⟨?_, rfl, [], [], 3, rfl, by simp, by decide, by rw [e], ?_, rfl⟩
  · have h : ∀ m ∈ [Mode.run, Mode.load, Mode.safe], Mode.idle ≤ ((inbox 0).fset Addr.pwrMode Fld.pwrModeMode m).mode := by
      decide +kernel
    exact h m hm
  · intro p hp
    have : p = (3, BitVec.ofNat 1024 r) := by
      have e : ((inbox r).fset Addr.pwrMode Fld.pwrModeMode m).cmp.inbox = [(3, BitVec.ofNat 1024 r)] := rfl
      rw [e] at hp; simpa using hp
    subst this
    rw [e]; exact (by decide : ∀ m, m < 3 → 3 ≠ (63 + 1 + m) % 64)

/-- RecordsAndAdmission: a record of an unknown type, a job record in LOAD and SAFE, and cancel records, one of them malformed,
are served (`serves`). -/
theorem witness_records : (inbox 0x105).settled ∧ recF 0x105 0 7 0 ≠ 1
    ∧ recF 0x105 0 7 0 ≠ 2 ∧ recF (jobRecord 1 100000) 0 7 0 = 1 ∧ recF cancelRecord 0 7 0 = 2 ∧ recF cancelRecord 1 7 0 = 1
    ∧ reservedAt cancelReserved cancelRecord = none ∧ SMap.wf noJob (inbox cancelRecord).cmp.jobs = true
    ∧ recF 0x0202 0 7 0 = 2 ∧ recF 0x0202 1 7 0 ≠ 1
    ∧ ((inbox (jobRecord 1 100000)).fset Addr.pwrMode Fld.pwrModeMode Mode.load).mode = Mode.load
    ∧ ((inbox (jobRecord 1 100000)).fset Addr.pwrMode Fld.pwrModeMode Mode.safe).mode = Mode.safe := by
  unfold State.settled; decide +kernel

/-- A record that is rejected, for its template, and one that is accepted. -/
theorem witness_decisions : goodJobRecord (inbox (jobRecord 1 100000)) (jobRecord 1 100000)
    ∧ ledgersSound (inbox (jobRecord 1 100000)) (jobRecord 1 100000)
    ∧ (inbox (jobRecord 1 100000)).mode = Mode.run
    ∧ (inbox (jobRecord 1 100000)).flag Addr.clkStat Fld.clkStatLocked = true
    ∧ (inbox (jobRecord 2 100000)).decideJob (jobRecord 2 100000) = .reject Rej.template 0 0 0 1 0
    ∧ (match (inbox (jobRecord 1 100000)).decideJob (jobRecord 1 100000) with
       | .accept .. => true
       | .reject .. => false) = true := by
  unfold goodJobRecord ledgersSound; decide +kernel

/-- A cancel whose jobs have all ended. -/
theorem witness_cancelAck : (let c : CancelRec := ⟨0, 0, 0, 0, true, 0, []⟩
    let s : State := { run with cmp := { run.cmp with cancels := [c] } }
    s.settled ∧ s.cmp.cancels = [] ++ c :: [] ∧ ∀ p ∈ c.sel, ∀ j, s.job p.1 = some j → j.order = p.2 → j.closed = true ∨ j.begun = true) :=
  ⟨by unfold State.settled; decide +kernel, rfl, by simp⟩

/-- A job with a pending stage whose flag 0 comes from the timer and flag 1 from the host. -/
def bound : StageT := { StageT.none with cls := 0, evMask := 3, flags := [⟨3, 0, 0, 100⟩, ⟨4, 2, 0, 0⟩] }

def pend (flags : Word) : State := run.setJob 5 (some { job0 with
  t := { tpl0 with stages := [bound] }, stages := [{ stage0 with st := .pending, flags := flags }] })

theorem witness_ready : (pend 3).settled ∧ ((pend 3).job 5).isSome = true ∧ (pend 0).job 6 = none ∧ (bound.bind 2).source ≠ Src.timer ∧ ((3 : Word) &&& 3 = 3) ∧ (pend 0).settled
    ∧ ((0 : Word) &&& 3 ≠ 3) ∧ (bound.bind 0).source = Src.timer ∧ (bound.bind 1).source = Src.host ∧ (bound.bind 1).arg0 = 2
    ∧ (0x56781005 : Word).toNat % 2048 = 5 ∧ job0.tag.toNat % 65536 = (0x56781005 : Word).toNat / 65536
    ∧ (bound.bind 1).arg0 = (0x56781005 : Word).toNat / 2048 % 8 ∧ (pend 0).job ((0x56781006 : Word).toNat % 2048) = none
    ∧ job0.tag.toNat % 65536 ≠ (0x00001005 : Word).toNat / 65536 := by
  unfold State.settled; decide +kernel

/-- A READY stage of tile 0 with this cost, and the job that holds it beside its final stage. -/
def readyStage (cost : Nat) : Stage := { stage0 with st := .ready, cost := cost }
def readyJob (cost : Nat) : Job := { job0 with t := { tpl0 with stages := [StageT.none, StageT.none] }
                                               stages := [readyStage cost, { stage0 with st := .pending }] }
def ready (cost : Nat) : State := run.setJob 0 (some (readyJob cost))

theorem ready_only (cost h : Nat) (j : Job) (e : (ready cost).job h = some j) : h = 0 ∧ j = readyJob cost := by
  have hj : (ready cost).job h = SMap.get noJob [(0, some (readyJob cost))] h := rfl
  rw [hj] at e
  unfold SMap.get at e
  split at e
  · rename_i h0; exact ⟨h0, (Option.some.inj e).symm⟩
  · simp [SMap.get, noJob] at e

/-- DispatchSelectsEarliest: with a cost and without. -/
theorem witness_dispatch (cost : Nat) : comesFirst (ready cost) 0 0 0 (readyJob cost) (readyStage cost)
    ∧ (ready cost).settled ∧ (ready cost).running 0 = none ∧ SMap.wf noJob (ready cost).cmp.jobs = true ∧ (ready cost).cmp.calBad = []
    ∧ (ready cost).tileAsleep stage0.cls stage0.inst = false ∧ ((ready cost).core 0).state ≠ 3 ∧ (readyJob cost).closed = false
    ∧ (readyJob cost).recorded = false ∧ 0 ≠ (readyJob cost).final ∧ (readyStage 0).cost = 0 ∧ (readyStage 7).cost ≠ 0 := by
  have hr : run.tileAsleep 0 0 = false ∧ (run.core 0).state ≠ 3 := by decide +kernel
  refine ⟨⟨rfl, rfl, rfl, rfl, ?_⟩, rfl, rfl, rfl, rfl, hr.1, hr.2, rfl, rfl, (by decide : 0 ≠ 1), rfl, by decide⟩
  intro h' k' j' x' hj hx _ hr hne
  obtain ⟨rfl, rfl⟩ := ready_only cost h' j' hj
  match k' with
  | 0 => exact absurd rfl hne
  | 1 => cases hx; cases hr
  | n + 2 => cases hx

/-- Stage 0 of class cls runs on calendar 0; stage 1 is the final one. -/
def runs2 (cls : Nat) : State :=
  let t := { tpl0 with stages := [{ StageT.none with cls := cls }, StageT.none] }
  ((jobTile.setJob 0 (some { job0 with t := t, stages := [{ stage0 with cls := cls }, { stage0 with st := .pending }] })).setRunning
    0 (some (0, 0))).setEngineDone 0 true

theorem witness_complete : (∀ cls ∈ [0, 1, 2, 9, 10], (runs2 cls).settled ∧ (runs2 cls).cmp.calBad = [] ∧ (runs2 cls).running 0 = some (0, 0)
      ∧ ((runs2 cls).job 0).all (fun j => decide (0 ≠ j.final)) = true)
    ∧ ((runs2 1).core 0).cpBusy = none ∧ (runs2 2).engineDone 0 = true ∧ (runs2 9).engineDone 0 = true ∧ (runs2 10).lq 0 = []
    ∧ ((runs2 0).core 0).state = 1 ∧ ((runs2 0).core 0).job = 0 ∧ ((runs2 0).core 0).stage = 0 ∧ (runs2 0).plain 0
    ∧ (runs2 0).gp 0 3 = false ∧ (runs2 0).gv 0 3 = 0 := by
  unfold State.settled State.plain; decide +kernel

/-- JobsEnd: a stage at its budget, a cancel on its way to dispatchers 0 and 4, and a flow with a hole before its item. -/
theorem witness_jobsEnd : (runs2 0).settled ∧ ((runs2 0).job 0).isSome = true ∧ stage0.st = .running ∧ stage0.cls ≠ 10
    ∧ job0.dispatchers &&& ~~~(0x10 ||| BitVec.ofNat 5 (2 ^ 0)) = 0
    ∧ job0.dispatchers &&& ~~~(0 ||| BitVec.ofNat 5 (2 ^ 0)) ≠ 0
    ∧ (let i : FlowItem := ⟨1, 0, 0, true, false⟩
       let s := (runs2 0).setFlow 7 { (runs2 0).flow 7 with items := [⟨0, 9, 0, false, true⟩, i] }
       s.settled ∧ (s.flow 7).items = [⟨0, 9, 0, false, true⟩] ++ i :: [] ∧ i.hole = false ∧ i.handle = 0 ∧ (s.flow 7).parityOk = true)
    ∧ (let u := (runs2 0).fset Addr.pwrMode Fld.pwrModeMode Mode.run
       let s := { u with cmp := { u.cmp with flows := [(7, { Flow.init with parity := true })] } }
       s.settled ∧ (s.flow 7).parityOk = false ∧ s.mode = Mode.run)
    ∧ (runs2 0).cmp.calBad = [] := by
  unfold State.settled; decide +kernel

/-- CalendarsAndSnapshots: cluster 0 in IDLE with a booking ahead. -/
theorem witness_calendars : run.settled ∧ run.time.counting = true ∧ SMap.wf noFill run.cmp.cal = true
    ∧ SMap.wf noFill run.cmp.hist = true ∧ (0x80000000 : Word).getLsbD 31 = true ∧ run.cmp.calBad = []
    ∧ (let s := ({ run with cmp := { run.cmp with calBad := [(calKey 0 5, true)] } } : State)
       s.settled ∧ s.mode = Mode.run ∧ s.calParityBad ((0x80000040 : Word).toNat / 2 ^ 19 % 1024) ((0x80000040 : Word).toNat / 128 % 4096 + 5) = true
        ∧ (0x80000040 : Word).toNat % 128 = 64 ∧ (0x80000040 : Word).getLsbD 31 = true)
    ∧ (let s := ({ run with cmp := { run.cmp with cal := calSet [] 0 5 10 } } : State).setClusterIdle 0 true
       s.settled ∧ s.clusterIdle 0 = true ∧ s.nextBooking 0 = some 5) := by
  unfold State.settled; decide +kernel


/-! ### Engines and chains -/

/-- Descriptor fields that every class has: the areas lie in bank 64 of cluster memory, the soft buffer in bank 65. -/
def descBase (op version status aux : Nat) : Nat :=
  recP 0 0 op + recP 1 0 version + recP 8 0 0x10001000 + recP 0x10 0 0x10002000 + recP 0x18 0 aux + recP 0x20 0 status

/-- One LDPC block of 44 bits with a soft buffer. -/
def ldpc (version status : Nat) : Nat :=
  descBase 1 version status 0x10010000 + recP 2 2 1 + recP 0x28 0 2 + recP 0x2A 0 1 + recP 0x2B 4 1 + recP 0x2C 0 1
    + recP 0x2E 0 1 + recP 0x30 0 100 + recP 0x34 0 100 + recP 0x38 0 132

/-- COEF_LOAD into a bank, and RUN of 4 samples from line index 0. -/
def coefLoad (target : Nat) : Nat :=
  recP 0 0 0x41 + recP 1 0 1 + recP 8 0 0x10001000 + recP 0x20 0 0x10000040 + recP 0x2C 0 target
def sdcRun : Nat := descBase 0x40 1 0x10000040 0 + recP 4 0 4 + recP 0x28 0 64

/-- Stage 0 of a job runs on instance q, which owns bank 64, with its descriptor d at the address arg; SYSTEM 0's HARQ
owns bank 65. -/
def engine (q : Nat) (arg : Word) (d : Nat) : State :=
  let s := run.setReg (ownerReg 64) (BitVec.ofNat 64 (Machine.Ident.code (instIdent (classOf q) (instOf q))))
  let s := s.setReg (ownerReg 65) (BitVec.ofNat 64 (Machine.Ident.code (Ident.harq (sectorOf q))))
  let j := { job0 with args := [arg], stages := [{ stage0 with cls := classOf q, q := q }] }
  let s := (s.setJob 0 (some j)).setRunning q (some (0, 0))
  { s with banks := (List.range 64).foldl (fun b i => b.setByte (0x10000000 + i) (BitVec.ofNat 8 (d / 256 ^ i))) s.banks }

def engineJob (q : Nat) (arg : Word) : Job :=
  { job0 with args := [arg], stages := [{ stage0 with cls := classOf q, q := q }] }

theorem engine_at (q d : Nat) (h : (engine q 0x10000000 d).engineStage q = some (0, 0, engineJob q 0x10000000))
    (hs : (engine q 0x10000000 d).plb.raised = []) (hf : (engine q 0x10000000 d).banks.flips = [])
    (hm : (engine q 0x10000000 d).banks.stuckMask = []) (hp : (engine q 0x10000000 d).banks.poison = [])
    (hr : bankOf 0x10000000 = some 64 ∧ (engine q 0x10000000 d).accepts 64 [instIdent (classOf q) (instOf q)] = true
      ∧ (engine q 0x10000000 d).pendingHandover 64 = false ∧ (engine q 0x10000000 d).bankFenced 64 = false
      ∧ (engine q 0x10000000 d).errMask (0x10000000 / 8) = 0) :
    engineAt (engine q 0x10000000 d) q 0 0 (engineJob q 0x10000000) 0x10000000 :=
  ⟨hs, good _ hf hm, h, rfl, by decide, Exists.intro 64 hr, fun w _ => by unfold State.poisoned; rw [hp]; rfl⟩

theorem near_banks {x key : Nat} (lo : 0x10000000 ≤ x) (hi : x < 0x10020000) (h : bankOf x = some key) : key = 64 ∨ key = 65 := by
  have e : bankOf x = some ((x - 0x10000000) / 0x800000 * 256 + 64 + (x - 0x10000000) / 0x10000 % 128) := by
    unfold bankOf
    rw [if_neg (by omega), if_pos (by omega)]
  rw [e] at h
  have := Option.some.inj h
  omega

theorem engine_quiet (s : State) (d : Desc)
    (h : ∀ p ∈ [(Desc.inAddr d, Desc.inLen d), (Desc.outAddr d, Desc.outLen d), (Desc.statusAddr d, 64), (Desc.auxAddr d, Desc.auxLen d)],
      p.2 = 0 ∨ 0x10000000 ≤ p.1 ∧ p.1 + p.2 ≤ 0x10020000)
    (hb : ∀ k ∈ [64, 65], s.pendingHandover k = false ∧ s.bankFenced k = false) : engineQuiet s d := by
  intro p hp x key lo hi hk
  have hp := h p hp
  rcases near_banks (by omega) (by omega) hk with rfl | rfl
  · exact hb _ (by simp)
  · exact hb _ (by simp)

/-- No word is poisoned, so the first block is read clean. -/
theorem block_clean (s : State) (d : Desc) (h : 0 < Desc.blocks d) (hp : s.banks.poison = []) : someBlockClean s d :=
  ⟨0, h, fun x _ _ => by unfold State.poisoned; rw [hp]; rfl⟩

/-- EnginesRunDescriptors: an LDPC decode that passes its checks and may lock its soft buffer, one with a bad version, one
with its status block out of line, a polar encode met by a decode, and a descriptor out of line. -/
theorem witness_engines : engineRow (.ldpcDecode 0 none) (calIndex 3 0) 1
    ∧ engineAt (engine 400 0x10000000 (ldpc 1 0x10000040)) 400 0 0 (engineJob 400 0x10000000) 0x10000000
    ∧ (let s := engine 400 0x10000000 (ldpc 1 0x10000040)
       let d : Desc := s.memVal 0x10000000 64
       s.statusOk ⟨400, 0, 0, 0, d, 0⟩ = true ∧ Desc.op d = 1 ∧ s.descCheck 400 0x10000000 d = 0 ∧ Desc.sbEn d = true
        ∧ s.lockFree 400 (Desc.auxAddr d) = true)
    ∧ (∀ x ∈ [(1, 0x10000040), (0, 0x10000040), (1, 0x10000050)], let s := engine 400 0x10000000 (ldpc x.1 x.2)
       engineQuiet s (s.memVal 0x10000000 64))
    ∧ (let s := engine 400 0x10000000 (ldpc 1 0x10000040)
       someBlockClean s (s.memVal 0x10000000 64))
    ∧ engineAt (engine 400 0x10000000 (ldpc 0 0x10000040)) 400 0 0 (engineJob 400 0x10000000) 0x10000000
    ∧ (let s := engine 400 0x10000000 (ldpc 0 0x10000040)
       s.descCheck 400 0x10000000 (s.memVal 0x10000000 64) ≠ 0)
    ∧ engineAt (engine 400 0x10000000 (ldpc 1 0x10000050)) 400 0 0 (engineJob 400 0x10000000) 0x10000000
    ∧ (let s := engine 400 0x10000000 (ldpc 1 0x10000050)
       s.statusOk ⟨400, 0, 0, 0, s.memVal 0x10000000 64, 0⟩ = false)
    ∧ engineRow (.polarDecode 0 none) (calIndex 5 0) 3
    ∧ engineAt (engine 464 0x10000000 (descBase 4 1 0x10000040 0)) 464 0 0 (engineJob 464 0x10000000) 0x10000000
    ∧ (let s := engine 464 0x10000000 (descBase 4 1 0x10000040 0)
       let d : Desc := s.memVal 0x10000000 64
       s.statusOk ⟨464, 0, 0, 0, d, 0⟩ = true ∧ Desc.op d ≠ 3 ∧ (classOps (classOf 464)).contains (Desc.op d) = true)
    ∧ (let s := engine 464 0x10000000 (descBase 4 1 0x10000040 0)
       engineQuiet s (s.memVal 0x10000000 64))
    ∧ (let s := engine 400 0x10000020 0
       s.plb.raised = [] ∧ s.engineStage 400 = some (0, 0, engineJob 400 0x10000020)
        ∧ ((engineJob 400 0x10000020).args.getD ((engineJob 400 0x10000020).stageT 0).descArg 0).toNat % 64 ≠ 0) :=
  ⟨Or.inl ⟨0, rfl, rfl, rfl⟩,
    engine_at _ _ (by decide +kernel) (by decide +kernel) (by decide +kernel) (by decide +kernel) (by decide +kernel) (by decide +kernel),
    by decide +kernel,
    by
      intro x hx
      refine engine_quiet _ _ ?_ ?_
      · exact (by decide +kernel : ∀ x ∈ [(1, 0x10000040), (0, 0x10000040), (1, 0x10000050)], let d : Desc := (engine 400 0x10000000 (ldpc x.1 x.2)).memVal 0x10000000 64
          ∀ p ∈ [(Desc.inAddr d, Desc.inLen d), (Desc.outAddr d, Desc.outLen d), (Desc.statusAddr d, 64), (Desc.auxAddr d, Desc.auxLen d)],
            p.2 = 0 ∨ 0x10000000 ≤ p.1 ∧ p.1 + p.2 ≤ 0x10020000) x hx
      · exact (by decide +kernel : ∀ x ∈ [(1, 0x10000040), (0, 0x10000040), (1, 0x10000050)], ∀ k ∈ [64, 65],
          (engine 400 0x10000000 (ldpc x.1 x.2)).pendingHandover k = false ∧ (engine 400 0x10000000 (ldpc x.1 x.2)).bankFenced k = false) x hx,
    block_clean _ _ (by decide +kernel) (by decide +kernel),
    engine_at _ _ (by decide +kernel) (by decide +kernel) (by decide +kernel) (by decide +kernel) (by decide +kernel) (by decide +kernel),
    by decide +kernel,
    engine_at _ _ (by decide +kernel) (by decide +kernel) (by decide +kernel) (by decide +kernel) (by decide +kernel) (by decide +kernel),
    by decide +kernel,
    Or.inr (Or.inr (Or.inr (Or.inl ⟨0, Or.inl ⟨rfl, rfl, rfl⟩⟩))),
    engine_at _ _ (by decide +kernel) (by decide +kernel) (by decide +kernel) (by decide +kernel) (by decide +kernel) (by decide +kernel),
    by decide +kernel, engine_quiet _ _ (by decide +kernel) (by decide +kernel), by decide +kernel⟩

theorem witness_chains : engineAt (engine 552 0x10000000 sdcRun) (calIndex 9 0) 0 0 (engineJob 552 0x10000000) 0x10000000
    ∧ (let s := engine 552 0x10000000 sdcRun
       let d : Desc := s.memVal 0x10000000 64
       s.statusOk ⟨552, 0, 0, 0, d, 0⟩ = true ∧ s.descCheck 552 0x10000000 d = 0 ∧ Desc.op d = 0x40
        ∧ (s.chainT 0).tx = false ∧ (s.chain 0).nextIdx ≤ Desc.lineIdx d (s.chain 0))
    ∧ engineAt (engine 552 0x10000000 (coefLoad 1)) (calIndex 9 0) 0 0 (engineJob 552 0x10000000) 0x10000000
    ∧ (let s := engine 552 0x10000000 (coefLoad 1)
       let d : Desc := s.memVal 0x10000000 64
       s.statusOk ⟨552, 0, 0, 0, d, 0⟩ = true ∧ s.descCheck 552 0x10000000 d = 0 ∧ Desc.op d = 0x41
        ∧ (s.chain 0).coefBusy (Desc.sTarget d) = false)
    ∧ (∀ x ∈ [sdcRun, coefLoad 1, coefLoad 0], engineQuiet (engine 552 0x10000000 x) ((engine 552 0x10000000 x).memVal 0x10000000 64))
    ∧ (let s := engine 552 0x10000000 (coefLoad 0)
       let d : Desc := s.memVal 0x10000000 64
       s.statusOk ⟨552, 0, 0, 0, d, 0⟩ = true ∧ s.descCheck 552 0x10000000 d = 0 ∧ (s.chain 0).coefBusy (Desc.sTarget d) = true) :=
  ⟨engine_at 552 _ (by decide +kernel) (by decide +kernel) (by decide +kernel) (by decide +kernel) (by decide +kernel) (by decide +kernel),
    by decide +kernel,
    engine_at 552 _ (by decide +kernel) (by decide +kernel) (by decide +kernel) (by decide +kernel) (by decide +kernel) (by decide +kernel),
    by decide +kernel, by
      intro x hx
      refine engine_quiet _ _ ?_ ?_
      · exact (by decide +kernel : ∀ x ∈ [sdcRun, coefLoad 1, coefLoad 0], let d : Desc := (engine 552 0x10000000 x).memVal 0x10000000 64
          ∀ p ∈ [(Desc.inAddr d, Desc.inLen d), (Desc.outAddr d, Desc.outLen d), (Desc.statusAddr d, 64), (Desc.auxAddr d, Desc.auxLen d)],
            p.2 = 0 ∨ 0x10000000 ≤ p.1 ∧ p.1 + p.2 ≤ 0x10020000) x hx
      · exact (by decide +kernel : ∀ x ∈ [sdcRun, coefLoad 1, coefLoad 0], ∀ k ∈ [64, 65],
          (engine 552 0x10000000 x).pendingHandover k = false ∧ (engine 552 0x10000000 x).bankFenced k = false) x hx,
    by decide +kernel⟩

/-- The coefficients that COEF_LOAD reads lie behind the descriptor and are zero. -/
theorem witness_coefficients : ∀ e, e < 12288 → (engine 552 0x10000000 (coefLoad 1)).memVal (0x10001000 + 4 * e) 4 < 2 ^ 18 := by
  have h : ∀ x, 0x10000040 ≤ x → (engine 552 0x10000000 (coefLoad 1)).byte x = 0 := by
    intro x hx
    have hk : (engine 552 0x10000000 (coefLoad 1)).banks.bytes.all (fun e => decide (e.1 < 0x10000040)) = true := by decide +kernel
    have hg : ∀ m : SMap Byte, m.all (fun e => decide (e.1 < 0x10000040)) = true → SMap.get noByte m x = 0 := by
      intro m
      induction m with
      | nil => intro _; rfl
      | cons e m ih =>
        intro hm
        rw [List.all_cons, Bool.and_eq_true] at hm
        have he : ¬ x = e.1 := by have := of_decide_eq_true hm.1; omega
        obtain ⟨k, v⟩ := e
        unfold SMap.get
        simp only [he, if_false]
        split
        · rfl
        · exact ih hm.2
    exact hg _ hk
  intro e _
  have hv : (engine 552 0x10000000 (coefLoad 1)).memVal (0x10001000 + 4 * e) 4 = leVal [0, 0, 0, 0] := by
    unfold State.memVal
    simp only [List.range, List.range.loop, List.map]
    rw [h _ (by omega), h _ (by omega), h _ (by omega), h _ (by omega)]
  rw [hv]; decide

theorem witness_fade : (let s := { run with chains := [(3, { run.chain 3 with fade := some (true, 2, 2) })] }
    s.settled ∧ (s.chain 3).fade = some (true, 2, 2)) ∧ run.regFenced (sdcShadow 3 0).1 = false
    ∧ run.regFenced (Addr.sdcCommit 3) = false ∧ isZelfa (.zelfa 0) = true ∧ isZelfa (.tile 0) = false
    ∧ (run.fset (Addr.nocFenceStat 28) Fld.nocFenceStatFenced 1).regFenced (Addr.sdcCommit 3) = true := by
  unfold State.settled; decide +kernel

/-! ### Memory tiles -/

/-- A bank in handover, and one whose configuration is open to firmware. -/
def handed : State := tile.fset (ownerReg 0) Fld.memOwnerPending 1

theorem witness_ownership : tile.settled ∧ bankValid 0 = true ∧ tile.regFenced (ownerReg 0) = false
    ∧ tile.pendingHandover 0 = false ∧ tile.flag (ownerReg 0) Fld.memOwnerClearing = false
    ∧ Ident.ownable (Ident.tile 1) = true ∧ Ident.tile 1 ≠ tile.owner 0 ∧ (0 : Fin 8).val < (7 : Fin 8).val
    ∧ Ident.ownable ⟨8, 0⟩ = false ∧ handed.settled ∧ handed.pendingHandover 0 = true ∧ handed.banks.wf = true
    ∧ tile.regFenced (cfgReg 0) = false ∧ tile.rwlOpen = true
    ∧ (tile.fset Addr.pwrMode Fld.pwrModeMode Mode.run).rwlOpen = false := by
  unfold State.settled; decide +kernel

/-- The scrubber of cluster 0 is enabled in RUN; b flips bits of word w of bank 0. -/
def scrubbed (w : Nat) (b : BitVec 80) : State :=
  let s := run.fset (Addr.memScrubCfg 0) Fld.memScrubCfgEn 1
  { s with banks := { s.banks with flips := if b = 0 then [] else [(w, b)] } }

/-- Every bank of cluster 0 has been scrubbed to its end. -/
def lapped : State :=
  let s := (scrubbed 0 0).fset (Addr.memScrubCfg 0) Fld.memScrubCfgMaxLap 1
  let x := s.scrub 0
  { s.setScrub 0 { x with pos := (List.range 192).map fun i => (i, 512) } with
    time := { s.time with runTicks := 1000000 } }

theorem witness_scrubbing : (∀ p ∈ [(0, 0), (3, 1), (3, 3)],
      let s := scrubbed p.1 (BitVec.ofNat 80 p.2)
      s.settled ∧ s.scrubEnabled 0 = true ∧ s.scrubRuns 0 = true ∧ s.scrubPos 0 < 512 ∧ (s.owner 0).kind ≠ 6
        ∧ s.poisoned 3 = false ∧ (∀ w, w < 16 → w ≠ 3 → s.check 0 w = .clean) ∧ s.trkFind 0 3 = none ∧ s.trk 0 31 = none
        ∧ s.flag (cfgReg 0) Fld.memBankCfgCrit = false)
    ∧ (scrubbed 0 0).check 0 3 = .clean ∧ (scrubbed 3 1).check 0 3 = .correctable ∧ (scrubbed 3 3).check 0 3 = .uncorrectable
    ∧ (((scrubbed 3 1).setScrub 0 { (scrubbed 3 1).scrub 0 with writeBacks := [(3, true)] }).scrub 0).writeBacks = [(3, true)]
    ∧ lapped.settled ∧ lapped.scrubEnabled 0 = true ∧ lapped.scrubRuns 0 = true ∧ lapped.lapOver 0 = true
    ∧ lapped.fget (Addr.memScrubCfg 0) Fld.memScrubCfgMaxLap * 491520 < lapped.time.runTicks - (lapped.scrub 0).lapStart
    ∧ remapFree run 24 15 0x801FFFFF ∧ remapFree run 0 0 0x80000000 ∧ remapFree run 0 0 0 ∧ isZelfa (.zelfa 7) = true
    ∧ run.poisoned 0 = false ∧ run.check 0 0 = .clean := by
  unfold State.settled remapFree; decide +kernel

/-! ### Orthogon -/

/-- A packet of operation o, of the requester with code src at router 0, with tag 7, that names 8 bytes at 0x10, and its CRC over
this payload; `st` is the rest of the header. -/
def packetBy (src o st : Nat) (payload : List Byte) : BitVec 256 :=
  let v := BitVec.ofNat 256 (o * 2 ^ 248 + 8 * 2 ^ 240 + 7 * 2 ^ 232 + src * 2 ^ 207 + src * 2 ^ 191 + 0x10 * 2 ^ 143 + st)
  BitVec.ofNat 256 (v.toNat + Pkt.crcOf v payload)

/-- A packet of tile 0, with a payload of zeros where it has one. -/
def packet (o st : Nat) : BitVec 256 := packetBy 0x1000 o st (List.replicate (if o = 1 ∨ o = 0x82 then 0 else 8) 0)

def headFlit : BitVec 56 := 0
def bodyFlit : BitVec 56 := BitVec.ofNat 56 (1 * 2 ^ 54)

/-- Flow 0's packet is under way from input 4 of router 0 to its local port 1. -/
def noced : State := run.setPath (streamKey 0 4 bodyFlit) (some ⟨1, 2, headFlit, 0x1000⟩)

theorem idle_rtr (s : State) (r c : Nat) (h : s.locked = true ∧ s.waiting r = []) (hr : s.noc.resync = []) (hs : s.noc.sent = []) :
    rtrIdle s r c :=
  ⟨h.1, h.2, fun _ => by rw [hr]; rfl, fun _ => by rw [hs]; exact (Nat.succ_ne_zero c).symm⟩

/-- What FlitsFollowTheirRoute asks of the output that a header goes to. -/
def outFree (s : State) (r o : Nat) (h : BitVec 56) : Prop := hasPort r o = true ∧ (Flit.vc h = 0 ∨ s.holder r o (Flit.vc h) = none)

/-- Tile 0 has the tag of its next packet outstanding; tile 0's domain is drained. -/
def taggedOut : State := { run with noc := { run.noc with resv := [⟨Ident.tile 0, 7, 0, 0, 0, 0, false, 0x10, 8⟩] } }
def shutOut : State := (run.setFence 0 0).fset (Addr.nocFenceStat 0) Fld.nocFenceStatDrained 1

/-- FlitsFollowTheirRoute: a flit in transit, one that enters, one of each kind that may not enter, and a data flit. -/
theorem witness_flits : run.settled ∧ rtrIdle run 0 (run.nocCycle 0) ∧ hasPort 0 4 = true ∧ hasPort 0 0 = true
    ∧ Flit.isHead headFlit = true ∧ outFree run 0 (routePort 0 0 (Flit.dest headFlit) (Flit.destPort headFlit) (run.bridgeEn 0)) headFlit
    ∧ (∀ o ∈ [1, 3], let p := packet o 0
       let h := run.injectHdr headFlit p
       outFree run 0 (routePort 0 (Pkt.srcRtr p) (Flit.dest h) (Flit.destPort h) (run.bridgeEn (Flit.epoch h))) h
        ∧ injectDomain p = some 0 ∧ run.drained 0 = false ∧ Pkt.op p = o)
    ∧ run.canReserve (identOf (Pkt.src (packet 1 0))) 0 (Pkt.srcPort (packet 1 0)) (Pkt.tag (packet 1 0)) = true
    ∧ rtrIdle taggedOut 0 (taggedOut.nocCycle 0)
    ∧ taggedOut.canReserve (identOf (Pkt.src (packet 1 0))) 0 (Pkt.srcPort (packet 1 0)) (Pkt.tag (packet 1 0)) = false
    ∧ rtrIdle shutOut 0 (shutOut.nocCycle 0) ∧ shutOut.drained 0 = true
    ∧ noced.settled ∧ rtrIdle noced 0 (noced.nocCycle 0) ∧ Flit.isHead bodyFlit = false
    ∧ noced.path (noced.pathKey 0 4 bodyFlit) = some ⟨1, 2, headFlit, 0x1000⟩ ∧ hasPort 0 1 = true ∧ Flit.vc bodyFlit = 0 := by
  refine ⟨by unfold State.settled; decide +kernel, idle_rtr _ _ _ (by decide +kernel) rfl rfl, by decide, by decide, by decide,
    by unfold outFree; decide +kernel, by unfold outFree; decide +kernel, by decide +kernel,
    idle_rtr _ _ _ (by decide +kernel) rfl rfl, by decide +kernel, idle_rtr _ _ _ (by decide +kernel) rfl rfl, by decide +kernel,
    by unfold State.settled; decide +kernel, idle_rtr _ _ _ (by decide +kernel) rfl rfl, by decide +kernel⟩

/-- A HEAD that waits at input p for output 1, with this VC, PRIO, FLOW and arrival. -/
def waits (p vc prio flow since : Nat) : WaitFlit := ⟨p, 1, Flit.make 0 vc 0 prio 0 1 0 flow, 0, since, false⟩

/-- Slot 0 of output 1 of router 0 is flow 9's; two flits wait. -/
def contended (x y : WaitFlit) : State :=
  { run with noc := { run.noc with wheelAct := [(wheelKey 0 1 0, 0x8009)], wait := [(0, [y, x])] } }

theorem idle_out (s : State) (r o c : Nat) (h : s.noc.sent = []) : SMap.get (fun _ => 0) s.noc.sent (inKey r o) ≠ c + 1 := by
  rw [h]; exact (Nat.succ_ne_zero c).symm

/-- The order of R242: the slot's owner, the lower flow of VC0, VC0 before the others, the greater PRIO, the older flit, VC3
before VC1, VC1 before VC2, and the input after the one served last. -/
def contests : List (WaitFlit × WaitFlit) :=
  [(waits 4 0 0 9 0, waits 5 0 0 3 0), (waits 4 0 0 3 0, waits 5 0 0 4 0), (waits 4 0 0 3 0, waits 5 3 3 0 0),
   (waits 5 2 1 0 0, waits 4 3 0 0 0), (waits 5 3 0 0 0, waits 4 1 0 0 0), (waits 5 1 0 0 0, waits 4 2 0 0 0),
   (waits 4 1 0 0 0, waits 5 1 0 0 0)]

theorem goes_first : ∀ p ∈ contests, goesFirst (contended p.1 p.2) 0 1 ((contended p.1 p.2).nocCycle 0) p.1 p.2 := by
  intro p hp
  simp only [contests, List.mem_cons, List.not_mem_nil, or_false] at hp
  rcases hp with rfl | rfl | rfl | rfl | rfl | rfl | rfl <;> unfold goesFirst <;> simp only [] <;> decide +kernel

theorem witness_contests : ∀ p ∈ contests, (contended p.1 p.2).settled ∧ (contended p.1 p.2).locked = true ∧ hasPort 0 1 = true
    ∧ (contended p.1 p.2).draining = false ∧ (∀ z ∈ (contended p.1 p.2).waiting 0, z.out = 1 ∧ Flit.isHead z.hdr = true ∧ z.deferred = false)
    ∧ (((contended p.1 p.2).waiting 0).map (·.inp)).Nodup ∧ p.1 ∈ (contended p.1 p.2).waiting 0
    ∧ (contended p.1 p.2).waiting 0 = [p.2, p.1] ∧ (∀ vc, vc < 4 → (contended p.1 p.2).holder 0 1 vc = none) := by
  unfold State.settled; decide +kernel

/-- Router 42 has a link to the next compute die; its input there resynchronises in `syncing`. -/
def syncing : State := { run with noc := { run.noc with resync := [(inKey 42 8, true)] } }

/-- A ring packet of one flit. -/
def ringFlit : ChordFlit := ⟨0, packetBy 0x1000 1 0 []⟩

theorem witness_badFlits : run.locked = true ∧ run.waiting 42 = [] ∧ run.draining = false ∧ hasPort 42 8 = true
    ∧ popcount80 ((3 : BitVec 64).setWidth 80) = 2 ∧ run.openPaths 42 8 = [] ∧ SMap.get noFlag run.noc.resync (inKey 42 8) = false
    ∧ syncing.settled ∧ syncing.locked = true ∧ syncing.waiting 42 = [] ∧ syncing.draining = false ∧ Flit.isHead bodyFlit = false
    ∧ SMap.get noFlag syncing.noc.resync (inKey 42 8) = true
    ∧ Pkt.crc ringFlit.lanes = Pkt.crcOf ringFlit.lanes (chordPayload [ringFlit])
    ∧ (0 : Fin 4).val < (chordPath (Pkt.isRsp ringFlit.lanes) 0 1).length ∧ (0 : Fin 4).val ≤ ([] : List ChordFlit).length
    ∧ popcount80 ((1 : BitVec 64).setWidth 80) = 1 ∧ (2 : BitVec 288) = BitVec.ofNat 288 (2 ^ 1) := by
  unfold State.settled; decide +kernel

theorem pkt_at (o : Nat) (h : tile.draining = false ∧ Pkt.bytes (packet o 0) ≠ 0)
    (hb : bankOf (Pkt.addr (packet o 0)) = some 0 ∧ tile.accepts 0 (Pkt.ids (packet o 0)) = true
      ∧ tile.pendingHandover 0 = false ∧ tile.bankFenced 0 = false ∧ tile.errMask (Pkt.addr (packet o 0) / 8) = 0) :
    pktAt tile (packet o 0) :=
  ⟨tile_ready.1, good _ rfl rfl, h.1, h.2, Exists.intro 0 hb⟩

def lentTo (who : Ident) (write : Bool) : Resv := ⟨who, 7, 0, 0, 0, 0, write, 0x10, 8⟩
def lending (s : State) (who : Ident) (write : Bool) : State := { s with noc := { s.noc with resv := [lentTo who write] } }

/-- PacketsAreServed: sound requests of the three operations, one whose CRC fails, and a request to a fenced bank. -/
theorem witness_packets : pktAt tile (packet 1 0) ∧ pktAt tile (packet 2 0) ∧ pktAt tile (packet 3 0)
    ∧ (∀ o ∈ [1, 2, 3, 0x81, 0x82], Pkt.op (packet o 0) = o ∧ Pkt.crcOk 0 (packet o 0) 0 = true ∧ Pkt.crcOk 0 (packet o 0 ^^^ 1) 0 = false)
    ∧ Pkt.hasPayload (packet 1 0 ^^^ 1) = false ∧ Pkt.op (packet 2 0 ^^^ 1) = 2
    ∧ (let s := tile.setFence 0 0
       s.settled ∧ s.draining = false ∧ targetDomain (Pkt.addr (packet 1 0)) = some 0 ∧ s.fenced 0 = true) :=
  ⟨pkt_at 1 (by decide +kernel) (by decide +kernel), pkt_at 2 (by decide +kernel) (by decide +kernel),
    pkt_at 3 (by decide +kernel) (by decide +kernel), by decide +kernel, by decide +kernel, by decide +kernel,
    by unfold State.settled; decide +kernel⟩

/-- Responses: sound, BUSY, and an error to an engine and to tile 0; one whose tag has timed out. -/
theorem witness_responses : (∀ st ∈ [0, 2 ^ 139, 2 * 2 ^ 140], Pkt.op (packet 0x81 st) = 0x81 ∧ Pkt.crcOk 0 (packet 0x81 st) 0 = true
      ∧ Pkt.status (packet 0x81 st) = (if st = 2 * 2 ^ 140 then 2 else 0) ∧ Pkt.busy (packet 0x81 st) = (st == 2 ^ 139)
      ∧ (lending tile (Ident.tile 0) false).resvFor (identOf (Pkt.src (packet 0x81 st))) (Pkt.srcPort (packet 0x81 st)) (Pkt.tag (packet 0x81 st))
          = some (lentTo (Ident.tile 0) false))
    ∧ (lending tile (Ident.tile 0) false).settled ∧ (lending tile (Ident.tile 0) false).draining = false
    ∧ Ident.reissues (Ident.tile 0) = true ∧ (lentTo (Ident.tile 0) false).who.kind = 1
    ∧ (lending tile (Ident.tile 0) false).handles 0 ∧ (lending tile (Ident.tile 0) false).plain 0
    ∧ (let p := packetBy 0x3180 0x82 (3 * 2 ^ 140) []
       let s := lending run ⟨3, 384⟩ true
       s.settled ∧ s.draining = false ∧ Pkt.op p = 0x82 ∧ Pkt.crcOk 0 p 0 = true ∧ Pkt.status p ≠ 0
        ∧ s.resvFor (identOf (Pkt.src p)) (Pkt.srcPort p) (Pkt.tag p) = some (lentTo ⟨3, 384⟩ true) ∧ s.time.counting = true)
    ∧ (let s := { run with noc := { run.noc with expired := [lentTo (Ident.tile 0) false] } }
       s.settled ∧ s.resvFor (identOf (Pkt.src (packet 0x81 0))) (Pkt.srcPort (packet 0x81 0)) (Pkt.tag (packet 0x81 0)) = none
        ∧ s.noc.expired.find? (fun r => r.who == Ident.tile 0 && r.port == Pkt.srcPort (packet 0x81 0) && r.tag == Pkt.tag (packet 0x81 0))
            = some (lentTo (Ident.tile 0) false)) := by
  unfold State.settled State.handles State.plain; decide +kernel

/-- An armed set whose bridge routers keep their links, and one that leaves them none. -/
def epoch (en : Nat) : State :=
  let s := [0, 1, 2].foldl (fun s b => s.fset (Addr.nocBrgSh b) Fld.nocBrgShEn en) run
  s.fset Addr.nocEpochCtrl Fld.nocEpochCtrlCommit 1

/-- Old-epoch packets drain, n of them left; an old flow's flit and a new flow's flit wait for the slot that each owns in its
epoch. -/
def drains (n : Nat) : State := (run.fset Addr.nocEpochStat Fld.nocEpochStatDraining 1).fset Addr.nocEpochStat Fld.nocEpochStatOldPkts n
def oldFlit : WaitFlit := ⟨4, 1, Flit.make 0 0 1 0 0 1 0 5, 0, 0, false⟩
def newFlit : WaitFlit := ⟨5, 1, Flit.make 0 0 0 0 0 1 0 6, 0, 0, false⟩
def deferring : State :=
  { drains 2 with noc := { run.noc with
      wheelAct := [(wheelKey 0 1 0, 0x8006)], wheelOld := [(wheelKey 0 1 0, 0x8005)], wait := [(0, [oldFlit, newFlit])] } }

/-- A vote on the sleep of cluster 3. -/
def voting : State := { run with pwr := { run.pwr with vote := some ⟨0, some 3, 2, 0, 0⟩ } }

theorem witness_epochs : run.settled ∧ run.flag Addr.nocWheelAddr Fld.nocWheelAddrBank = false
    ∧ run.fget Addr.nocWheelAddr Fld.nocWheelAddrRouter < 112
    ∧ hasPort (run.fget Addr.nocWheelAddr Fld.nocWheelAddrRouter) (run.fget Addr.nocWheelAddr Fld.nocWheelAddrPort) = true
    ∧ (∀ en ∈ [0xFFFFFF, 0], (epoch en).settled ∧ (epoch en).nocArmed = true ∧ (epoch en).draining = false
        ∧ (epoch en).time.counting = true ∧ (epoch en).noc.base ≤ (epoch en).time.ticks ∧ (epoch en).noc.markAt = (epoch en).time.ticks)
    ∧ brgSetOk (fun b => (epoch 0xFFFFFF).fget (Addr.nocBrgSh b) Fld.nocBrgShEn) = true
    ∧ brgSetOk (fun b => (epoch 0).fget (Addr.nocBrgSh b) Fld.nocBrgShEn) = false
    ∧ (∀ n, n < 3 → (drains n).settled ∧ (drains n).draining = true ∧ (drains n).fget Addr.nocEpochStat Fld.nocEpochStatOldPkts = n)
    ∧ Pkt.op (packet 0x82 0) = 0x82 ∧ Pkt.crcOk (BitVec.ofNat 56 (2 ^ 51)) (packet 0x82 0) 0 = true
    ∧ (drains 2).resvFor (identOf (Pkt.src (packet 0x82 0))) (Pkt.srcPort (packet 0x82 0)) (Pkt.tag (packet 0x82 0)) = none
    ∧ (drains 2).noc.expired = [] ∧ Flit.epoch (BitVec.ofNat 56 (2 ^ 51)) ≠ (drains 2).epoch
    ∧ deferring.settled ∧ deferring.draining = true ∧ deferring.locked = true ∧ hasPort 0 1 = true
    ∧ deferring.waiting 0 = [oldFlit, newFlit]
    ∧ (∀ z ∈ [oldFlit, newFlit], Flit.vc z.hdr = 0
        ∧ deferring.slotOwner (Flit.epoch z.hdr) 0 1 (deferring.nocCycle 0 % 256) = some (Flit.flow z.hdr))
    ∧ Flit.epoch oldFlit.hdr = 1 - deferring.epoch ∧ Flit.epoch newFlit.hdr = deferring.epoch
    ∧ Flit.flow oldFlit.hdr ≠ Flit.flow newFlit.hdr
    ∧ voting.settled ∧ voting.voteAsks 3 = true ∧ voting.fenced 3 = false
    ∧ (let s := voting.setFence 3 0
       s.settled ∧ s.voteAsks 3 = true ∧ s.fenced 3 = true ∧ s.resvIn 3 = false ∧ s.drained 3 = false ∧ s.mode ≠ Mode.sleep
        ∧ s.clusterAsleep 3 = false ∧ s.fget (Addr.nocFenceStat 3) Fld.nocFenceStatAdmitted = 0
        ∧ (lending s (Ident.tile 24) false).resvIn 3 = true) := by
  unfold State.settled; decide +kernel

/-! ### DMA -/

/-- Channel 1 of cluster 0's engine, with its registers set for a move of 8 bytes from 0 to 0x20 in bank 0. -/
def mover (n : Nat) : State :=
  ((tile.fset (Addr.dmaDst 0 1) Fld.dmaDstAddr 0x20).fset (Addr.dmaCnt 0 1) Fld.dmaCntCount n).fset
    Addr.pwrMode Fld.pwrModeMode Mode.run

theorem range_ready (s : State) (ids : List Ident) (a n key : Nat)
    (h : ∀ i, i < n → bankOf (a + i) = some key ∧ s.accepts key ids = true ∧ s.pendingHandover key = false
      ∧ s.bankFenced key = false ∧ s.errMask ((a + i) / 8) = 0) : rangeReady s ids a n :=
  fun i hi => Exists.intro key (h i hi)

/-- Channel 1 moves a block of 8 bytes; in list mode it waits for an entry, of which byte 6 is reserved. -/
def moving (list : Bool) : State :=
  let s := ((mover 8).fset (Addr.dmaCtrl 0 1) Fld.dmaCtrlMode list.toNat).setDmaState 0 1 Dma.busy
  s.setDmaCh 0 1 { DmaCh.init with obo := Ident.tile 0, block := some ⟨0, 0x20, 8, false, false, false⟩ }

def listing (b6 : Byte) (poison : SMap Bool) : State :=
  let s := (moving true).setDmaCh 0 1 { DmaCh.init with obo := Ident.tile 0 }
  { s with banks := { s.banks with bytes := if b6 = 0 then [] else [(6, b6)], poison := poison } }

def stopped : State :=
  ((moving false).setDmaState 0 1 Dma.stopping).fset (Addr.dmaEngStat 0) Fld.dmaEngStatStopped 1

theorem witness_dmaStart : (mover 8).settled ∧ (mover 8).regFenced (Addr.dmaCtrl 0 1) = false ∧ (mover 8).dmaStopped 0 = false
    ∧ (mover 8).dmaActive 0 1 = false ∧ ((mover 8).dmaCh 0 1).held = none ∧ dmaWriter 0 (.tile 0) = true ∧ dmaWriter 0 (.tile 8) = false
    ∧ (0x80000000 : Word).getLsbD 31 = true ∧ Fld.get Fld.dmaCtrlMode ((0x80000000 : Word).setWidth 64) = 0
    ∧ (mover 8).fget (Addr.dmaCnt 0 1) Fld.dmaCntCount = 8 ∧ (mover 8).dmaCheck [Ident.dma 0, Ident.tile 0] 0 0x20 8 = none
    ∧ (mover 0x20000).dmaCheck [Ident.dma 0, Ident.tile 0] 0 0x20 0x20000 ≠ none
    ∧ (mover 0).fget (Addr.dmaCnt 0 1) Fld.dmaCntCount = 0 := by
  unfold State.settled; decide +kernel

theorem witness_dmaBlock : (∀ list, (moving list).settled ∧ (moving list).dmaState 0 1 = Dma.busy
      ∧ ((moving list).dmaCh 0 1).block = some ⟨0, 0x20, 8, false, false, false⟩ ∧ ((moving list).dmaCh 0 1).wrote = []
      ∧ ((moving list).dmaCh 0 1).moved = 0 ∧ (moving list).dmaList 0 1 = list)
    ∧ cellsGood (moving false) ∧ cellsGood (moving true) ∧ rangeReady (moving false) ((moving false).dmaIds 0 1) 0 8
    ∧ rangeReady (moving false) ((moving false).dmaIds 0 1) 0x20 8 ∧ rangeReady (moving true) ((moving true).dmaIds 0 1) 0 8
    ∧ rangeReady (moving true) ((moving true).dmaIds 0 1) 0x20 8
    ∧ stopped.settled ∧ cellsGood stopped ∧ stopped.dmaStopped 0 = true ∧ stopped.dmaState 0 1 = Dma.stopping
    ∧ (stopped.dmaCh 0 1).held = none := by
  refine ⟨by unfold State.settled; decide +kernel, good _ rfl rfl, good _ rfl rfl, range_ready _ _ _ _ 0 (by decide +kernel),
    range_ready _ _ _ _ 0 (by decide +kernel), range_ready _ _ _ _ 0 (by decide +kernel),
    range_ready _ _ _ _ 0 (by decide +kernel), by unfold State.settled; decide +kernel, good _ rfl rfl, by decide +kernel⟩

theorem witness_dmaList : (listing 0 []).settled ∧ (listing 0 []).dmaWantsEntry 0 1 = true ∧ ((listing 0 []).dmaCh 0 1).entry < 65535
    ∧ cellsGood (listing 0 []) ∧ cellsGood (listing 1 []) ∧ cellsGood (listing 0 [(0, true)])
    ∧ (listing 0 []).fget (Addr.dmaList 0 1) Fld.dmaListAddr = 0 ∧ (listing 0 []).memReady ((listing 0 []).dmaIds 0 1) 0
    ∧ (listing 1 []).memReady ((listing 1 []).dmaIds 0 1) 0
    ∧ (listing 0 [(0, true)]).memReady ((listing 0 [(0, true)]).dmaIds 0 1) 0
    ∧ (listing 0 []).poisoned 0 = false ∧ (listing 0 []).poisoned 1 = false ∧ listReserved ((listing 0 []).memVal 0 16) = false
    ∧ recF ((listing 0 []).memVal 0 16) 8 23 0 = 0 ∧ listReserved ((listing 1 []).memVal 0 16) = true
    ∧ (listing 0 [(0, true)]).dmaWantsEntry 0 1 = true ∧ (listing 0 [(0, true)]).poisoned 0 = true
    ∧ (listing 1 []).dmaWantsEntry 0 1 = true := by
  refine ⟨by unfold State.settled; decide +kernel, by decide +kernel, by decide +kernel, good _ rfl rfl, good _ rfl rfl,
    good _ rfl rfl, by decide +kernel, Exists.intro 0 (by decide +kernel), Exists.intro 0 (by decide +kernel),
    Exists.intro 0 (by decide +kernel), by decide +kernel⟩

theorem witness_doorbell : (mover 8).regFenced (Addr.dmaDoorbell 0 1) = false ∧ (mover 8).dmaState 0 1 ≠ Dma.idleAtEnd
    ∧ (let s := (mover 8).setDmaState 0 1 Dma.idleAtEnd
       s.settled ∧ s.dmaState 0 1 = Dma.idleAtEnd ∧ s.dmaStopped 0 = false
        ∧ (s.fget (Addr.dmaDoorbell 0 1) Fld.dmaDoorbellCount + 1) % 65536 ≠ (s.dmaCh 0 1).seen) := by
  unfold State.settled; decide +kernel

/-! ### Fronthaul -/

/-- Port 0 is a 25G Ethernet port that is up, with uplink stream 0 and downlink stream 1; framer group 0 owns bank 0 of the
fronthaul buffer; it is `ms` milliseconds past the epoch. -/
def fronted (ms type : Nat) : State :=
  let s := (run.fset (Addr.fhPortStat 0) Fld.fhPortStatUp 1).setReg (ownerReg 6144) (BitVec.ofNat 64 (Machine.Ident.code (Ident.framer 0)))
  let x := { StreamT.none with port := 0, eaxc := 5, nprb := 2, prbBytes := 4, rxStart := -1000, rxEnd := 100000, ringBank := 4608 }
  let y := { StreamT.none with port := 0, stream := 1, dl := true, eaxc := 6, cap := 64, txWin := 1000 }
  { s with time := { s.time with edge := ms * 491520 }
           img := { s.img with ports := [(0, some { type := type, fec := 0, cpriVer := 0, vlanEn := false, srcMac := 1, vlanTci := 0 })]
                               streams := [x, y] } }

/-- PRBs `start` and `num` of symbol 0 of frame 2, which starts 20 ms past the epoch. -/
def rxSec (start num : BitVec 10) : RxSection := ⟨start, num, [1, 2, 3, 4], none⟩

def rxMsg (type : BitVec 8) (more : Bool) (y : RxSection) : RxMessage := ⟨more, type, 5, 2, 0, 0, 0, [y], [9]⟩

def rxFrame (l : List RxMessage) (fcs : Bool) : RxFrame := ⟨fcs, 64, l, none⟩

def one (type : BitVec 8) (fcs : Bool) : RxFrame := rxFrame [rxMsg type false (rxSec 0 1)] fcs

theorem witness_receive : (∀ x ∈ [(19, rxSec 1 1, 1), (20, rxSec 1 1, 1), (21, rxSec 1 1, 1), (20, rxSec 2 1, 1), (20, rxSec 0 0, 2)],
      rxOf (fronted x.1 2) 0 (rxFrame [rxMsg 0 false x.2.1] true) (rxMsg 0 false x.2.1) x.2.1 0 280 x.2.2)
    ∧ (fronted 20 2).settled
    ∧ (let s := fronted 20 2
       let x := s.stream 0
       let c := s.streamCtx x
       ((fronted 19 2).now : Int) < ulStart c 280 + x.rxStart ∧ ulStart c 280 + x.rxEnd < ((fronted 21 2).now : Int)
        ∧ ulStart c 280 + x.rxStart ≤ (s.now : Int) ∧ ¬ ulStart c 280 + x.rxEnd < (s.now : Int)
        ∧ (s.rxSym 0 280).complete = false ∧ (s.rxSym 0 280).full x.nprb = false ∧ ¬ x.nprb < 1 + 1 ∧ x.nprb < 2 + 1
        ∧ (s.rxSym 0 280).prbs = 0)
    ∧ cellsGood (fronted 20 2)
    ∧ (let x := (fronted 20 2).stream 0
       rangeReady (fronted 20 2) [Ident.framer 0] (x.areaOf ((fronted 20 2).streamCtx x) 280 + 1 * x.prbBytes) (1 * x.prbBytes)) := by
  refine ⟨by unfold rxOf; decide +kernel, by unfold State.settled; decide +kernel, by decide +kernel, good _ rfl rfl, range_ready _ _ _ _ 6144 (by decide +kernel)⟩

theorem witness_receiveDrops : (∀ s ∈ [fronted 20 2, (fronted 20 2).fset Addr.pwrMode Fld.pwrModeMode Mode.safe],
      s.settled ∧ s.locked = true ∧ (s.portT 0).isSome = true ∧ s.portUp 0 = true ∧ s.isCpri 0 = false)
    ∧ (∀ f ∈ [rxFrame [rxMsg 2 true (rxSec 0 1), rxMsg 2 true (rxSec 0 1)] true, one 0 true, one 0 false, one 7 true, one 5 true],
      f.len.toNat ≤ 9600 ∧ f.hyper = none)
    ∧ (∀ m ∈ (rxFrame [rxMsg 2 true (rxSec 0 1), rxMsg 2 true (rxSec 0 1)] true).messages, m.type = 2 ∧ m.more = true)
    ∧ (one 0 false).fcsOk = false ∧ (one 7 true).fcsOk = true ∧ (one 5 true).fcsOk = true
    ∧ ((fronted 20 2).fset Addr.pwrMode Fld.pwrModeMode Mode.safe).mode = Mode.safe ∧ (fronted 20 2).mode ≠ Mode.safe
    ∧ (fronted 20 0).settled ∧ (fronted 20 0).isCpri 0 = true ∧ (fronted 20 0).portUp 0 = true ∧ (fronted 20 0).locked = true
    ∧ (rxMsg 1 false (rxSec 0 1)).type ≠ 0
    ∧ ((fronted 20 2).fset Addr.clkStat Fld.clkStatLocked 0).locked = false ∧ run.portUp 0 = false := by
  unfold State.settled; decide +kernel

/-- A frame of the queue of port 0 is armed for 20 ms and 1 µs past the epoch. -/
def armedSoon : State := (fronted 20 2).setLq 0 [⟨0, 0, 1, 1, 8, 20000001, 0x20000000, true, true⟩]

theorem gap_none (s : State) (p n : Nat) (pt : PortT) (h : s.portT p = some pt) (w : s.wireFree p ≤ s.now)
    (q : s.nextFrame p = none) : gapIs s p n pt := ⟨h, w, fun _ g => nomatch q.symm.trans g⟩

theorem witness_gaps : (∃ pt, (fronted 20 2).portTalks 0 = true ∧ gapIs (fronted 20 2) 0 42 pt)
    ∧ ∃ pt, armedSoon.settled ∧ armedSoon.portTalks 0 = true ∧ armedSoon.portT 0 = some pt ∧ ¬ gapIs armedSoon 0 42 pt := by
  refine ⟨⟨_, by decide +kernel, gap_none _ 0 42 _ rfl (by decide +kernel) (by decide +kernel)⟩,
    ⟨_, by unfold State.settled; decide +kernel, by decide +kernel, rfl, fun g => ?_⟩⟩
  exact absurd (g.2.2 ⟨0, 0, 1, 1, 8, 20000001, 0x20000000, true, true⟩ (by decide +kernel)) (by decide +kernel)

/-- Both PRBs of the symbol have come, and job 0's stage 0 takes the symbol of stream 0 by its flag 0. -/
def heard (bound : Bool) : State :=
  let s := (fronted 20 2).setRxSym 0 280 ⟨3, false, false⟩
  let t := { StageT.none with cls := 1, flags := if bound then [⟨Src.fhSym, 0, 0, 0x1000⟩] else [] }
  s.setJob 0 (some { job0 with w := 20000000, t := { tpl0 with stages := [t] }, stages := [{ stage0 with st := .pending }] })

/-- Stream 2 shares the ring of stream 0, and its symbol has not come. -/
def heardTwo : State :=
  let s := heard true
  { s with img := { s.img with streams := s.img.streams ++ [{ s.stream 0 with eaxc := 7, areaOff := 64 }] } }

theorem witness_symbols : (heard true).settled ∧ (heard true).locked = true ∧ 0 < (heard true).img.streams.length ∧ ((heard true).stream 0).dl = false
    ∧ ((heard true).rxSym 0 280).full ((heard true).stream 0).nprb = true ∧ ((heard true).rxSym 0 280).complete = false
    ∧ (let s := heard true
       let x := s.stream 0
       let c := s.streamCtx x
       let u := s.setRxSym 0 280 { s.rxSym 0 280 with complete := true }
       let key := globalBank (x.bankOf c 280)
       (u.ringStreams x).all (fun k => (x.bankSyms c 280).all fun m => (u.rxSym k m).complete) = true
        ∧ (((u.fhBindings 0 280).find? fun b => (bindStreams b).any (u.ringStreams x).contains).map fun b => (b.1, b.2.1)) = some (0, 0)
        ∧ s.ownerWriteOk key (.owner (Ident.framer 0)) (instIdent ((s.job 0).getD job0 |>.stage 0).cls 0) = true)
    ∧ (let s := heardTwo
       let x := s.stream 0
       let c := s.streamCtx x
       let u := s.setRxSym 0 280 { s.rxSym 0 280 with complete := true }
       s.settled ∧ s.locked = true ∧ x.dl = false ∧ (s.rxSym 0 280).full x.nprb = true ∧ (s.rxSym 0 280).complete = false
        ∧ (u.ringStreams x).all (fun k => (x.bankSyms c 280).all fun m => (u.rxSym k m).complete) = false) := by
  unfold State.settled; decide +kernel

/-- A push record of KIND 1 for stream 1 of 8 bytes, launched at 21 ms. -/
def lqRecord (version len : Nat) : BitVec 256 :=
  BitVec.ofNat 256 (recP 0 0 1 + recP 1 0 version + recP 2 0 1 + recP 4 0 len + recP 8 0 21000000 + recP 0x10 0 0x20000000)

def pushing : State := ((fronted 20 2).setJob 0 (some { job0 with stages := [stage0] })).setRunning 0 (some (0, 0))
def entry (launch : Nat) : LqEntry := ⟨0, 0, 1, 1, 8, launch, 0x20000000, true, true⟩
def armedAt (launch : Nat) (up type : Nat) : State :=
  ((fronted 20 type).fset (Addr.fhPortStat 0) Fld.fhPortStatUp up).setLq 0 [entry launch]

theorem witness_launches : pushing.settled ∧ pushing.dspStage (.tile 0) = some (0, 0)
    ∧ pushing.pushReason 0 (lqRecord 1 8).toNat true = none ∧ (pushing.job 0).any (fun j => j.fhTxOver 0 == false) = true
    ∧ pushing.pushReason 0 (lqRecord 0 8).toNat (pushing.dspStage (.tile 0)).isSome = some 2
    ∧ pushing.flag Addr.fhLqErrLog Fld.fhLqErrLogValid = false ∧ (0 : Nat) < 2048
    ∧ pushing.dspStage (.tile 1) = none
    ∧ (∀ x ∈ [(21000000, 1, 2), (21000000, 0, 2), (21000000, 1, 0), (1000000, 1, 2)],
        let s := armedAt x.1 x.2.1 x.2.2
        s.settled ∧ s.nextFrame 0 = some (entry x.1) ∧ (s.portT 0).isSome = true ∧ s.portUp 0 = (x.2.1 == 1)
          ∧ decide (s.frameStart 0 (entry x.1) ≤ s.lateAfter 0 (entry x.1)) = (x.1 == 21000000))
    ∧ cellsGood (armedAt 21000000 1 2) ∧ cellsGood (armedAt 21000000 1 0)
    ∧ rangeReady (armedAt 21000000 1 2) [Ident.framer 0] 0x20000000 8
    ∧ rangeReady (armedAt 21000000 1 0) [Ident.framer 0] 0x20000000 8 := by
  refine ⟨by unfold State.settled; decide +kernel, by decide +kernel, by decide +kernel, by decide +kernel, by decide +kernel,
    by decide +kernel, by decide, by decide +kernel, by unfold State.settled; decide +kernel, good _ rfl rfl, good _ rfl rfl,
    range_ready _ _ _ _ 6144 (by decide +kernel), range_ready _ _ _ _ 6144 (by decide +kernel)⟩

/-! ### Lanes -/

/-- Lane 0 of port 0 (type 1: one lane, stages block and PCS) has rate code 8 and is in a state with n stages locked. -/
def lane (mode st n : Nat) : State :=
  let s := (((fronted 20 1).fset (Addr.laneCfg 0) Fld.laneCfgRate 8).setLaneState 0 st).fset Addr.pwrMode Fld.pwrModeMode mode
  { s with fh := { s.fh with locks := if n = 0 then [] else [(0, n)] } }

/-- A characterisation runs on lane 0. -/
def charring : State :=
  let s := (lane Mode.service Lane.hunt 0).fset (Addr.laneCharCtrl 0) Fld.laneCharCtrlGo 1
  { s with plb := { s.plb with running := [(6, 0)] } }

theorem witness_laneLocks : (∀ n, n < 2 → (lane Mode.run Lane.hunt n).settled ∧ (lane Mode.run Lane.hunt n).laneState 0 = Lane.hunt
      ∧ (lane Mode.run Lane.hunt n).los 0 = false ∧ (lane Mode.run Lane.hunt n).charRuns 0 = false
      ∧ (lane Mode.run Lane.hunt n).locksOf 0 = n ∧ n < ((lane Mode.run Lane.hunt n).laneStages 0).length)
    ∧ ((lane Mode.run Lane.hunt 1).laneStages 0).length = 1 + 1 ∧ (lane Mode.run Lane.hunt 1).portOf 0 = 0
    ∧ ((lane Mode.run Lane.hunt 1).portT 0).any (fun p => p.lanes == 1) = true
    ∧ lostFrom ((lane Mode.run Lane.locked 2).laneStages 0) 1 = some 1 ∧ (lane Mode.run Lane.locked 2).locksOf 0 = 2
    ∧ Lane.waking < (lane Mode.run Lane.locked 2).laneState 0 ∧ (lane Mode.run Lane.locked 2).los 0 = false
    ∧ ((lane Mode.run Lane.hunt 0).fset (Addr.laneStat 0) Fld.laneStatLos 1).los 0 = true
    ∧ (fronted 20 0).isCpri 0 = true ∧ (fronted 20 0).portUp 0 = true
    ∧ (lane Mode.run Lane.waking 0).laneUsed 0 = true ∧ (lane Mode.run Lane.waking 0).laneState 0 = Lane.waking := by
  unfold State.settled; decide +kernel

theorem witness_lanePatterns : (lane Mode.service Lane.locked 2).settled ∧ (lane Mode.service Lane.locked 2).rwlOpen = true
    ∧ (lane Mode.service Lane.locked 2).laneUsed 0 = true ∧ (lane Mode.service Lane.locked 2).charRuns 0 = false
    ∧ (lane Mode.service Lane.locked 2).maintConflict 6 0 = none ∧ (lane Mode.service Lane.locked 2).maintConflict 2 0 = none
    ∧ (lane Mode.service Lane.locked 2).prbsOn 0 = false ∧ (0xC0000000 : Word).toNat / 2 ^ 30 ≠ 0
    ∧ (0xC0000000 : Word).getLsbD 31 = true ∧ (0xC0000000 : Word).getLsbD 25 = false ∧ (0 : Nat) < 5 ∧ (4 : Nat) < 5
    ∧ charring.settled ∧ charring.charRuns 0 = true ∧ charring.plb.running.count (6, 0) = 1
    ∧ (let s := (lane Mode.service Lane.test 0).fset (Addr.lanePrbsCtrl 0) Fld.lanePrbsCtrlChkEn 1
       s.settled ∧ s.prbsOn 0 = true ∧ s.checks 0 = true ∧ s.prbsLock 0 = false
        ∧ checkerSeeds (s.pattern 0) (s.userPattern 0) (((List.range 128).filter fun k => prbsNext 0
            (prbsRun 0 k (List.replicate (prbsPowers 0).1 true))).foldl (fun a k => a + 2 ^ k) 0) = true
        ∧ checkerSeeds (s.pattern 0) (s.userPattern 0) 0 = false
        ∧ popcountN (0xFFFFFFFF : BitVec 64).toNat 64 = 32 ∧ popcountN (0x7FFFFFFF : BitVec 64).toNat 64 < 32
        ∧ (s.fset (Addr.lanePrbsErr 0) Fld.lanePrbsErrLock 1).prbsLock 0 = true) := by
  unfold State.settled; decide +kernel

/-! ### Time -/

/-- Port 0 forwards to itself as a transparent clock and runs PTP. -/
def ptp : State :=
  let s := fronted 20 2
  { s with img := { s.img with ptpPorts := [(0, ⟨0, 0, false, true, 0, 0⟩)] } }

def sync : PtpMsg := ⟨false, 0, 0, [1]⟩

theorem witness_time : (∃ pt, gapIs ptp 0 (27 + sync.body.length) pt) ∧ ptp.settled ∧ ptp.tcPort 0 = some 0 ∧ ptp.ethUp 0 = true
    ∧ (491520 : BitVec 24).toNat ≤ 491520 ∧ (0 : Fin 16).val < 4 ∧ 4 ≤ (8 : Fin 16).val ∧ sync.udp = false
    ∧ ptp.portTalks 0 = true ∧ ptp.ptpOn 0 = true ∧ run.noJobs = true ∧ pushing.noJobs = false ∧ (0x8000000000000001 : DWord).getLsbD 63 = true
    ∧ (let s := { ptp with time := { ptp.time with setSec := some 1 } }
       s.settled ∧ s.time.setSec = some 1 ∧ s.time.counting = true ∧ s.time.edge < 491520000)
    ∧ (∀ i, i < 8 → (ptp.calItem i 0).isSome = (i != 0)) ∧ ptp.rwlOpen = false
    ∧ (ptp.fset Addr.pwrMode Fld.pwrModeMode Mode.load).rwlOpen = true := by
  refine ⟨⟨_, gap_none _ 0 _ _ rfl (by decide +kernel) (by decide +kernel)⟩, ?_⟩
  unfold State.settled; decide +kernel

/-- The servo ticks every P0 = 1 with the PTP source ranked first, a measurement of e, and a state. -/
def servoed (e : Int) (st : Nat) : State :=
  let s := [(0, 16), (4, 0x00640064), (5, 100), (6, 100), (9, 0x10000004)].foldl
    (fun s p => s.fset (Addr.tbServoP p.1) Fld.tbServoPValue p.2) run
  let s := (s.fset Addr.tbServoStat Fld.tbServoStatState st).fset Addr.tbServoStat Fld.tbServoStatSrc 1
  { s with servo := { s.servo with ptp := some e, agePtp := 0, good := 15, timerRun := true } }

theorem witness_servo : (∀ st ∈ [Sv.locked, Sv.acquiring], (servoed 0 st).settled ∧ (servoed 0 st).time.counting = true
      ∧ (servoed 0 st).servoP 0 ≠ 0 ∧ bitOf ((servoed 0 st).servoP 9) 1 = false ∧ sourceIs (servoed 0 st).toTick 1 0
      ∧ (servoed 0 st).toTick.svState = st ∧ withinPs 0 ((servoed 0 st).servoP 4 / 65536) = true ∧ (servoed 0 st).servoP 4 < 2 ^ 32
      ∧ withinPs 0 ((servoed 0 st).servoP 4 % 65536) = true ∧ withinNs 0 ((servoed 0 st).servoP 5) = true
      ∧ (servoed 0 st).toTick.servo.good = 15)
    ∧ (∀ x ∈ [(0, 1), (1000000, 0)], let s := (servoed 0 Sv.locked).modServo fun v => { v with ptp := none, agePtp := x.1 }
        s.settled ∧ s.servoP 0 ≠ 0 ∧ bitOf (s.servoP 9) 1 = false
          ∧ (s.toTick.modServo Servo.aged).pickSource = x.2 ∧ s.toTick.servo.meas x.2 = none)
    ∧ (∀ st ∈ [Sv.acquiring, Sv.holdover], (servoed 0 st).servo.timerRun = true ∧ (servoed 0 st).svState = st
      ∧ (servoed 0 st).plumbPowered = true ∧ (servoed 0 st).mode ≠ Mode.safe) := by
  unfold sourceIs State.settled; decide +kernel

/-- A time-of-day message for second 5 with a correct CRC, in its window after a PPS_IN edge. -/
def todMsg (valid : Nat) : BitVec 128 :=
  let b := todBody valid 5 0 0
  BitVec.ofNat 128 (leVal (b ++ leBytes 2 (crc16 b)))

def pulsed : State := { run with time := { run.time with ticks := 100000000 }, servo := { run.servo with lastPps := some (90000000, 0) } }

theorem witness_timeOutputs : pulsed.settled ∧ pulsed.time.counting = true ∧ pulsed.servo.lastPps = some (90000000, 0)
    ∧ (∀ v, v < 2 → crc16 (leBytes 14 (todMsg v).toNat) = recF (todMsg v).toNat 0xE 15 0 ∧ (todMsg v).getLsbD 24 = (v == 1))
    ∧ 12288 * 10000 ≤ (pulsed.time.ticks - 90000000) * 25 ∧ (pulsed.time.ticks - 90000000) * 25 ≤ 12288 * 900000
    ∧ crc16 (leBytes 14 (1 : BitVec 128).toNat) ≠ recF (1 : BitVec 128).toNat 0xE 15 0
    ∧ ((run.fset Addr.tbServoStat Fld.tbServoStatTimeValid 1).settled ∧ (run.fset Addr.tbServoStat Fld.tbServoStatTimeValid 1).timeValid = true)
    ∧ isZelfa (.zelfa 0) = true ∧ run.targetDac = false := by
  unfold State.settled; decide +kernel

/-- Context 0 stands alone; contexts 1 and 2 form lock group 3. Their shadow profile is p, and both commits are armed. -/
def contexts (p arm : Nat) : State :=
  let c := { CtxT.none with enabled := true, profiles := 3 }
  let s := { run with img := { run.img with ctx := [(0, c), (1, { c with grouped := true, lg := 3 }), (2, { c with grouped := true, lg := 3 })] } }
  let s := [0, 1, 2].foldl (fun s n => s.fset (Addr.tbCtxSh n) Fld.tbCtxShProfile p) s
  (s.fset (commitReg false 0) Fld.tbCtxCommitCommit arm).fset (commitReg true 3) Fld.tbCtxCommitCommit arm

theorem witness_contexts : (∀ p ∈ [1, 2], (contexts p 1).settled ∧ (contexts p 1).ctxArmed false 0 = true
      ∧ (contexts p 1).ctxArmed true 3 = true ∧ (contexts p 1).commitSet false 0 = [0] ∧ (contexts p 1).commitSet true 3 = [1, 2]
      ∧ (contexts p 1).time.counting = true ∧ (contexts p 1).profilesOk [0] = (p == 1) ∧ (contexts p 1).profilesOk [1, 2] = (p == 1))
    ∧ isHostOrZelfa (.tile 0) = false ∧ isHostOrZelfa .host = true ∧ ((contexts 1 0).ctx 0).enabled = true
    ∧ ((contexts 1 0).ctx 5).enabled = false ∧ (contexts 1 0).ctxArmed false 0 = false ∧ (contexts 1 0).ctxArmed true 3 = false
    ∧ ((contexts 1 0).ctx 1).grouped = true ∧ ((contexts 1 0).ctx 1).lg < 16 ∧ (1 : Word).getLsbD 0 = true := by
  unfold State.settled; decide +kernel

/-! ### The host port -/

/-- BAR2's slot 0 maps bank 0, which has this owner. -/
def mapped (valid : Nat) (owner : Ident) : State :=
  ((hosted.fset (Addr.hxBar2Map 0) Fld.hxBar2MapValid valid).setReg (ownerReg 0) (BitVec.ofNat 64 (Machine.Ident.code owner)))

theorem witness_bar2 : run.settled ∧ run.hostReaches = false ∧ (mapped 1 Ident.host).settled ∧ (mapped 1 Ident.host).hostReaches = true
    ∧ (mapped 1 Ident.host).flag (Addr.hxBar2Map 0) Fld.hxBar2MapValid = true ∧ bankValid 0 = true ∧ cellsGood (mapped 1 Ident.host)
    ∧ (mapped 1 Ident.host).memReady [Ident.host] 0 ∧ (mapped 0 Ident.host).flag (Addr.hxBar2Map 0) Fld.hxBar2MapValid = false
    ∧ (mapped 1 (Ident.tile 0)).bankFenced 0 = false ∧ (mapped 1 (Ident.tile 0)).accepts 0 [Ident.host] = false
    ∧ (mapped 1 (Ident.tile 0)).fget (Addr.hxBar2Map 0) Fld.hxBar2MapBlock * 256
        + (mapped 1 (Ident.tile 0)).fget (Addr.hxBar2Map 0) Fld.hxBar2MapBank = 0
    ∧ ((mapped 1 (Ident.tile 0)).flag (Addr.hxBar2Map 0) Fld.hxBar2MapValid = true ∧ (mapped 0 Ident.host).hostReaches = true)
    ∧ (0xFFFF + (1 : Fin 65).val ≤ 65536) ∧ (0 + (64 : Fin 65).val ≤ 65536) := by
  refine ⟨by unfold State.settled; decide +kernel, by decide +kernel, by unfold State.settled; decide +kernel, by decide +kernel, by decide +kernel, by decide,
    good _ rfl rfl, Exists.intro 0 (by decide +kernel), by decide +kernel⟩

/-- Stage 0 of job 0 occupies the mover's calendar 11.i; stage 1 waits for its flag 0; the mover owns bank 0 and window 0
is open. One transfer of 8 bytes from 0x40 to host address 0x100. -/
def moverJob (i : Nat) : Job :=
  { job0 with
    t := { tpl0 with stages := [{ StageT.none with cls := 11 }, { StageT.none with cls := 0, flags := [⟨Src.pred, 0, 0, 0⟩] }] }
    stages := [{ stage0 with cls := 11, inst := i, q := calIndex 11 i }, { stage0 with st := .pending }] }

def movers (i : Nat) : State :=
  let s := (queued.setReg (ownerReg 0) (BitVec.ofNat 64 (Machine.Ident.code Ident.mover))).fset (Addr.hxWinBase 0) Fld.hxWinBaseWr 1
  (s.setJob 0 (some (moverJob i))).setRunning (calIndex 11 i) (some (0, 0))

def line8 : HxXfer := ⟨0x40, 0x100, false, 8⟩

theorem witness_movers : (∀ i, i < 2 → (movers i).settled
      ∧ moverAt (movers i) (calIndex 11 i) 0 0 (moverJob i) ((moverJob i).stage 0) (i == 0) ((([line8] : List HxXfer)).flatMap (xferLines (moverJob i))))
    ∧ cellsGood (movers 0)
    ∧ ((([line8] : List HxXfer)).flatMap (xferLines (moverJob 0))).map (fun u => (u.addr, u.len)) = [(0x40, 8)]
    ∧ rangeReady (movers 0) [Ident.mover, (moverJob 0).ownerOf ((moverJob 0).stageT 0).oboByClass ((moverJob 0).stageT 0).obo] 0x40 8
    ∧ (∀ i, i < 8 → (movers 0).poisoned ((0x40 + i) / 8) = false) := by
  refine ⟨by unfold State.settled moverAt; decide +kernel, good _ rfl rfl, by decide +kernel, range_ready _ _ _ _ 0 (by decide +kernel),
    by decide +kernel⟩

/-- One line of job 0's stage 0 is on its way from the host; bank 0 has this owner. -/
def reading (owner : Ident) : State :=
  let s := (movers 1).setReg (ownerReg 0) (BitVec.ofNat 64 (Machine.Ident.code owner))
  { s with host := { s.host with reads := [⟨0, 0, 0, Ident.mover, [(⟨0x40, 0x100, 8, false⟩, true)]⟩] } }

theorem witness_hostReads : (reading Ident.mover).settled ∧ cellsGood (reading Ident.mover) ∧ cellsGood (reading (Ident.tile 3))
    ∧ (reading Ident.mover).host.reads.find? (fun r => r.job == (0 : Fin 2048).val && r.stage == (0 : Fin 64).val)
        = some ⟨0, 0, 0, Ident.mover, [(⟨0x40, 0x100, 8, false⟩, true)]⟩
    ∧ rangeReady (reading Ident.mover) [Ident.mover, Ident.mover] 0x40 8
    ∧ ((reading Ident.mover).job 0).map (·.order) = some 0 ∧ ((moverJob 1).stageT 1).bind 0 = ⟨Src.pred, 0, 0, 0⟩
    ∧ (stageOf (reading Ident.mover) 0 1).map (·.st) = some .pending ∧ (moverJob 1).closed = false ∧ (moverJob 1).cancelId = none
    ∧ bankOf 0x40 = some 0 ∧ (0x40 % 65536 + 8 ≤ 65536) ∧ (reading (Ident.tile 3)).bankFenced 0 = false
    ∧ (reading (Ident.tile 3)).accepts 0 [Ident.mover, Ident.mover] = false := by
  refine ⟨by unfold State.settled; decide +kernel, good _ rfl rfl, good _ rfl rfl, by decide +kernel, range_ready _ _ _ _ 0 (by decide +kernel),
    by decide +kernel⟩

/-- Job queue 3 and completion queue 3 are open with 4 and 2 records; the window lies over the rings. -/
def rings (tail head up win : Nat) : State :=
  let s := (queued.fset (Addr.hxCqCfg 3) Fld.hxCqCfgEn 1).fset (Addr.hxCqCfg 3) Fld.hxCqCfgSize 4
  let s := (s.fset (Addr.hxCqStat 3) Fld.hxCqStatIndex tail).fset (Addr.hxCqHead 3) Fld.hxCqHeadIndex head
  (s.fset Addr.hxLinkStat Fld.hxLinkStatUp up).fset (Addr.hxWinBase 0) Fld.hxWinBaseWr win

theorem witness_rings : (rings 0 0 1 1).settled ∧ isHostOrZelfa (.tile 0) = false ∧ isHostOrZelfa .host = true
    ∧ (queued.flag (Addr.hxJqCfg 3) Fld.hxJqCfgEn = true ∧ queued.fget (Addr.hxJqCfg 3) Fld.hxJqCfgSize = 4)
    ∧ run.flag (Addr.hxJqCfg 3) Fld.hxJqCfgEn = false ∧ run.flag (Addr.hxCqCfg 3) Fld.hxCqCfgEn = false
    ∧ (3 < (rings 0 0 1 1).fget (Addr.hxCqCfg 3) Fld.hxCqCfgSize)
    ∧ (∀ x ∈ [(0, 0, 0, 1), (3, 0, 1, 1), (0, 0, 1, 0), (3, 2, 1, 1)],
        let s := rings x.1 x.2.1 x.2.2.1 x.2.2.2
        s.settled ∧ s.flag (Addr.hxCqCfg 3) Fld.hxCqCfgEn = true ∧ s.fget (Addr.hxCqCfg 3) Fld.hxCqCfgSize = 4
          ∧ s.fget (Addr.hxCqStat 3) Fld.hxCqStatIndex = x.1 ∧ s.fget (Addr.hxCqHead 3) Fld.hxCqHeadIndex = x.2.1
          ∧ s.linkUp = (x.2.2.1 == 1) ∧ s.atsEnable = false
          ∧ s.windowOk true (s.fget (Addr.hxCqBase 3) Fld.hxCqBaseAddr + 64 * x.1) 64 = (x.2.2.2 == 1)) := by
  unfold State.settled; decide +kernel

/-- RUN with another mode. -/
def inMode (m : Nat) : State := run.fset Addr.pwrMode Fld.pwrModeMode m

/-- The link is trained but for Bus Master Enable, or has come up. -/
def trained (cfg4 : Word) : State := { run with host := { run.host with dlActive := true, ready := true, lost := true, cfg := [(4, cfg4)] } }

def gen5 : HxLink := ⟨5, 16, false, false⟩

theorem witness_link : hosted.settled ∧ hosted.linkUp = true
    ∧ ({ hosted with img := { hosted.img with hxMinWidth := 17 } } : State).hxUnderrated gen5 = true
    ∧ (trained 6).settled ∧ (trained 6).linkUp = false ∧ (trained 6).host.perst = false ∧ (trained 6).host.ready = true
    ∧ ({ trained 6 with img := { hosted.img with hxMinWidth := 0, hxMinRate := 0 } } : State).hxUnderrated gen5 = false
    ∧ (trained 6).busMaster = true ∧ (trained 6).d3hot = false
    ∧ (let s := { run with host := { run.host with graceStart := some 5 } }
       s.settled ∧ s.host.graceStart = some 5 ∧ s.mode = Mode.run ∧ s.time.counting = true)
    ∧ run.host.perst = false ∧ SMap.wf regDflt hosted.regs = true
    ∧ ({ run with host := { run.host with perst := true } } : State).host.perst = true
    ∧ (trained 2).host.lost = true ∧ (trained 2).busMaster = false ∧ (trained 2).host.dlActive = true
    ∧ (trained 2).flag Addr.hxLinkStat Fld.hxLinkStatUnderrate = false ∧ (4 : Word).getLsbD 2 = true
    ∧ run.host.ready = false ∧ run.host.cfg = [] ∧ run.hxPowered = true ∧ hosted.hxPowered = true ∧ (trained 6).hxPowered = true
    ∧ (∀ m ∈ [Mode.off, Mode.deep], (inMode m).settled ∧ (inMode m).hxPowered = false) := by
  unfold State.settled; decide +kernel

/-! ### Power -/

theorem witness_requests : (∀ m, m < 8 → (inMode m).settled ∧ (inMode m).pwr.pendWake = none ∧ (inMode m).mode = m)
    ∧ requestRow (.pwrReqOff .host) .host 0 0 ∧ requestRow (.pwrReqService .host) .host 0 7
    ∧ requestAllowed (.tile 0) Mode.run 0 = false ∧ (∀ m ∈ [0, 1, 2, 7], requestAllowed .host Mode.run m = true)
    ∧ requestAllowed .host Mode.service 4 = true ∧ requestAllowed .host Mode.sleep 4 = true
    ∧ requestAllowed .host Mode.service 5 = true ∧ run.reqBusy = false ∧ run.inBackoff = false ∧ run.pwr.vote = none
    ∧ (run.fset Addr.pwrReqStat Fld.pwrReqStatBusy 1).reqBusy = true
    ∧ ({ run with pwr := { run.pwr with backoff := some (0, 1) } } : State).inBackoff = true
    ∧ run.jobsHeld = 0 ∧ (run.setJob 0 (some job0)).jobsHeld ≠ 0 ∧ run.pins.safeN = true
    ∧ SMap.wf regDflt (inMode Mode.service).regs = true ∧ run.plb.running = [] := by
  unfold requestRow State.settled; decide +kernel

/-- A device vote for target at a stage, with every domain fenced and drained, in mode m. -/
def voted (m target stage : Nat) (cluster : Option Nat) : State :=
  let s := (List.range 30).foldl (fun s d => (s.setFence d 0).fset (Addr.nocFenceStat d) Fld.nocFenceStatDrained 1) (inMode m)
  { s with pwr := { s.pwr with vote := some ⟨target, cluster, stage, 3, 0⟩ } }

theorem witness_votes : (∀ stage ∈ [1, 2, 3, 4, 6, 7], (voted Mode.run 1 stage none).settled
      ∧ stageStopped (voted Mode.run 1 stage none) ⟨1, none, stage, 3, 0⟩)
    ∧ ((voted Mode.run 1 2 none).setVote (some ⟨1, none, 3, 3, 0⟩)).refusers ⟨1, none, 3, 3, 0⟩ 3 = []
    ∧ (let s := { voted Mode.run 1 2 none with eng := { run.eng with locks := [(2, [⟨0x10010000, 400, 0⟩])] } }
       s.settled ∧ stageStopped s ⟨1, none, 2, 3, 0⟩ ∧ s.pwr.pendWake = none ∧ s.mode ≠ Mode.sleep
        ∧ (s.setVote (some ⟨1, none, 3, 3, 0⟩)).refusers ⟨1, none, 3, 3, 0⟩ 3 = [26])
    ∧ Mode.run ≠ Mode.deep ∧ stageStopped (voted Mode.run 2 2 (some 3)) ⟨2, some 3, 2, 3, 0⟩
    ∧ (let s := { run with pwr := { run.pwr with backoff := some (0, 5) } }
       s.settled ∧ s.pwr.backoff = some (0, 5) ∧ s.pwr.pendWake = none ∧ s.time.counting = true) := by
  unfold stageStopped State.settled; decide +kernel

/-- Cluster 3 wakes; the pads are held; the upstream supply is on the PMBus. -/
def awaking : State := { run with pwr := { run.pwr with waking := 8 } }
def pmbus (m : Nat) : State := { inMode m with img := { run.img with upstream := 1 } }
def held (s : State) : State := s.fset Addr.pwrPadCtrl Fld.pwrPadCtrlHeld 1

theorem no_booking (s : State) (c : Nat) (h : s.cmp.cal = []) : s.nextBooking c = none := by
  unfold State.nextBooking
  rw [List.find?_eq_none]
  intro x _
  rw [h]
  simp [calFill, SMap.get, noFill]

theorem witness_clusterIdle : (run.passEdges 4916).bookingNear 3 = false
    ∧ (let s := { run with cmp := { run.cmp with cal := calSet [] (calIndex 0 0) 1 10 } }
       s.settled ∧ s.mode = Mode.run ∧ (s.passEdges 4916).bookingNear 0 = true) := by
  refine ⟨?_, by unfold State.settled; decide +kernel⟩
  simp [State.bookingNear, no_booking (run.passEdges 4916) 3 (by decide +kernel)]

theorem witness_clusters : run.settled ∧ run.mode = Mode.run ∧ run.clusterIdle 3 = false ∧ run.clusterAsleep 3 = false
    ∧ run.tileBusy 3 = false ∧ run.time.counting = true ∧ ((ready 7).tileBusy 0 = true ∧ (ready 7).mode = Mode.run)
    ∧ awaking.settled ∧ awaking.pwr.waking.getLsbD 3 = true ∧ awaking.banks.wf = true ∧ awaking.tileBusy 3 = false
    ∧ (run.fset Addr.pwrPadCtrl Fld.pwrPadCtrlHeld 1).flag Addr.pwrPadCtrl Fld.pwrPadCtrlHeld = true
    ∧ run.flag Addr.pwrPadCtrl Fld.pwrPadCtrlHeld = false ∧ run.pmbOn = false
    ∧ (pmbus Mode.run).settled ∧ (pmbus Mode.run).pmbOn = true ∧ (pmbus Mode.run).plumbPowered = true
    ∧ (∀ m ∈ [Mode.run, Mode.service], (pmbus m).padsHeld = false ∧ (held (pmbus m)).padsHeld = true ∧ (held (pmbus m)).settled
        ∧ (held (pmbus m)).pmbOn = true ∧ (held (pmbus m)).plumbPowered = true)
    ∧ (pmbus Mode.run).mode ≠ Mode.service ∧ (pmbus Mode.service).mode = Mode.service ∧ (pmbus Mode.service).pmbOn = true := by
  unfold State.settled; decide +kernel

/-- Cluster 3 in IDLE with its sleep enabled and nothing booked. -/
def resting : State :=
  let s := run.setClusterIdle 3 true
  { s with img := { s.img with clSleepEn := 8 } }

theorem witness_clusterSleep : resting.settled ∧ resting.mode = Mode.run ∧ resting.clusterIdle 3 = true
    ∧ resting.img.clSleepEn.testBit 3 = true ∧ resting.pwr.vote = none ∧ resting.reqBusy = false ∧ resting.inBackoff = false
    ∧ resting.nextBooking 3 = none
    ∧ (let u := resting.passEdges 983040
       let v : Vote := ⟨Mode.sleep, some 3, 1, 0, u.now⟩
       (u.setVote (some v)).refusers v 1 = []) := by
  refine ⟨by unfold State.settled; decide +kernel, by decide +kernel, by decide +kernel, by decide +kernel, by decide +kernel,
    by decide +kernel, by decide +kernel, no_booking _ _ (by decide +kernel), ?_⟩
  have h : ∀ (u : State) (v : Vote) (c : Nat), v.cluster = some c → u.cmp.cal = [] → u.plb.running = [] → u.refusers v 1 = [] := by
    intro u v c hv hc hr
    simp [State.refusers, hv, State.bookedSoon, no_booking u c hc, hr, voterIf]
  exact h _ _ 3 rfl (by decide +kernel) (by decide +kernel)

/-- Mode m with a start that waits for VIN, a phase of the stage, and the wake timer. -/
def supply (m : Nat) (restart : Option Nat) (stage : StagePhase) : State :=
  let s := inMode m
  { s with pwr := { s.pwr with restart := restart, stage := stage, wakeTimer := some (0, 7) } }

theorem witness_supply : (∀ r ∈ [0, 3, 4, 15], (supply Mode.off (some r) .off).settled
      ∧ SMap.wf regDflt (supply Mode.off (some r) .off).regs = true ∧ (supply Mode.off (some r) .off).pwr.restart = some r
      ∧ (supply Mode.off (some r) .off).mode = Mode.off)
    ∧ (run.plumbPowered = true ∧ run.mode ≠ Mode.safe ∧ run.mode ≠ Mode.service ∧ SMap.wf regDflt run.regs = true)
    ∧ run.pwr.restart = none ∧ run.plb.pfailLog = none
    ∧ (let s := supply Mode.sleep none .good
       s.settled ∧ SMap.wf regDflt s.regs = true ∧ s.mode = Mode.sleep ∧ s.pwr.vote = none ∧ s.pins.safeN = true
        ∧ s.pwr.wakeTimer = some (0, 7) ∧ s.time.counting = true)
    ∧ (let s := supply Mode.deep none .off
       s.settled ∧ SMap.wf regDflt s.regs = true ∧ s.pwr.restart = none ∧ s.pwr.stage = .off ∧ s.mode = Mode.deep
        ∧ s.flag Addr.pwrMode Fld.pwrModeColdDeep = false ∧ (s.fset Addr.pwrMode Fld.pwrModeColdDeep 1).flag Addr.pwrMode Fld.pwrModeColdDeep = true)
    ∧ (∀ p ∈ [StagePhase.rising, .halfSlew], (supply Mode.load none p).settled ∧ (supply Mode.load none p).pwr.stage = p
      ∧ (supply Mode.load none p).mode = Mode.load ∧ SMap.wf regDflt (supply Mode.load none p).regs = true)
    ∧ awaking.plumbPowered = true ∧ awaking.pwr.waking.getLsbD 3 = true := by
  unfold State.settled; decide +kernel

/-- LOAD without a lock on BKOSC, and a warm wake from DEEP. -/
def unlocked (bkosc : Nat) : State :=
  (((inMode Mode.load).fset Addr.clkStat Fld.clkStatLocked 0).fset Addr.clkStat Fld.clkStatRefclk 1).fset Addr.clkStat Fld.clkStatOnBkosc bkosc
def warm : State :=
  let s := inMode Mode.deep
  { s with pwr := { s.pwr with wake := some true } }

theorem witness_pll : (unlocked 1).settled ∧ (unlocked 1).pwr.stage = .good ∧ (unlocked 1).mode ≠ Mode.off ∧ (unlocked 1).mode ≠ Mode.deep
    ∧ (unlocked 1).mode = Mode.load ∧ (unlocked 1).locked = false ∧ (unlocked 1).flag Addr.clkStat Fld.clkStatOnBkosc = true
    ∧ warm.settled ∧ warm.waking = true ∧ warm.pins.safeN = true ∧ warm.vinBad = false ∧ run.locked = true ∧ run.plumbPowered = true
    ∧ (∀ n ∈ [5776, 6144, 6512], 94 * (3072 * 2 ^ (unlocked 1).fget Addr.clkStat Fld.clkStatRefclk) ≤ 100 * n
        ∧ 100 * n ≤ 106 * (3072 * 2 ^ (unlocked 1).fget Addr.clkStat Fld.clkStatRefclk))
    ∧ (unlocked 1).fget Addr.clkStat Fld.clkStatRefclk < 4
    ∧ ¬ 94 * (3072 * 2 ^ (unlocked 1).fget Addr.clkStat Fld.clkStatRefclk) ≤ 100 * 5775 := by
  unfold State.settled; decide +kernel

/-! ### The journal, the fuses and the flash -/

/-- The active area holds n records, or compaction is under way. -/
def journal (m n : Nat) (compacting : Bool) : State :=
  let s := ((inMode m).fset Addr.jnlStat Fld.jnlStatUsed n).fset Addr.jnlStat Fld.jnlStatCompacting compacting.toNat
  { s with plb := { s.plb with running := if compacting then [(5, 0)] else [] } }

theorem witness_compaction : run.jnlLow = false ∧ (journal Mode.run 131071 false).settled ∧ (journal Mode.run 131071 false).jnlLow = true
    ∧ (journal Mode.run 131071 false).compacting = false ∧ SMap.wf erased (journal Mode.run 131071 false).nvm.flash = true
    ∧ (journal Mode.run 131071 false).maintConflict 5 0 = none ∧ (journal Mode.run 131071 false).padsHeld = false
    ∧ (journal Mode.run 1 true).padsHeld = false
    ∧ ({ journal Mode.run 131071 false with plb := { run.plb with running := [(4, 0)] } } : State).maintConflict 5 0 = some 4
    ∧ [Mode.run, Mode.idle, Mode.safe, Mode.service].contains (journal Mode.run 131071 false).mode = true
    ∧ (journal Mode.run 1 true).settled ∧ (journal Mode.run 1 true).compacting = true ∧ (journal Mode.run 1 true).nvm.wait = []
    ∧ (journal Mode.run 1 true).plb.running.contains (5, 0) = true ∧ (journal Mode.run 1 true).compacted.length < 131072
    ∧ (∀ i, i < 0x800000 → (journal Mode.run 1 true).flashByte 0 (jnlArea 1 + i) = 0xFF) := by
  refine ⟨by decide +kernel, by unfold State.settled; decide +kernel, by decide +kernel, by decide +kernel, by decide +kernel,
    by decide +kernel, by decide +kernel, by decide +kernel, by decide +kernel, by decide +kernel,
    by unfold State.settled; decide +kernel, by decide +kernel, by decide +kernel, by decide +kernel, by decide +kernel, fun _ _ => rfl⟩

theorem witness_nvm : (journal Mode.service 1 false).settled ∧ (journal Mode.service 1 false).mode = Mode.service
    ∧ ((journal Mode.service 1 false).calItem (1 : BitVec 8).toNat (63 : BitVec 16).toNat).isSome = true
    ∧ (journal Mode.service 1 false).flag Addr.pwrVin Fld.pwrVinPfail = false ∧ (journal Mode.service 1 false).jnlUsed < 131072
    ∧ (∀ i, i < 64 → (journal Mode.service 1 false).flashByte 0 (jnlArea (journal Mode.service 1 false).jnlActive
        + 64 * (journal Mode.service 1 false).jnlUsed + i) = 0xFF)
    ∧ run.mode ≠ Mode.service ∧ isHostOrZelfa .host = true ∧ (inMode Mode.service).nvm.locked = false
    ∧ ({ inMode Mode.service with nvm := { run.nvm with locked := true } } : State).nvm.locked = true
    ∧ (let s := { inMode Mode.service with img := { run.img with present := true } }
       s.settled ∧ s.mode = Mode.service ∧ s.padsHeld = false ∧ (held s).settled ∧ (held s).padsHeld = true
        ∧ (held s).mode = Mode.service ∧ (held s).inBootedSlot 0 0x6000000 16 = false ∧ s.inBootedSlot 0 0x5FFFFFF 1 = true ∧ s.inBootedSlot 0 0x6000000 16 = false ∧ s.inBootedSlot 1 0 16 = false
        ∧ 0x6000000 + 16 ≤ 2 ^ 28 ∧ SMap.wf erased s.nvm.flash = true)
    ∧ (let s := { run with nvm := { run.nvm with ops := [⟨0, 0, 16⟩] } }
       s.settled ∧ s.nvm.ops = [⟨0, 0, 16⟩]) := by
  refine ⟨by unfold State.settled; decide +kernel, by decide +kernel, by decide +kernel, by decide +kernel, by decide +kernel,
    fun _ _ => rfl, by unfold State.settled; decide +kernel⟩

/-! ### Plumb, maintenance and the test access port -/

/-- In SAFE for a cause. -/
def safe (r : Nat) : State :=
  let s := ((inMode Mode.safe).setReg Addr.plbCause (BitVec.ofNat 64 (2 ^ r))).fset Addr.plbStat Fld.plbStatSafe 1
  { s with pins := { s.pins with faultN := false } }

theorem witness_plumb : run.settled ∧ run.plumbPowered = true ∧ run.mode ≠ Mode.safe ∧ run.mode ≠ Mode.service
    ∧ wdtWriter 7 (.zelfa 7) = true ∧ wdtWriter 7 (.zelfa 0) = false ∧ run.flag (Addr.plbWdt 7) Fld.plbWdtEn = false
    ∧ (run.fset (Addr.plbWdt 7) Fld.plbWdtEn 1).flag (Addr.plbWdt 7) Fld.plbWdtEn = true ∧ run.time.counting = true
    ∧ (safe 7).settled ∧ (safe 7).mode = Mode.safe ∧ (safe 7).plumbPowered = true
    ∧ run.junction [1599] < 1600 ∧ 1600 ≤ run.junction [1600] ∧ 1680 < run.junction [1681] ∧ run.plb.hot = 0
    ∧ ({ run with plb := { run.plb with hot := 1 } } : State).plb.hot = 1
    ∧ run.pins.thermAlertN = true ∧ ({ run with pins := { run.pins with thermAlertN := false } } : State).pins.thermAlertN = false
    ∧ run.mode ≠ Mode.load ∧ run.safeNMasked = false ∧ (run.fset Addr.plbMask Fld.plbMaskSafeNMask 1).safeNMasked = true
    ∧ (∀ r, r < 17 → bitOf ((safe 16).reg Addr.plbCause).toNat r = true → (safe 16).reasonGone r = true)
    ∧ bitOf ((safe 6).reg Addr.plbCause).toNat 6 = true ∧ (safe 6).reasonGone 6 = false
    ∧ isHostOrZelfa (.tile 0) = false ∧ isHostOrZelfa .host = true ∧ isZelfa .host = false ∧ isZelfa (.zelfa 0) = true
    ∧ (inMode Mode.service).img.safeNLock = false ∧ (inMode Mode.service).mode = Mode.service
    ∧ (let s := { run with img := { run.img with gpio := [(31, ⟨1, 1, 0⟩)] }, pins := { run.pins with gpioZ := 0 } }
       s.settled ∧ s.gpioDrives 31 = true) ∧ run.gpioDrives 0 = false := by
  unfold State.settled; decide +kernel

/-- The 20 sensors agree, but for sensor 19 in `warm`. -/
def cool : List (BitVec 16) := List.replicate 20 400
def oneWarm : List (BitVec 16) := List.replicate 19 400 ++ [1000]

theorem witness_maintenance : maintRow run (.calendarAudit .host) .host 4 0 true ∧ maintRow run (.thermalSensorCheck .host) .host 7 0 true
    ∧ (maintModes 4).contains run.mode = true ∧ (maintModes 1).contains run.mode = false ∧ run.maintConflict 4 0 = none
    ∧ (journal Mode.run 1 true).maintConflict 4 0 = some 5 ∧ (maintModes 1).contains Mode.service = true
    ∧ maintRow (inMode Mode.service) (.tsLoopbackCal .host 63) .host 3 63 false ∧ (inMode Mode.service).laneUsed 63 = false
    ∧ run.scrubEnabled 24 = false ∧ run.rwlOpen = false ∧ (inMode Mode.service).rwlOpen = true
    ∧ run.plb.running.contains (4, 0) = false
    ∧ (∀ p ∈ [(1, 6144), (3, 63), (4, 0), (7, 0)],
        let s := { inMode Mode.run with plb := { run.plb with running := [p] } }
        s.settled ∧ s.plb.running.contains p = true)
    ∧ (63 : BitVec 13).toNat < 64 ∧ run.nvm.compactDue = false ∧ run.auditOk = true
    ∧ ({ run with cmp := { run.cmp with cal := calSet [] 0 5 10 } } : State).auditOk = false
    ∧ (run.strays cool).filter (fun k => !run.excluded k) = [] ∧ (run.strays oneWarm).filter (fun k => !run.excluded k) = [19] := by
  refine ⟨Or.inr (Or.inr (Or.inl ⟨rfl, rfl, rfl, rfl⟩)), Or.inr (Or.inr (Or.inr ⟨rfl, rfl, rfl, rfl⟩)), by decide +kernel,
    by decide +kernel, by decide +kernel, by decide +kernel, by decide +kernel,
    Or.inr (Or.inl ⟨63, rfl, rfl, rfl, by decide +kernel⟩), by unfold State.settled; decide +kernel⟩

/-- Bank 0 is the debug port's by its identity; the part is secured outside SERVICE. -/
def dap (write : Nat) : BitVec 128 := BitVec.ofNat 128 (16 + write * 2 ^ 5)

theorem witness_tap : run.settled ∧ run.jtag.fresh = false ∧ ({ run with jtag := { run.jtag with fresh := true } } : State).jtag.fresh = true
    ∧ Acc.go 0 = false ∧ (∀ w, w < 2 → Acc.go (dap w) = true ∧ Acc.write (dap w) = (w == 1) ∧ Acc.size (dap w) ≤ 1 ∧ Acc.addr (dap w) % 4 = 0)
    ∧ cellsGood run ∧ run.memReady [Ident.dap] 0 ∧ run.poisoned 0 = false ∧ run.dapLocked = false
    ∧ ((run.fset Addr.devSecure Fld.devSecureSecure 1).settled ∧ (run.fset Addr.devSecure Fld.devSecureSecure 1).dapLocked = true)
    ∧ haltTarget 0 191 = some 191 ∧ haltTarget 1 7 = some 199 ∧ haltTarget 0 192 = none
    ∧ (tile.core 0).state = 1 ∧ (tile.core 0).rep = none
    ∧ ((tile.setCore 0 { core0 with rep := some (3, 0xFC) }).core 0).rep.isSome = true
    ∧ ((tile.setCore 0 { core0 with state := 3 }).core 0).state = 3
    ∧ run.tapOn = true ∧ tile.tapOn = true ∧ (safe 12).tapOn = true ∧ run.jtag.ir = 0x01
    ∧ (∀ m ∈ [Mode.off, Mode.deep], (inMode m).settled ∧ (inMode m).tapOn = (m == Mode.deep))
    ∧ run.mode ≠ Mode.deep ∧ tile.mode ≠ Mode.deep ∧ (inMode Mode.deep).dapLocked = false
    ∧ (safe 12).padsHeld = false ∧ (held (safe 12)).padsHeld = true
    ∧ run.bridgeActs = false ∧ (safe 12).bridgeActs = true ∧ (safe 12).mode ≠ Mode.service ∧ Bridge.go 0 = false
    ∧ Bridge.go 0x809F00 = true ∧ Bridge.last 0x809F00 = false ∧ (safe 12).withheldOf (Bridge.cs 0x809F00) = false := by
  refine ⟨by unfold State.settled; decide +kernel, by decide +kernel, by decide +kernel, by decide +kernel, by decide +kernel,
    good _ rfl rfl, Exists.intro 0 (by decide +kernel), by unfold State.settled; decide +kernel⟩

theorem witness_doubts : (∀ m ∈ [Mode.run, Mode.safe, Mode.service], (inMode m).plumbPowered = true)
    ∧ (run.doubt Doubt.lockstep).plb.raised = [7] ∧ (∀ r ∈ [(7 : Nat)], r ≤ 16) := by
  decide +kernel

/-! ### A whole image, and start-up -/

/-- Byte j of a number. -/
def byteOf (v j : Nat) : Byte := BitVec.ofNat 8 (v / 256 ^ j)

/-- Where the ten sections lie, and their lengths (R377, R390 to R399): one EQ entry, no stream, no coefficient set, no
template, no wheel entry and two firmware segments. -/
def secOffs : List Nat := [0x180, 0x200, 0x3C0, 0x480, 0x700, 0xBC0, 0x14440, 0x164C0, 0x16500, 0x1BCC0]
def secLens : List Nat := [0x50, 0x188, 0x88, 0x270, 0x4C0, 0x13880, 0x2060, 0x20, 0x5790, 0xC4]
def imgLen : Nat := 0x1BD84

/-- REFCLK 61.44 MHz, one EQ entry for lane 0 at rate 0x11, CXL at least 8 GT/s × 8, grace time 500 ms (Table 16-6). -/
def boardV : Nat := recP 0 0 1 + recP 2 0 0x40 + recP 4 0 0x80000 + recP 0xA 0 1 + recP 0x1C 0 3 + recP 0x1D 0 8 + recP 0x1E 0 100
  + recP 0x20 0 500 + recP 0x41 0 0x11 + recP 0x45 0 40
/-- The servo's parameters, PTP domain 24, and local priority 1 of every port (Tables 13-4, 16-13, 16-14). -/
def clockV : Nat := ((([16, 1, 1, 100, 0xA0001, 1000, 10, 100, 3600, 4, 0x80000, 0, 0, 1000, 0, 2] : List Nat).zipIdx.map fun p => recP (4 * p.2) 0 p.1).sum)
  + recP 0x44 0 24 + ((List.range 64).map fun p => recP (0x88 + 4 * p) 0 1).sum
/-- UPSTREAM and BACKOFF_MS (Table 16-16). -/
def powerV (policy : Nat) : Nat := recP 0 4 policy + recP 8 0 1000
/-- No lane is used and no port starts (Tables 16-17 and 16-18). -/
def fhV : Nat := ((List.range 64).map fun p => recP (0x80 + 16 * p) 0 0xFF).sum
/-- B and F of the classes (Table 16-24). -/
def classV : Nat := ((List.range 12).map fun c => recP (8 * c) 0 1000 + recP (8 * c + 2) 0 90).sum
/-- A Zelfa segment for core 0 in fronthaul buffer bank 42 and a Plumb segment in bank 92 (Tables 16-30 and 16-31). -/
def fwV : Nat := recP 0 0 2
  + (recP 9 0 1 + recP 0xC 0 128 + recP 0x10 0 4 + recP 0x14 0 0x202A0000 + recP 0x1C 0 0x202A0000)
  + (recP 0x28 0 1 + recP 0x2C 0 192 + recP 0x30 0 4 + recP 0x34 0 0x205C0000 + recP 0x3C 0 0x205C0000)

/-- Byte j of section k; the carriers section holds only the chains' absent sets, the interconnect section every bridge, the memory map only the
Plumb bank's DECTED and CRIT. -/
def secByte (policy k j : Nat) : Byte :=
  match k with
  | 0 => byteOf boardV j
  | 1 => byteOf clockV j
  | 3 => byteOf (powerV policy) j
  | 4 => byteOf fhV j
  | 5 => bif Nat.blt j 0x12840 then 0 else bif Nat.blt j 0x13840 then bif Nat.blt (j % 32) 20 then 0 else bif Nat.blt (j % 32) 24 then 0xFF else 0 else 0
  | 6 => bif Nat.blt j 0x60 then byteOf classV j else 0
  | 7 => bif Nat.blt j 12 then bif Nat.beq (j % 4) 3 then 0 else 0xFF else 0
  | 8 => bif Nat.beq j (4 * 4700) then 0x0A else 0
  | 9 => bif Nat.blt j 0x48 then byteOf fwV j else 0
  | _ => 0

/-- The section that an offset at or after 0x180 lies in or before whose successor it lies. -/
def secAt (i : Nat) : Nat :=
  bif Nat.blt i 0x200 then 0 else bif Nat.blt i 0x3C0 then 1 else bif Nat.blt i 0x480 then 2 else bif Nat.blt i 0x700 then 3
  else bif Nat.blt i 0xBC0 then 4 else bif Nat.blt i 0x14440 then 5 else bif Nat.blt i 0x164C0 then 6
  else bif Nat.blt i 0x16500 then 7 else bif Nat.blt i 0x1BCC0 then 8 else 9

def bodyByte (policy i : Nat) : Byte := secByte policy (secAt i) (i - secOffs.getD (secAt i) 0)

/-- The header (Table 16-3) but for HDR_CRC, and directory entry k (Table 16-4) but for CRC. -/
def headV : Nat := 0x3158534B + recP 4 0 1 + recP 6 0 10 + recP 8 0 imgLen
def dirV (k : Nat) : Nat := (k + 1) + recP 2 0 1 + recP 4 0 (secOffs.getD k 0) + recP 8 0 (secLens.getD k 0)

/-- Byte i of the image with these section CRCs and this HDR_CRC. -/
def imgByte (policy : Nat) (crc : Nat → Nat) (h i : Nat) : Byte :=
  bif Nat.blt i 0x3C then byteOf headV i
  else bif Nat.blt i 0x40 then byteOf h (i - 0x3C)
  else bif Nat.blt i 0x180 then
    bif Nat.blt ((i - 0x40) % 32) 12 then byteOf (dirV ((i - 0x40) / 32)) ((i - 0x40) % 32)
    else bif Nat.blt ((i - 0x40) % 32) 16 then byteOf (crc ((i - 0x40) / 32)) ((i - 0x40) % 32 - 12)
    else 0
  else bif Nat.blt i imgLen then bodyByte policy i
  else 0xFF

/-- The CRCs that the image needs. -/
def imgCrc (policy k : Nat) : Nat := crc32c ((List.range (secLens.getD k 0)).map fun i => bodyByte policy (secOffs.getD k 0 + i))
def imgHdrCrc (policy : Nat) : Nat :=
  let r := imgByte policy (imgCrc policy) 0
  crc32c (rdBytes r 0 0x3C ++ [0, 0, 0, 0] ++ rdBytes r 0x40 320)

def image (policy : Nat) : Rd := imgByte policy (imgCrc policy) (imgHdrCrc policy)

/-- The image in slot A of the first flash, in LOAD with the stage good. -/
def booting (policy : Nat) : State :=
  let s := inMode Mode.load
  { s with nvm := { s.nvm with flash := (List.range imgLen).map fun i => (i, image policy i) } }

theorem get_range (f : Nat → Byte) (n o i : Nat) :
    SMap.get erased ((List.range' o n).map fun i => (i, f i)) i = if o ≤ i ∧ i < o + n then f i else 0xFF := by
  induction n generalizing o with
  | zero => rw [if_neg (by omega)]; rfl
  | succ n ih =>
    rw [List.range'_succ, List.map_cons, SMap.get]
    by_cases h : i = o
    · subst h; simp
    · rw [if_neg h]
      by_cases h' : i < o
      · rw [if_pos h', if_neg (by omega)]; rfl
      · rw [if_neg h', ih]
        by_cases h'' : i < o + (n + 1)
        · rw [if_pos (by omega), if_pos (by omega)]
        · rw [if_neg (by omega), if_neg (by omega)]

theorem image_read (policy : Nat) : (booting policy).imageAt ⟨0, 0⟩ = image policy := by
  funext i
  have h : (booting policy).imageAt ⟨0, 0⟩ i = SMap.get erased ((List.range' 0 imgLen).map fun i => (i, image policy i)) i := by
    unfold State.imageAt State.flashByte flashKey
    rw [← List.range_eq_range']
    simp [booting]
  rw [h, get_range]
  by_cases hi : i < imgLen
  · rw [if_pos ⟨Nat.zero_le _, by omega⟩]
  · rw [if_neg (by omega)]
    have e : ∀ n, n ≤ imgLen → Nat.blt i n = false := by
      intro n hn
      rw [Bool.eq_false_iff]
      intro h
      have := Nat.le_of_ble_eq_true h
      omega
    unfold image imgByte
    rw [e _ (by decide), e _ (by decide), e _ (by decide), e _ (by decide)]
    rfl

theorem blt_false {i n : Nat} (h : n ≤ i) : Nat.blt i n = false := by
  rw [Bool.eq_false_iff]
  intro e
  have := Nat.le_of_ble_eq_true e
  omega

theorem blt_true {i n : Nat} (h : i < n) : Nat.blt i n = true := Nat.ble_eq_true_of_le h

theorem img_body (policy h i : Nat) (crc : Nat → Nat) (lo : 0x180 ≤ i) (hi : i < imgLen) :
    imgByte policy crc h i = bodyByte policy i := by
  unfold imgByte
  rw [blt_false (by omega), blt_false (by omega), blt_false lo, blt_true hi]; rfl

/-- HDR_CRC's own bytes apart, the header and directory do not depend on it. -/
theorem img_head (policy h i : Nat) (crc : Nat → Nat) (hi : i < 0x3C ∨ 0x40 ≤ i) :
    imgByte policy crc h i = imgByte policy crc 0 i := by
  unfold imgByte
  rcases hi with hi | hi
  · rw [blt_true hi]; rfl
  · rw [blt_false (show 0x3C ≤ i by omega), blt_false hi]; rfl

theorem crcShiftR_lt (p : Nat) (hp : p < 2 ^ 32) : ∀ n c, c < 2 ^ 32 → crcShiftR p n c < 2 ^ 32
  | 0, _, h => h
  | n + 1, c, h => by
    unfold crcShiftR
    refine crcShiftR_lt p hp n _ ?_
    split
    · exact Nat.xor_lt_two_pow (by omega) hp
    · omega

theorem crc32c_lt (l : List Byte) : crc32c l < 2 ^ 32 := by
  have h : ∀ (l : List Byte) c, c < 2 ^ 32 → l.foldl (fun c b => crcShiftR 0x82F63B78 8 (c ^^^ b.toNat)) c < 2 ^ 32 := by
    intro l
    induction l with
    | nil => intro c hc; exact hc
    | cons b l ih =>
      intro c hc
      refine ih _ (crcShiftR_lt _ (by decide) 8 _ (Nat.xor_lt_two_pow hc ?_))
      have := b.isLt
      omega
  exact Nat.xor_lt_two_pow (h l _ (by decide)) (by decide)

/-- Four bytes of a number read back as the number. -/
theorem rdF_word (r : Rd) (off v : Nat) (hv : v < 2 ^ 32) (h : ∀ j, j < 4 → r (off + j) = byteOf v j) : rdF r off 31 0 = v := by
  have e : rdBytes r off 4 = [byteOf v 0, byteOf v 1, byteOf v 2, byteOf v 3] := by
    simp [rdBytes, List.range, List.range.loop, ← h]
  simp only [rdF, Nat.zero_div, Nat.add_zero, Nat.zero_mod, Nat.pow_zero, Nat.div_one]
  rw [show 31 / 8 + 1 - 0 = 4 from rfl, e]
  simp only [leVal, byteOf, BitVec.toNat_ofNat]
  omega

theorem secs_at : ∀ k, k < 10 → secOff (image 0) k = secOffs.getD k 0 ∧ secLen (image 0) k = secLens.getD k 0
    ∧ secOff (image 2) k = secOffs.getD k 0 ∧ secLen (image 2) k = secLens.getD k 0
    ∧ 0x180 ≤ secOffs.getD k 0 ∧ secOffs.getD k 0 + secLens.getD k 0 ≤ imgLen := by decide +kernel

theorem sec_crcs (policy k : Nat) (hk : k < 10) (ho : secOff (image policy) k = secOffs.getD k 0)
    (hl : secLen (image policy) k = secLens.getD k 0) : secCrcOk (image policy) k = true := by
  obtain ⟨-, -, -, -, lo, hi⟩ := secs_at k hk
  have e : secCrc (image policy) k = imgCrc policy k := by
    refine rdF_word _ _ _ (crc32c_lt _) fun j hj => ?_
    unfold image imgByte
    have h : dirAt k + 12 + j = 0x40 + 32 * k + 12 + j := rfl
    rw [h, blt_false (by omega), blt_false (by omega), blt_true (by omega)]
    have h1 : (0x40 + 32 * k + 12 + j - 0x40) % 32 = 12 + j := by omega
    have h2 : (0x40 + 32 * k + 12 + j - 0x40) / 32 = k := by omega
    rw [h1, h2, blt_false (by omega), blt_true (by omega), show 12 + j - 12 = j by omega]
    rfl
  unfold secCrcOk
  rw [e, ho, hl, beq_iff_eq]
  unfold imgCrc rdBytes
  congr 1
  refine List.map_congr_left fun i hi' => ?_
  rw [List.mem_range] at hi'
  exact img_body _ _ _ _ (by omega) (by omega)

theorem hdr_crc (policy : Nat) (hc : hdrCount (image policy) = 10) : hdrCrcOk (image policy) = true := by
  have e : rdF (image policy) 0x3C 31 0 = imgHdrCrc policy := by
    refine rdF_word _ _ _ (crc32c_lt _) fun j hj => ?_
    unfold image imgByte
    rw [blt_false (by omega), blt_true (by omega), show 0x3C + j - 0x3C = j by omega]
    rfl
  unfold hdrCrcOk
  rw [e, hc, beq_iff_eq]
  unfold imgHdrCrc
  have h1 : rdBytes (image policy) 0 0x3C = rdBytes (imgByte policy (imgCrc policy) 0) 0 0x3C :=
    List.map_congr_left fun i hi => img_head _ _ _ _ (Or.inl (by have := List.mem_range.1 hi; omega))
  have h2 : rdBytes (image policy) 0x40 320 = rdBytes (imgByte policy (imgCrc policy) 0) 0x40 320 :=
    List.map_congr_left fun i _ => img_head _ _ _ _ (Or.inr (by omega))
  simp only [h1, h2, Nat.reduceMul]

theorem leVal_zero (r : Rd) (off : Nat) : ∀ n, (∀ j, j < n → r (off + j) = 0) → leVal (rdBytes r off n) = 0 := by
  intro n h
  have e : ∀ l : List Byte, (∀ b ∈ l, b = 0) → leVal l = 0 := by
    intro l
    induction l with
    | nil => intro _; rfl
    | cons b l ih =>
      intro hl
      rw [leVal, hl b List.mem_cons_self, ih fun x hx => hl x (List.mem_cons_of_mem _ hx)]
      rfl
  refine e _ fun b hb => ?_
  obtain ⟨j, hj, rfl⟩ := List.mem_map.1 hb
  exact h j (List.mem_range.1 hj)

/-- A field whose bytes are zero. -/
theorem rdF_zero (r : Rd) (off hi lo : Nat) (h : ∀ j, off + lo / 8 ≤ j → j ≤ off + hi / 8 → r j = 0) : rdF r off hi lo = 0 := by
  unfold rdF
  rw [leVal_zero _ _ _ fun j hj => h _ (by omega) (by omega)]
  simp

/-- Section k of the unsigned image, read from its start. -/
def secR (k : Nat) : Rd := rdAt (image 0) (secOffs.getD k 0)

theorem secR_eq (k j : Nat) (hk : k < 10) (hj : j < secLens.getD k 0) (ha : secAt (secOffs.getD k 0 + j) = k) :
    secR k j = secByte 0 k j := by
  obtain ⟨-, -, -, -, lo, hi⟩ := secs_at k hk
  unfold secR rdAt image
  rw [img_body _ _ _ _ (by omega) (by omega)]
  unfold bodyByte
  rw [ha, Nat.add_sub_cancel_left]

theorem tpl_absent (t : Nat) (ht : t < 1024) : tplHere (secR 6) t = false := by
  have z : ∀ j, 0x60 ≤ j → j < 0x2060 → secR 6 j = 0 := by
    intro j lo hi
    have ha : secAt (0x14440 + j) = 6 := by
      unfold secAt
      simp only [blt_false (show 0x200 ≤ 0x14440 + j by omega), blt_false (show 0x3C0 ≤ 0x14440 + j by omega),
        blt_false (show 0x480 ≤ 0x14440 + j by omega), blt_false (show 0x700 ≤ 0x14440 + j by omega),
        blt_false (show 0xBC0 ≤ 0x14440 + j by omega), blt_false (show 0x14440 ≤ 0x14440 + j by omega),
        blt_true (show 0x14440 + j < 0x164C0 by omega), cond_true, cond_false]
    rw [secR_eq 6 j (by omega) hi ha]
    simp only [secByte, blt_false lo, cond_false]
  unfold tplHere tplOff tplLen
  rw [rdF_zero _ _ _ _ fun j hl hr => z j (by unfold tdirAt at hl; omega) (by unfold tdirAt at hr; omega),
    rdF_zero _ _ _ _ fun j hl hr => z j (by unfold tdirAt at hl; omega) (by unfold tdirAt at hr; omega)]
  rfl

theorem tpl_ok : templatesOk (secR 6) 0x2060 = true := by
  have h0 : ∀ l : List Nat, (∀ t ∈ l, t < 1024) → ∀ m, l.foldl (fun m t => max m (tplOff (secR 6) t + tplLen (secR 6) t)) m = m := by
    intro l
    induction l with
    | nil => intro _ m; rfl
    | cons t l ih =>
      intro hl m
      have ht := tpl_absent t (hl t List.mem_cons_self)
      unfold tplHere at ht
      rw [Bool.or_eq_false_iff, bne_eq_false_iff_eq, bne_eq_false_iff_eq] at ht
      rw [List.foldl_cons, ht.1, ht.2, Nat.max_eq_left (Nat.zero_le m)]
      exact ih (fun x hx => hl x (List.mem_cons_of_mem _ hx)) m
  have hm : ∀ t ∈ List.range 1024, tplHere (secR 6) t = false := fun t ht => tpl_absent t (List.mem_range.1 ht)
  unfold templatesOk tplEnd
  rw [h0 _ (fun t ht => List.mem_range.1 ht)]
  refine Bool.and_eq_true_iff.2 ⟨Bool.and_eq_true_iff.2 ⟨by decide +kernel, ?_⟩, ?_⟩
  · exact List.all_eq_true.2 fun t ht => by unfold tplOk; rw [hm t ht]; rfl
  · exact List.all_eq_true.2 fun t ht => List.all_eq_true.2 fun u _ => by unfold tplApart; simp [hm t ht]

theorem mem_zero (j : Nat) (hj : j < 0x5790) (hn : j ≠ 18800) : secR 8 j = 0 := by
  have ha : secAt (0x16500 + j) = 8 := by
    unfold secAt
    simp only [blt_false (show 0x200 ≤ 0x16500 + j by omega), blt_false (show 0x3C0 ≤ 0x16500 + j by omega),
      blt_false (show 0x480 ≤ 0x16500 + j by omega), blt_false (show 0x700 ≤ 0x16500 + j by omega),
      blt_false (show 0xBC0 ≤ 0x16500 + j by omega), blt_false (show 0x14440 ≤ 0x16500 + j by omega),
      blt_false (show 0x164C0 ≤ 0x16500 + j by omega), blt_false (show 0x16500 ≤ 0x16500 + j by omega),
      blt_true (show 0x16500 + j < 0x1BCC0 by omega), cond_true, cond_false]
  rw [secR_eq 8 j (by omega) hj ha]
  have : Nat.beq j (4 * 4700) = false := by
    rw [Bool.eq_false_iff]; intro e; exact hn (Nat.eq_of_beq_eq_true e)
  simp only [secByte, this, cond_false]

theorem mem_ok : memoryOk (secR 6) (secR 8) 0x5790 = true := by
  have hb : (List.range 4864).all (bankEntryOk (secR 8)) = true := by
    refine List.all_eq_true.2 fun n hn => ?_
    have hn := List.mem_range.1 hn
    by_cases h : n = 4700
    · subst h; decide +kernel
    · unfold bankEntryOk
      rw [rdF_zero _ _ _ _ fun j _ _ => mem_zero j (by omega) (by omega),
        rdF_zero _ _ _ _ fun j _ _ => mem_zero j (by omega) (by omega)]
      rfl
  have he : entriesCover (secR 6) (secR 8) = true := by
    unfold entriesCover
    exact List.all_eq_true.2 fun t ht => by rw [tpl_absent t (List.mem_range.1 ht)]; rfl
  have hm : (List.range 512).all (bar2Ok (secR 8)) = true := List.all_eq_true.2 fun i hi => by
    have := List.mem_range.1 hi
    dsimp only [bar2Ok, rdBit]
    rw [rdF_zero _ _ 30 13 fun j _ _ => mem_zero j (by omega) (by omega),
      rdF_zero _ _ 31 31 fun j _ _ => mem_zero j (by omega) (by omega)]
    rfl
  unfold memoryOk
  rw [hb, he, hm]
  decide +kernel

theorem rdZero_of (r : Rd) (off n : Nat) (h : ∀ j, j < n → r (off + j) = 0) : rdZero r off n = true :=
  List.all_eq_true.2 fun j hj => by rw [h j (List.mem_range.1 hj)]; rfl

theorem car_zero (j : Nat) (hj : j < 0x12840) : secR 5 j = 0 := by
  have ha : secAt (0xBC0 + j) = 5 := by
    unfold secAt
    simp only [blt_false (show 0x200 ≤ 0xBC0 + j by omega), blt_false (show 0x3C0 ≤ 0xBC0 + j by omega),
      blt_false (show 0x480 ≤ 0xBC0 + j by omega), blt_false (show 0x700 ≤ 0xBC0 + j by omega),
      blt_false (show 0xBC0 ≤ 0xBC0 + j by omega), blt_true (show 0xBC0 + j < 0x14440 by omega), cond_true, cond_false]
  rw [secR_eq 5 j (by omega) (by simp [secLens]; omega) ha]
  simp only [secByte, blt_true hj, cond_true]

theorem car_ok : carriersOk (secR 5) 0x13880 = true := by
  have f : ∀ o off hi lo, o + off + hi / 8 < 0x12840 → rdF (rdAt (secR 5) o) off hi lo = 0 := fun o off hi lo h =>
    rdF_zero _ _ _ _ fun j _ hr => car_zero (o + j) (by omega)
  have b : ∀ o off k, o + off + k / 8 < 0x12840 → rdBit (rdAt (secR 5) o) off k = false := fun o off k h => by
    unfold rdBit; rw [f _ _ _ _ h]; rfl
  have y : ∀ o off n, o + off + n < 0x12840 → rdZero (rdAt (secR 5) o) off n = true := fun o off n h =>
    rdZero_of _ _ _ fun j hj => car_zero (o + (off + j)) (by omega)
  have e : ∀ n, n < 64 → ctxEntry (secR 5) n = CtxT.none := fun n hn => by
    unfold ctxEntry CtxT.none
    simp only [f _ _ _ _ (show 32 * n + 0 + 2 / 8 < 0x12840 by omega), f _ _ _ _ (show 32 * n + 0 + 8 / 8 < 0x12840 by omega),
      f _ _ _ _ (show 32 * n + 0 + 11 / 8 < 0x12840 by omega), f _ _ _ _ (show 32 * n + 0 + 23 / 8 < 0x12840 by omega),
      f _ _ _ _ (show 32 * n + 4 + 31 / 8 < 0x12840 by omega), f _ _ _ _ (show 32 * n + 8 + 31 / 8 < 0x12840 by omega),
      b _ _ _ (show 32 * n + 0 + 0 / 8 < 0x12840 by omega), b _ _ _ (show 32 * n + 0 + 3 / 8 < 0x12840 by omega),
      b _ _ _ (show 32 * n + 0 + 4 / 8 < 0x12840 by omega)]
  have h1 : (List.range 64).all (ctxOk (secR 5)) = true := List.all_eq_true.2 fun n hn => by
    have hn := List.mem_range.1 hn
    unfold ctxOk
    simp only [e n hn, f _ _ _ _ (show 32 * n + 0 + 31 / 8 < 0x12840 by omega), f _ _ _ _ (show 32 * n + 0 + 15 / 8 < 0x12840 by omega),
      y _ _ _ (show 32 * n + 0x0C + 20 < 0x12840 by omega)]
    rfl
  have h2 : ((List.range 64).map (ctxEntry (secR 5))).all (fun x => ((List.range 64).map (ctxEntry (secR 5))).all (lgPairOk (secR 5) x)) = true := by
    refine List.all_eq_true.2 fun x hx => List.all_eq_true.2 fun v _ => ?_
    obtain ⟨n, hn, rfl⟩ := List.mem_map.1 hx
    rw [e n (List.mem_range.1 hn)]
    rfl
  have h3 : (List.range 512).all (carrierOk (secR 5)) = true := List.all_eq_true.2 fun c hc => by
    have hc := List.mem_range.1 hc
    have ho : carrierAt c = 0x840 + 16 * c := rfl
    unfold carrierOk
    simp only [f _ _ _ _ (show carrierAt c + 0 + 31 / 8 < 0x12840 by omega), f _ _ _ _ (show carrierAt c + 0 + 1 / 8 < 0x12840 by omega),
      f _ _ _ _ (show carrierAt c + 4 + 15 / 8 < 0x12840 by omega), f _ _ _ _ (show carrierAt c + 6 + 15 / 8 < 0x12840 by omega),
      y _ _ _ (show carrierAt c + 8 + 8 < 0x12840 by omega)]
    rfl
  unfold carriersOk
  simp only [h1, h2, h3]
  decide +kernel

theorem content_ok (s : State) : contentOk s (image 0) = true := by
  have hs : ∀ k, k < 10 → sec (image 0) (k + 1) = secR k ∧ secLength (image 0) (k + 1) = secLens.getD k 0 := fun k hk =>
    ⟨by unfold sec secR; rw [Nat.add_sub_cancel, (secs_at k hk).1],
      by unfold secLength; rw [Nat.add_sub_cancel, (secs_at k hk).2.1]⟩
  have hc : hdrCount (image 0) = 10 := by decide +kernel
  unfold contentOk
  rw [(hs 0 (by omega)).1, (hs 0 (by omega)).2, (hs 1 (by omega)).1, (hs 1 (by omega)).2, (hs 2 (by omega)).1, (hs 2 (by omega)).2,
    (hs 3 (by omega)).1, (hs 3 (by omega)).2, (hs 4 (by omega)).1, (hs 4 (by omega)).2, (hs 5 (by omega)).1, (hs 5 (by omega)).2,
    (hs 6 (by omega)).1, (hs 6 (by omega)).2, (hs 7 (by omega)).1, (hs 7 (by omega)).2, (hs 8 (by omega)).1, (hs 8 (by omega)).2,
    (hs 9 (by omega)).1, (hs 9 (by omega)).2, hc]
  have e1 : boardOk (secR 0) 0x50 = true := by decide +kernel
  have e2 : clockOk (secR 1) 0x188 = true := by decide +kernel
  have e3 : padsOk (secR 2) 0x88 = true := by decide +kernel
  have e4 : powerOk (secR 3) 0x270 = true := by decide +kernel
  have e5 : fronthaulOk (secR 0) (secR 4) 0x4C0 (homeOf (secR 8)) = true := by decide +kernel
  have e8 : nocOk (secR 7) 0x20 = true := by decide +kernel
  have e10 : firmwareOk (secR 8) (secR 9) 0xC4 = true := by decide +kernel
  have h : ∀ a b c d e f g i j k : Bool, a = true → b = true → c = true → d = true → e = true → f = true → g = true → i = true →
      j = true → k = true → ∀ x, (a && b && c && d && e && f && g && i && j && k && (((10 : Nat) == 10) || x)) = true := by
    intro a b c d e f g i j k ha hb hc hd he hf hg hi hj hk x
    simp [ha, hb, hc, hd, he, hf, hg, hi, hj, hk]
  exact h _ _ _ _ _ _ _ _ _ _ e1 e2 e3 e4 e5 car_ok tpl_ok e8 mem_ok e10 _

/-- StartupSequence: the board shows its declared reference, both chip selects answer, and the two reads of the image agree. -/
def env0 (sfdp : BitVec 2) (count : BitVec 16) (locks : Bool) : StartEnv :=
  { bootsel := 0, sfdp := sfdp, modes0 := 1, modes1 := 1, statusWord := none, vout := none, sdaLow := false, count := count
    locks := locks, changed := 0, link := none }

theorem attempts_from (env : StartEnv) (hb : env.bootsel = 0) : attempts env = [⟨0, 0⟩, ⟨0, 1⟩, ⟨1, 0⟩, ⟨1, 1⟩] := by
  unfold attempts; rw [hb]; rfl

theorem first_board (policy : Nat) (env : StartEnv) (hb : env.bootsel = 0) (hf : env.sfdp = 1) (hh : hdrOk (image policy) = true)
    (hc : secCrcOk (image policy) 0 = true) : (booting policy).firstBoard env = some (image policy) := by
  have hp : flashPresent env 0 = true := by unfold flashPresent; rw [hf]; rfl
  unfold State.firstBoard
  rw [attempts_from env hb, List.find?_cons_of_pos (by simp [boardRead, hp, image_read, hh, hc]), Option.map_some, image_read]

theorem image_loads (env : StartEnv) (hf : env.sfdp = 1) (hc : env.changed = 0) : (booting 0).attemptCause env 0 ⟨0, 0⟩ = 0 := by
  have hh : hdrOk (image 0) = true := by decide +kernel
  have hn : hdrCount (image 0) = 10 := by decide +kernel
  have hp : flashPresent env 0 = true := by unfold flashPresent; rw [hf]; rfl
  have hs : (List.range (hdrCount (image 0))).all (secCrcOk (image 0)) = true := by
    rw [hn]
    exact List.all_eq_true.2 fun k hk => sec_crcs 0 k (List.mem_range.1 hk) (secs_at k (List.mem_range.1 hk)).1
      (secs_at k (List.mem_range.1 hk)).2.1
  have h1 : hdrSecVer (image 0) < (booting 0).nvm.rollback ↔ False := by decide +kernel
  have h2 : (booting 0).nvm.locked = false := by rfl
  have h3 : sigCause (image 0) false (booting 0).nvm.keyHash = true := by
    unfold sigCause imgSigned
    have : hdrSig (image 0) = 0 := by decide +kernel
    rw [this]; rfl
  unfold State.attemptCause
  simp only [image_read, hp, hh, hdr_crc 0 hn, hs, h1, h2, h3, content_ok, hc]
  decide

/-- Bytes 0 to 383 of an image whose ten sections of one byte follow, the board section alone with its CRC, and HDR_CRC 0;
its REFCLK code and its power policy. -/
def stub (code : Byte) : SMap Byte :=
  ((List.range 0x180).map fun i => (i, if i < 0x40 then byteOf headV i else
    let e := (i - 0x40) / 32
    byteOf (e + 1 + recP 2 0 1 + recP 4 0 (0x180 + 64 * e) + recP 8 0 1 + recP 12 0 (if e = 0 then crc32c [code] else 0)) ((i - 0x40) % 32)))
  ++ [(0x180, code), (0x240, 0)]

/-- A stub in slot A of the first flash, and perhaps another one in slot A of the second. -/
def stubs (other : SMap Byte) : State :=
  let s := inMode Mode.load
  { s with nvm := { s.nvm with flash := stub 1 ++ other.map fun e => (2 ^ 28 + e.1, e.2) } }

def envBoth : StartEnv := { env0 3 6144 true with changed := 0xF }

theorem changed_fails (s : State) (k : Nat) (x : Attempt) (h : bitOf envBoth.changed.toNat k = true) :
    s.attemptCause envBoth k x ≠ 0 := by
  unfold State.attemptCause
  dsimp only
  rw [if_pos h]
  repeat' split
  all_goals decide

/-- StartupSequence: every attempt fails with one reference declared, and the third declares another one. -/
theorem witness_startupFails : (∀ other ∈ [[], stub 2], (stubs other).settled ∧ (stubs other).mode = Mode.load
      ∧ (stubs other).pwr.stage = .good ∧ (stubs other).firstBoard envBoth = some ((stubs other).imageAt ⟨0, 0⟩)
      ∧ rdF (sec ((stubs other).imageAt ⟨0, 0⟩) 1) 0 7 0 = 1 ∧ rdF (sec ((stubs other).imageAt ⟨0, 0⟩) 4) 0 5 4 = 0)
    ∧ attempts envBoth = [⟨0, 0⟩, ⟨0, 1⟩, ⟨1, 0⟩, ⟨1, 1⟩]
    ∧ (∀ s : State, ∀ k x, (attempts envBoth)[k]? = some x → s.attemptCause envBoth k x ≠ 0)
    ∧ (∀ x ∈ [(⟨0, 1⟩ : Attempt), ⟨1, 0⟩, ⟨1, 1⟩], boardRead envBoth (stubs []) x = false)
    ∧ boardRead envBoth (stubs (stub 2)) ⟨0, 1⟩ = false ∧ boardRead envBoth (stubs (stub 2)) ⟨1, 0⟩ = true
    ∧ rdF (sec ((stubs (stub 2)).imageAt ⟨1, 0⟩) 1) 0 7 0 = 2 := by
  have hb : ∀ k, k < 4 → bitOf envBoth.changed.toNat k = true := by decide +kernel
  have f : ∀ s : State, boardRead envBoth s ⟨0, 0⟩ = true → s.firstBoard envBoth = some (s.imageAt ⟨0, 0⟩) := fun s h => by
    unfold State.firstBoard
    rw [attempts_from envBoth rfl, List.find?_cons_of_pos h, Option.map_some]
  refine ⟨fun other ho => ?_, by decide +kernel, fun s k x hk => changed_fails s k x (hb k (List.getElem?_eq_some_iff.1 hk).1),
    by decide +kernel⟩
  rcases List.mem_cons.1 ho with rfl | ho
  · exact ⟨by unfold State.settled; decide +kernel, by decide +kernel, by decide +kernel, f _ (by decide +kernel), by decide +kernel,
      by decide +kernel⟩
  · rw [List.mem_singleton.1 ho]
    exact ⟨by unfold State.settled; decide +kernel, by decide +kernel, by decide +kernel, f _ (by decide +kernel), by decide +kernel,
      by decide +kernel⟩

/-- StartupSequence: no flash answers; the image in slot A loads with a good reference, with a bad one, and without a lock; the
mandatory supply of another image does not answer. -/
theorem witness_startup : (∀ p ∈ [0, 2], (booting p).settled ∧ (booting p).mode = Mode.load ∧ (booting p).pwr.stage = .good)
    ∧ (inMode Mode.load).firstBoard (env0 0 6144 true) = none ∧ (inMode Mode.load).settled
    ∧ (∀ n l, (booting 0).firstBoard (env0 1 n l) = some (image 0) ∧ (booting 0).attemptCause (env0 1 n l) 0 ⟨0, 0⟩ = 0
      ∧ (attempts (env0 1 n l))[0]? = some ⟨0, 0⟩)
    ∧ (booting 2).firstBoard (env0 1 6144 true) = some (image 2)
    ∧ rdF (sec (image 0) 4) 0 5 4 = 0 ∧ rdF (sec (image 2) 4) 0 5 4 = 2 ∧ rdF (sec (image 0) 1) 0 7 0 = 1
    ∧ rdF (sec ((booting 0).imageAt ⟨0, 0⟩) 1) 0 7 0 = 1
    ∧ 94 * (3072 * 2 ^ 1) ≤ 100 * (6144 : BitVec 16).toNat ∧ 100 * (6144 : BitVec 16).toNat ≤ 106 * (3072 * 2 ^ 1)
    ∧ ¬ 94 * (3072 * 2 ^ 1) ≤ 100 * (5775 : BitVec 16).toNat
    ∧ (booting 0).vinBad = false ∧ (booting 0).plb.tj ≤ 1680 ∧ (booting 0).pins.safeN = true := by
  have hr : rdF (sec (image 0) 1) 0 7 0 = 1 := by decide +kernel
  refine ⟨by unfold State.settled; decide +kernel, by decide +kernel, by unfold State.settled; decide +kernel, fun n l =>
    ⟨first_board 0 _ rfl rfl (by decide +kernel) (sec_crcs 0 0 (by omega) (secs_at 0 (by omega)).1 (secs_at 0 (by omega)).2.1),
      image_loads _ rfl rfl, rfl⟩,
    first_board 2 _ rfl rfl (by decide +kernel) (sec_crcs 2 0 (by omega) (secs_at 0 (by omega)).2.2.1 (secs_at 0 (by omega)).2.2.2.1),
    by decide +kernel, by decide +kernel, hr, by rw [image_read]; exact hr, by decide, by decide, by decide, by decide +kernel,
    by decide +kernel, by decide +kernel⟩

/-! ### Single steps, with results from the spec -/

/-- A command runs and its next state passes a check. -/
def after (i : Instr) (s : State) (p : State → Bool) : Bool :=
  match exec i s with
  | .next t => p t
  | _ => false

/-- Tile 0 with these values in G1 and G2. -/
def withG (a b : Word) : State := tile.setCore 0 { core0 with g := [(1, a), (2, b)] }

/-- Table 04-7: sums wrap; SAR copies the sign; the destination may be a source. -/
theorem test_add_wraps : after (.add (.tile 0) 1 1 2) (withG 0xFFFFFFFF 2) (fun t => t.gv 0 1 == 1 && (t.core 0).pc == 0x104) = true := by
  decide +kernel
theorem test_sar : after (.sar (.tile 0) 3 1 2) (withG 0x80000000 31) (fun t => t.gv 0 3 == 0xFFFFFFFF) = true := by decide +kernel
/-- G0 reads as zero whatever is written to it. -/
theorem test_g0 : after (.add (.tile 0) 0 1 2) (withG 1 2) (fun t => t.gv 0 0 == 0) = true := by decide +kernel
/-- A core without a handler halts at an exception, one with a handler goes there (R103). -/
theorem test_brk : after (.brk (.tile 0) 7) tile (fun t => (t.core 0).pc == 0x40) = true := by decide +kernel
/-- Little-endian, from a bank that the tile owns. -/
theorem test_ldw : after (.ldw (.tile 0) 3 1 0 none)
    { withG 16 0 with banks := { tile.banks with bytes := [(16, 1), (17, 2), (18, 3), (19, 4)] } }
    (fun t => t.gv 0 3 == 0x04030201) = true := by decide +kernel
theorem test_stb : after (.stb (.tile 0) 2 1 1 none) (withG 16 0x11223344)
    (fun t => t.byte 17 == 0x44 && t.byte 16 == 0 && t.byte 18 == 0) = true := by decide +kernel

/-- Table 02-14 and Table 02-15: latest-first booking on MATRIX 4, DSP 37 and LDPC_D 12, and the eight fragments on MATRIX 5. -/
def booked (q : Nat) (l : List (Nat × Nat)) : SMap Nat := l.foldl (fun c p => calSet c q p.1 p.2) []
theorem test_book_matrix : (bookDown 6912 4 1 15 0 3632 (booked 4 [(14, 1500), (15, 5000)])).1 = [(15, 1912), (14, 1720)] := by
  decide +kernel
theorem test_book_dsp : (bookDown 13824 37 17 15 0 6928 (booked 37 [(29, 8000), (30, 13824), (31, 12000)])).1
    = [(31, 1824), (29, 5104)] := by decide +kernel
theorem test_book_short : (bookDown 6912 5 1 15 0 4432 (booked 5 ((List.range 13).map (fun k => (k + 1, 6612)) ++ [(14, 6912), (15, 6000)]))).2.1
    = 1420 := by decide +kernel

/-- Table 18-3: bank (5, 37) of cluster memory. -/
theorem test_bank_addresses : globalBank (1536 + 128 * 5 + 37) = 5 * 256 + 101 ∧ bankBase (5 * 256 + 101) = 0x12A50000
    ∧ ownerReg (5 * 256 + 101) = 0x40650194 ∧ cfgReg (5 * 256 + 101) = 0x40650594 ∧ bankOf 0x12A52340 = some (5 * 256 + 101) := by
  decide

/-- Table 09-7: the ninth corrected read of the stuck word makes it a candidate, here by the scrubber at line 70. -/
def stuck (e : TrkEntry) : State :=
  let s := run.fset (Addr.memScrubCfg 5) Fld.memScrubCfgEn 1
  let w := 0x12A52340 / 8
  let s := { s with banks := { s.banks with flips := [(w, 1)] } }
  ((s.setTrk 5 0 (some { e with word := w })).setScrub 5 { s.scrub 5 with pos := [(101, 70)] })
theorem test_remap_candidate : after (.scrubLineCheck 5 101) (stuck ⟨0, 0, true⟩) (fun t =>
    t.reg (Addr.memCeCnt 5) == 1 && t.reg (Addr.memRemapCandCnt 5) == 1 && (t.trk 5 0).isNone
      && t.fget (Addr.memRemapCand 5) Fld.memRemapCandBank == 101 && t.fget (Addr.memRemapCand 5) Fld.memRemapCandWord == 1128)
    = true := by decide +kernel

/-- The guaranteed line write of tile 37: the hops from router 34 to I/O router 101. -/
theorem test_route : routePort 34 34 101 0 (fun _ => 0xFFFFFF) = 4 ∧ routePort 42 34 101 0 (fun _ => 0xFFFFFF) = 8
    ∧ routePort 97 34 101 0 (fun _ => 0xFFFFFF) = 4 ∧ routePort 101 34 101 2 (fun _ => 0xFFFFFF) = 2 := by decide +kernel

/-- The two encodings that chapter 5 writes out; and a reserved operation encodes nothing (R83). -/
theorem test_encodings :
    decodeCore (.tile 0) 0xAB4005E0 0 = some (.vcmacw (.tile 0) ⟨16, 0, 5, 3, true, false, false, 0, none⟩)
    ∧ decodeCore (.tile 0) 0xC0020000 0 = some (.vld (.tile 0) ⟨0, 0, true, 0, 0, false, 0⟩ none)
    ∧ decodeCore (.tile 0) 0x1F800000 0 = none := by decide +kernel

/-- Chapter 10's line write: tile 37 lies at RTR 34 and fronthaul bank 80 at RTR 101. -/
theorem test_routers : tileRtr 37 = 34 ∧ bankRtr (24 * 256 + 80) = 101 := by decide

/-- Chapter 19's examples: lane 37, host lane 9 and GPIO[31]. -/
theorem test_balls : [ballName 71 15, ballName 67 16, ballName 39 71, ballName 52 2] = ["CP15", "CK16", "BA71", "BP2"]
    ∧ signalAt 71 15 = some (.fh 37 true true) ∧ signalAt 67 16 = some (.fh 37 false false)
    ∧ signalAt 39 71 = some (.hx 9 true true) ∧ signalAt 52 2 = some (.pin "GPIO[31]") := by decide +kernel

/-- Table 07-5: the gain steps of the five symbols, for a target of −18 dBFS. -/
theorem test_agc : agcStep 0 (-180) (-185) = 0 ∧ agcStep 0 (-180) (-200) = 1 ∧ agcStep 1 (-180) (-201) = 1
    ∧ agcStep 1 (-180) (-160) = -1 ∧ agcStep (-1) (-180) (-172) = -1 := by decide

/-- Table 13-3: a Sync from port 6 leaves port 40 with 33,922,432 added to its correction. -/
def tcState : State :=
  let port : PortT := { type := 3, fec := 0, cpriVer := 0, vlanEn := false, srcMac := 1, vlanTci := 0 }
  let s := [6, 40].foldl (fun s p => s.fset (Addr.fhPortStat p) Fld.fhPortStatUp 1) run
  let s := (s.setReg (Addr.ptpRxdlyEff 6) 0x13C0).setReg (Addr.ptpTxdlyEff 40) 0x0D80
  { s with time := { s.time with edge := 122880252 }
           img := { s.img with ports := [(6, some port), (40, some port)], ptpPorts := [(6, ⟨0, 0, false, true, 1, 40⟩)] } }
theorem test_residence : after (.ptpTcForward 6 ⟨false, 0, 0, []⟩ 237 45 25) tcState
    (fun t => t.out == [.ptp 40 0 none 33922432 []]) = true := by decide +kernel

/-- The saturated delay and the later trim of lane 12 at rate 0x11. -/
def delayed : State :=
  ((inMode Mode.service).fset (Addr.laneCfg 12) Fld.laneCfgRate 0x11).setReg (Addr.ptpRxdlyFact 12 0x11) 0xF000
theorem test_cal_saturates : after (.calUserWrite 1 12 0x1400) delayed (fun t => t.reg (Addr.ptpRxdlyEff 12) == 0xFFFF
    && t.reg Addr.devCalSatCnt == 1) = true := by decide +kernel
theorem test_cal_trim : after (.calUserWrite 1 12 0x0A00) delayed (fun t => t.reg (Addr.ptpRxdlyEff 12) == 0xFA00
    && t.reg Addr.devCalSatCnt == 0) = true := by decide +kernel

/-- R430, Table 18-6: the identification code comes out of IDCODE. -/
theorem test_idcode : after .idcode run (fun t => t.out == [.tdo 32 0x19064A6B]) = true := by decide +kernel

end Sys2Proof.Tests
end

/-! Latest-first booking (R28). `BookWalk` gives the walk of `bookDown` one constructor per thing it can do at a bin; the
clauses of R28 are inductions over it. -/

namespace Sys2Proof.Machine

/-! ### Calendar words -/

theorem calFill_calSet_of_key_eq (cal : SMap Nat) (v : Nat) {q b q' b' : Nat} (h : calKey q' b' = calKey q b) :
    calFill (calSet cal q b v) q' b' = v := by
  simp [calFill, calSet, h]

@[simp] theorem calFill_calSet_self (cal : SMap Nat) (q b v : Nat) : calFill (calSet cal q b v) q b = v :=
  calFill_calSet_of_key_eq cal v rfl

theorem calFill_calSet_of_key_ne (cal : SMap Nat) (v : Nat) {q b q' b' : Nat} (h : calKey q' b' ≠ calKey q b) :
    calFill (calSet cal q b v) q' b' = calFill cal q' b' :=
  SMap.get_set_other noFill cal v h

/-- Two bins less than 4,096 apart have words of their own in a calendar (R25). -/
theorem calKey_ne_of_lt {q b b' : Nat} (hlt : b < b') (hnear : b' < b + 4096) : calKey q b' ≠ calKey q b := by
  unfold calKey
  omega

/-! ### The walk -/

/-- The walk over the `n` bins from `lo + n - 1` down to `lo` with `frags` fragments taken so far: from the cost `need` and
the calendar `cal` to the fragments, the shortfall and the calendar after them. -/
inductive BookWalk (limit q lo : Nat) : Nat → Nat → Nat → SMap Nat → List (Nat × Nat) → Nat → SMap Nat → Prop
  /-- no bin is left, the cost is met, or the eighth fragment is taken -/
  | stop {n frags need : Nat} {cal : SMap Nat} (hend : n = 0 ∨ need = 0 ∨ frags = 8) :
      BookWalk limit q lo n frags need cal [] need cal
  /-- a bin with no free room is passed over -/
  | skip {n frags need short : Nat} {cal cal' : SMap Nat} {l : List (Nat × Nat)}
      (hfull : limit ≤ calFill cal q (lo + n)) (below : BookWalk limit q lo n frags need cal l short cal') :
      BookWalk limit q lo (n + 1) frags need cal l short cal'
  /-- a fragment takes the smaller of the cost and the room -/
  | take {n frags need x short : Nat} {cal cal' : SMap Nat} {l : List (Nat × Nat)} (hfrags : frags ≠ 8) (hpos : 0 < x)
      (hx : x = min need (limit - calFill cal q (lo + n)))
      (below : BookWalk limit q lo n (frags + 1) (need - x) (calSet cal q (lo + n) (calFill cal q (lo + n) + x)) l short cal') :
      BookWalk limit q lo (n + 1) frags need cal ((lo + n, x) :: l) short cal'

/-- What `bookDown` computes is the walk. -/
theorem bookDown_bookWalk (limit q lo n frags need : Nat) (cal : SMap Nat) :
    let r := bookDown limit q lo n frags need cal
    BookWalk limit q lo n frags need cal r.1 r.2.1 r.2.2 := by
  induction n generalizing frags need cal with
  | zero => exact .stop (.inl rfl)
  | succ n ih =>
    by_cases hend : need = 0 ∨ frags = 8
    · simpa [bookDown, hend] using BookWalk.stop (.inr hend)
    by_cases hroom : min need (limit - calFill cal q (lo + n)) = 0
    · have hfull : limit ≤ calFill cal q (lo + n) := by omega
      simpa only [bookDown, if_neg hend, if_pos hroom] using BookWalk.skip hfull (ih frags need cal)
    · simpa only [bookDown, if_neg hend, if_neg hroom] using
        BookWalk.take (fun h => hend (.inr h)) (Nat.pos_of_ne_zero hroom) rfl (ih ..)

namespace BookWalk

variable {limit q lo n frags need short : Nat} {cal cal' : SMap Nat} {l : List (Nat × Nat)}

/-- What is not placed is the shortfall. -/
theorem sum_add_short (w : BookWalk limit q lo n frags need cal l short cal') : (l.map (·.2)).sum + short = need := by
  induction w with
  | stop => simp
  | skip _ _ ih => exact ih
  | take _ _ hx _ ih =>
    rw [List.map_cons, List.sum_cons]
    omega

theorem frags_add_length_le (w : BookWalk limit q lo n frags need cal l short cal') (h8 : frags ≤ 8) :
    frags + l.length ≤ 8 := by
  induction w with
  | stop => exact h8
  | skip _ _ ih => exact ih h8
  | take hfrags _ _ _ ih =>
    have := ih (by omega)
    rw [List.length_cons]
    omega

theorem mem_range (w : BookWalk limit q lo n frags need cal l short cal') :
    ∀ f ∈ l, lo ≤ f.1 ∧ f.1 < lo + n ∧ 0 < f.2 := by
  induction w with
  | stop => simp
  | skip _ _ ih =>
    intro f hf
    have := ih f hf
    omega
  | take _ hpos _ _ ih =>
    rintro f (_ | ⟨_, hf⟩)
    · exact ⟨by simp, by simp, hpos⟩
    · have := ih f hf
      omega

theorem latest_first (w : BookWalk limit q lo n frags need cal l short cal') : l.Pairwise (fun f g => g.1 < f.1) := by
  induction w with
  | stop => exact .nil
  | skip _ _ ih => exact ih
  | take _ _ _ below ih => exact .cons (fun g hg => (below.mem_range g hg).2.1) ih

/-- A fragment is taken only while cost is needed. -/
theorem need_pos_of_mem (w : BookWalk limit q lo n frags need cal l short cal') {f : Nat × Nat} (hf : f ∈ l) : 0 < need := by
  induction w with
  | stop => simp at hf
  | skip _ _ ih => exact ih hf
  | take _ hpos hx _ _ => omega

/-- Only the words of the fragments' bins change. -/
theorem calFill_of_key_ne (w : BookWalk limit q lo n frags need cal l short cal') {q' b : Nat}
    (h : ∀ f ∈ l, calKey q' b ≠ calKey q f.1) : calFill cal' q' b = calFill cal q' b := by
  induction w with
  | stop => rfl
  | skip _ _ ih => exact ih h
  | take _ _ _ _ ih =>
    obtain ⟨hhead, htail⟩ := List.forall_mem_cons.mp h
    rw [ih htail, calFill_calSet_of_key_ne _ _ hhead]

/-- The walk leaves the bin just above it as it is. -/
theorem calFill_above (w : BookWalk limit q lo n frags need cal l short cal') (hn : n < 4096) :
    calFill cal' q (lo + n) = calFill cal q (lo + n) :=
  w.calFill_of_key_ne fun f hf => by
    have := w.mem_range f hf
    exact calKey_ne_of_lt (by omega) (by omega)

/-- A fragment's bin gains the fragment and stays within the fill limit. -/
theorem calFill_of_mem (w : BookWalk limit q lo n frags need cal l short cal') (hn : n ≤ 4096) :
    ∀ f ∈ l, calFill cal' q f.1 = calFill cal q f.1 + f.2 ∧ calFill cal' q f.1 ≤ limit := by
  induction w with
  | stop => simp
  | skip _ _ ih => exact ih (by omega)
  | take _ hpos hx below ih =>
    rintro f (_ | ⟨_, hf⟩)
    · rw [below.calFill_above hn, calFill_calSet_self]
      exact ⟨rfl, by omega⟩
    · have hrange := below.mem_range f hf
      have hother := calKey_ne_of_lt (q := q) (b := f.1) hrange.2.1 (by omega)
      have hfill := ih (by omega) f hf
      rwa [calFill_calSet_of_key_ne _ _ hother.symm] at hfill

/-- A bin whose fragment leaves some cost unmet is full. -/
theorem full_of_need_left {x : Nat} (hx : x = min need (limit - calFill cal q (lo + n)))
    (w : BookWalk limit q lo n frags (need - x) (calSet cal q (lo + n) (calFill cal q (lo + n) + x)) l short cal')
    (hn : n < 4096) (hleft : 0 < need - x) : limit ≤ calFill cal' q (lo + n) := by
  rw [w.calFill_above hn, calFill_calSet_self]
  omega

theorem full_above_mem (w : BookWalk limit q lo n frags need cal l short cal') (hn : n ≤ 4096) :
    ∀ f ∈ l, ∀ b, f.1 < b → b < lo + n → limit ≤ calFill cal' q b := by
  induction w with
  | stop => simp
  | skip hfull below ih =>
    intro f hf b hlow hhigh
    rcases Nat.lt_succ_iff_lt_or_eq.mp hhigh with hb | rfl
    · exact ih (by omega) f hf b hlow hb
    · exact Nat.le_trans hfull (Nat.le_of_eq (below.calFill_above hn).symm)
  | take _ _ hx below ih =>
    rintro f (_ | ⟨_, hf⟩) b hlow hhigh
    · exact absurd hlow (by simp only; omega)
    · rcases Nat.lt_succ_iff_lt_or_eq.mp hhigh with hb | rfl
      · exact ih (by omega) f hf b hlow hb
      · exact full_of_need_left hx below hn (below.need_pos_of_mem hf)

/-- A shortfall means that the eighth fragment is taken or every bin of the walk is full. -/
theorem eight_or_full_of_short (w : BookWalk limit q lo n frags need cal l short cal') (hn : n ≤ 4096) (hshort : short ≠ 0) :
    frags + l.length = 8 ∨ ∀ b, lo ≤ b → b < lo + n → limit ≤ calFill cal' q b := by
  induction w with
  | stop hend =>
    rcases hend with rfl | h0 | h8
    · exact .inr fun b _ _ => by omega
    · exact absurd h0 hshort
    · exact .inl h8
  | skip hfull below ih =>
    refine (ih (by omega) hshort).imp_right fun hall b hlow hhigh => ?_
    rcases Nat.lt_succ_iff_lt_or_eq.mp hhigh with hb | rfl
    · exact hall b hlow hb
    · exact Nat.le_trans hfull (Nat.le_of_eq (below.calFill_above hn).symm)
  | take _ _ hx below ih =>
    refine (ih (by omega) hshort).imp (fun h8 => by rw [List.length_cons]; omega) fun hall b hlow hhigh => ?_
    rcases Nat.lt_succ_iff_lt_or_eq.mp hhigh with hb | rfl
    · exact hall b hlow hb
    · exact full_of_need_left hx below hn (by have := below.sum_add_short; omega)

end BookWalk

/-- Settles O27: the clauses of R28 for the walk that `bookDown` makes, each an induction over `BookWalk`. -/
theorem latestFirstBooking : Obligations.LatestFirstBooking := by
  intro limit q lo n need cal hn r
  have w : BookWalk limit q lo n 0 need cal r.1 r.2.1 r.2.2 := bookDown_bookWalk limit q lo n 0 need cal
  exact ⟨w.sum_add_short, by simpa using w.frags_add_length_le (Nat.zero_le 8), w.mem_range, w.latest_first,
    w.calFill_of_mem hn, fun _ _ => w.calFill_of_key_ne, w.full_above_mem hn,
    by simpa using w.eight_or_full_of_short hn⟩

end Sys2Proof.Machine

/-! Doubts and SAFE (R407). The entry to SAFE restarts the voters of a vote under way after PLB_CAUSE has been written, and
lifts the fence of the vote's cluster, whatever that cluster is. A command starts votes of clusters 0 to 23 only; the statement
asks it of every state, so one whose vote names a cluster beyond the fence registers refutes it. -/

namespace Sys2Proof.Machine

/-- The fence domain whose NOC_FENCE_STAT would lie at the address of PLB_CAUSE. -/
def causeDomain : Nat := (Addr.plbCause - Addr.nocFenceStat 0) / 4

/-- In RUN, a vote on the SLEEP of cluster `causeDomain` has reached the clusters, and the doubt LOCKSTEP has arisen. -/
def strayVote : State :=
  let s := State.reset.fset Addr.pwrMode Fld.pwrModeMode Mode.run
  { s.doubt Doubt.lockstep with
    pwr := { s.pwr with
      vote := some { target := Mode.sleep, cluster := some causeDomain, stage := 2, wakeMs := 0, start := 0 } } }

theorem plumbPowered_strayVote : strayVote.plumbPowered = true := by decide +kernel

/-- Lifting the fence of `causeDomain` clears the cause that the doubt has just set. -/
theorem plbCause_settle_strayVote : strayVote.settle.reg Addr.plbCause = 0 := by decide +kernel

/-- Refutes O60: at the end of the command from `strayVote` the bit of LOCKSTEP in PLB_CAUSE is clear. -/
theorem not_doubtsTakeSafe : ¬ Obligations.DoubtsTakeSafe := by
  unfold Obligations.DoubtsTakeSafe
  intro holds
  have hraised : strayVote.plb.raised = [Doubt.lockstep] := rfl
  obtain ⟨t, hdone, -, hbits, -⟩ := holds strayVote plumbPowered_strayVote (by simp [hraised]) (by simp [hraised, Doubt.lockstep])
  obtain rfl : strayVote.settle = t := Host.Outcome.next.inj hdone
  have hbit := hbits Doubt.lockstep (by simp [hraised])
  rw [plbCause_settle_strayVote] at hbit
  exact absurd hbit (by decide)

end Sys2Proof.Machine
